-- ==== Sys2Proof/Word.lean ====
section
/-! DEFINITION. The word types of the block: bytes, half-words, 32-bit register words and 64-bit
values (R3, R4: registers are 32 bits wide, bit 0 is the least significant bit). -/

namespace Sys2Proof

abbrev Byte := BitVec 8
abbrev Half := BitVec 16
abbrev Word := BitVec 32
abbrev Long := BitVec 64

end Sys2Proof
end

