-- ==== Sys2Proof/Syntax.lean ====
section
/-! DEFINITION. The commands of the block: one constructor of `Instr` for each row of
spec/opcode_table.json, with the operands that a sender or the physics outside the block supplies.
An event row carries as operands only facts that the spec lets the outside decide (a voltage at a
terminal, a frame received, a fault of a part, the outcome of a physical test). -/

namespace Sys2Proof

/-- One of the two of everything that the spec names A and B: halves, links, field sequencers,
comparators, oscillators, supplies, porch processors. -/
inductive Side where
  | a
  | b
  deriving DecidableEq, Repr

/-- Who performs a local register access (R279, R281): the porch on behalf of the host, an engine as
such (P2 work, debugging), or a function instance on whichever engine carries it. -/
inductive Agent where
  | porch
  | engine (e : Fin 8)
  | inst (staged : Bool) (i : Fin 1024)
  deriving DecidableEq, Repr

/-- The binding of a mailbox request to its sender (R331): a host address and UDP port, or the
service port. -/
inductive Origin where
  | udp (ip : Word) (port : Half)
  | usb
  deriving DecidableEq, Repr

/-- The request header fields that a sender chooses (Table 16.2), and the origin. -/
structure Hdr where
  origin  : Origin
  session : Byte
  tag     : Word
  seq     : Word
  epoch   : Byte
  staged  : Bool
  deriving DecidableEq, Repr

/-- How a mailbox frame comes in (R328, R334): its sender; on a host port the UDP port that it is sent to, and whether
it is 802.1Q-tagged or a fragment; with PRP the sender's MAC address and the sequence number of its redundancy control
trailer, and the LAN it comes by; and whether its response stays in its mailbox for a while. -/
structure Wire where
  origin   : Origin
  port     : Half
  tagged   : Bool
  fragment : Bool
  trailer  : Option (BitVec 48 × Half × Side)
  held     : Bool
  deriving DecidableEq, Repr

/-- Which porch processor stops: the active one, for a cause, or the standby (R341, R342). -/
inductive ProcStop where
  | active (cause : Nat)
  | standby
  deriving DecidableEq, Repr

/-- A run-ahead: whose next window runs, and the writes of its pass A (R121). -/
structure Ahead where
  inst   : Fin 1024
  writes : List (Word × Word)
  deriving DecidableEq, Repr

/-- The memory spaces of an engine that DEBUG_ATTACH OP 4 and OP 5 name (R348). -/
abbrev DebugSpace := BitVec 8

/-- The instants of an output's slot at which the pulse begins or ends and judgements are made
(R41, R62, R218). -/
inductive PulsePoint where
  | b
  | b30
  | e
  | e30
  deriving DecidableEq, Repr

/-- A line measurement of one sequencer (R221): the voltage of Q− under the 3 mA source, or the
high-side current while the output is ON. -/
inductive LineMeas where
  | sense (mV : Nat)
  | current (mA : Nat)
  deriving DecidableEq, Repr

/-- Faults of one window's two passes (R113, R115). -/
inductive PassFault where
  | none
  /-- a residue that is not 0 after an operation of pass B -/
  | code
  /-- both rails (`both`), or neither, of a bit of the delay register are set -/
  | dreg (bit : Fin 32) (both : Bool)
  /-- what pass A has staged is not what the rules give -/
  | wrong
  deriving DecidableEq, Repr

/-- How pass B computes a value: on coded data, from the coded values of its snapshot (R112). -/
inductive PassB where
  /-- value `n` of the snapshot -/
  | snap (n : Nat)
  /-- a parameter or a constant of this native value -/
  | native (v : Word)
  /-- what a faulty data path or memory holds -/
  | raw (c : BitVec 48)
  | neg (x : PassB)
  | add (x y : PassB)
  | sub (x y : PassB)
  /-- a comparison: 1 where the first value is the lower -/
  | less (x y : PassB)
  /-- a product with a native constant -/
  | scale (k : Word) (x : PassB)
  /-- a product and a quotient of two coded values -/
  | mul (x y : PassB)
  | div (x y : PassB)
  /-- a branch, taken where the first value is not 0 -/
  | branch (c x y : PassB)
  deriving DecidableEq, Repr

/-- What one comparator was made to answer by a fault of its own (R117): nothing unusual, always
match, or always mismatch. -/
inductive CmpStuck where
  | ok
  | stuckMatch
  | stuckMismatch
  deriving DecidableEq, Repr

/-- How a blow ends: verified in all four readings; with its row bad after three attempts; or with its row
bad and the redirection cut short once these bits of the entry were blown (R385, R387). -/
inductive BlowEnd where
  | blown
  | bad
  | cut (entry : BitVec 15)
  deriving DecidableEq, Repr

/-- Outcome of a room self-test (R96, R97). -/
inductive RoomTest where
  | noneFound
  | repaired (clusters : Nat)
  | irreparable
  deriving DecidableEq, Repr

/-- What one conversion gives (R169, R170): the signal as measured, its error after mismatch correction
within Table 7.1, in µV, or in nA on a 0–20 mA channel; and the slice's coefficients where they were estimated anew:
offset in 1/16 count, gain with 0x800000 for 1, skew in 0.1 ps. -/
structure Sample where
  sig  : Int
  coef : Option (Int × Nat × Int)
  deriving DecidableEq, Repr

/-- The outcomes of the tests of start-up (Table 12.4), which the physics of the parts decides: the
parts that fail, and the measured hold-up time in 0.1 ms. -/
structure StartOutcome where
  oscBad     : List Side
  regBad     : List Nat
  roomsBad   : List Nat
  /-- rooms that hidden repair mends, and the clusters it takes (R97) -/
  roomsFixed : List (Nat × Nat)
  engBad     : List Nat
  cmpBad     : List Side
  ckmBad     : List Side
  mxBad      : List Side
  memBad     : List Side
  linksBad   : List Side
  fsBad      : List Side
  /-- channels whose calibration record no longer matches its CRC (R185) -/
  calBad     : List Nat
  /-- the cross-link FX fails its test -/
  fxBad      : Bool
  inBad      : List Nat
  outBad     : List Nat
  ppBad      : List Side
  portsBad   : List Nat
  plost      : Bool
  cvuBad     : List Nat
  convBad    : List Nat
  slicesBad  : List (Nat × Nat)
  storeCapMs : Nat
  deriving DecidableEq, Repr

/-- How the self-test of an engine ends (R129, R304). -/
inductive SelfTest where
  | pass
  | fail
  /-- the known-answer test of its check-value unit fails -/
  | unit
  deriving DecidableEq, Repr

/-- What the cover switch shows (R319, R327). -/
inductive CoverSwitch where
  /-- it comes to read open -/
  | opened
  /-- it has read open for 100 ms without a break -/
  | held
  | closed
  deriving DecidableEq, Repr

/-- Whether a write of CVU_DATA meets a defect of its unit (R303). -/
inductive CopyFault where
  | none
  /-- the two copies differ after its byte-steps -/
  | now
  /-- the copies will differ in each of the next `n` checks that the unit makes -/
  | later (n : Nat)
  deriving DecidableEq, Repr

/-- How a flush ends (R397, R403). -/
structure FlushOutcome where
  /-- verifications of one record that failed; the second ends the flush -/
  fails : Fin 3
  /-- records stored and verified before that one -/
  stored : Nat
  deriving DecidableEq, Repr

/-- The commands of the block, in the order of spec/opcode_table.json. -/
inductive Instr where
  -- mailbox commands (chapter 16)
  | identify (h : Hdr) (body : List Byte)
  | getStatus (h : Hdr) (body : List Byte)
  | readRegs (h : Hdr) (body : List Byte)
  | writeRegs (h : Hdr) (body : List Byte)
  | sessionOpen (h : Hdr) (body : List Byte)
  | sessionClose (h : Hdr) (body : List Byte)
  | imageBegin (h : Hdr) (body : List Byte)
  | imageChunk (h : Hdr) (body : List Byte)
  | imageEnd (h : Hdr) (body : List Byte)
  | imageValidate (h : Hdr) (body : List Byte)
  | validationDone
  | imageStage (h : Hdr) (body : List Byte)
  | imageHandover (h : Hdr) (body : List Byte)
  | handoverCommit
  | imageAbandon (h : Hdr) (body : List Byte)
  | functionReset (h : Hdr) (body : List Byte)
  | outputReset (h : Hdr) (k : Fin 64)
  | reTestEnd (k : Fin 64)
  | functionQuery (h : Hdr) (body : List Byte)
  | engineSplit (h : Hdr) (body : List Byte)
  | drainEnd (e : Fin 8)
  | engineJoin (h : Hdr) (body : List Byte)
  | calZero (h : Hdr) (body : List Byte)
  | calFull (h : Hdr) (body : List Byte)
  | calAverageEnd
  | calCommit (h : Hdr) (body : List Byte)
  | calDiscard (h : Hdr) (body : List Byte)
  | recInfo (h : Hdr) (body : List Byte)
  | recRead (h : Hdr) (body : List Byte)
  | recClear (h : Hdr) (body : List Byte)
  | fuseRead (h : Hdr) (body : List Byte)
  | fuseAdvance (h : Hdr) (body : List Byte)
  | fabricMap (h : Hdr) (body : List Byte)
  | peerAccept (h : Hdr) (body : List Byte)
  | peerExpel (h : Hdr) (body : List Byte)
  | streamOpen (h : Hdr) (body : List Byte)
  | streamClose (h : Hdr) (body : List Byte)
  | debugAttach (h : Hdr) (body : List Byte)
  | halt (h : Hdr) (e : Fin 8)
  | resume (h : Hdr) (e : Fin 8)
  | debugStep (h : Hdr) (e : Fin 8)
  | debugRead (h : Hdr) (e : Fin 8) (space : DebugSpace) (addr : Word) (len : Half)
  | debugWrite (h : Hdr) (e : Fin 8) (space : DebugSpace) (addr : Word) (data : List Byte)
  | breakSet (h : Hdr) (e : Fin 8) (addr : Word) (set : Half)
  | debugDetach (h : Hdr) (body : List Byte)
  | firmwareBegin (h : Hdr) (body : List Byte)
  | firmwareChunk (h : Hdr) (body : List Byte)
  | firmwareEnd (h : Hdr) (body : List Byte)
  | firmwareCheckEnd
  | firmwareSwitch (h : Hdr) (body : List Byte)
  -- register operations
  | counterClear (p : Fin 4) (v : Word)
  | cnvGo (w : Agent) (v : BitVec 4)
  | cnvSnap (w : Agent) (v : BitVec 4)
  | tbRead (w : Agent)
  | tmrGo (w : Agent) (lo hi : Word)
  | tmrSnap (w : Agent) (lo hi : Word)
  | pop (w : Agent) (n : Fin 64)
  | capsw (w : Agent) (n : Fin 64)
  | stop (w : Agent) (n : Fin 64)
  | arm (w : Agent) (n : Fin 64)
  | start (w : Agent) (n : Fin 64)
  | periodWrite (w : Agent) (n : Fin 64) (v : Word)
  | compareWrite (w : Agent) (n : Fin 64) (one : Bool) (v : Word)
  | domainPowerDown (d : BitVec 3)
  | domainPowerUp (d : BitVec 3)
  | cvuInit (u : Fin 19)
  | cvuData (u : Fin 19) (width : Fin 3) (v : Word) (differ : CopyFault)
  | cvuExpect (u : Fin 19) (v : Word)
  | registerWrite (w : Agent) (addr v : Word)
  -- engines (chapter 5)
  | windowStart (staged : Bool) (i : Fin 1024)
  | commit (staged : Bool) (i : Fin 1024) (wA : List (Word × Word)) (wB : List (Word × PassB))
      (ask : List (Fin 32))
      (fault : PassFault) (stuckA stuckB : CmpStuck)
  | overrun (staged : Bool) (i : Fin 1024)
  | holdDeadline (staged : Bool) (i : Fin 1024)
  | runAhead (staged : Bool) (a : Ahead)
  | migration (staged : Bool) (i : Fin 1024) (crcOk : Bool)
  | selfTestEnd (e : Fin 8) (r : SelfTest)
  -- logic sea (chapter 4)
  | evaluation (p : Fin 64) (bad : List Nat)
  | delayExpiry (p : Fin 64) (site : Nat)
  | longDelayExpiry (p : Fin 64) (u : Fin 8)
  | refresh (p : Fin 64)
  | evaluationTimeout (p : Fin 64)
  | mirrorBuild (p : Fin 64)
  | rewrite (p : Fin 64)
  | holdAllowance (r : Fin 64)
  | roomSelfTest (p : Fin 64)
  | roomSelfTestEnd (p : Fin 64) (o : RoomTest)
  -- inputs and outputs (chapters 2, 3, 9)
  | inputChange (t : Fin 256) (mV : Int)
  | glitchFilter (q : Side) (t : Fin 256)
  | debounce (q : Side) (n : Fin 192)
  | disagree (n : Fin 192)
  | gateTime (q : Side) (m : Fin 128)
  | periodTimeout (q : Side) (m : Fin 128)
  | pulseFrame
  | pulse (k : Fin 64) (pt : PulsePoint)
  | overload (k : Fin 64) (low : Bool)
  | readbackDisagree (k : Fin 64) (minus : Bool)
  | lineSense (q : Side) (k : Fin 64) (m : LineMeas)
  | groupSupply (q : Side) (g : Fin 8) (mV : Int) (short : Bool)
  | oversum (g : Fin 8) (sum : Nat)
  | uplinkLaunch
  | uplinkFrame (l : Side) (bad : Bool)
  | frameMissing (l : Side)
  | downlinkFrame
  | downlinkAccept (q : Side) (bad : Bool)
  | configurationPacket (q : Side)
  | resultBlock (l : Side) (c : Fin 4) (flip : List Byte)
  | sequencerStop (q : Side) (selfFault : Bool)
  | peerDead (q : Side)
  | gateHold (k : Fin 64)
  | silence
  | holdTime (k : Fin 64)
  -- converters (chapter 7)
  | conversionStart (c : Fin 4) (slice : Fin 4)
  | conversionResult (c : Fin 4) (x : Sample)
  | holdBackEnd (c : Fin 4)
  | referenceCheck (c : Fin 4) (diff : Nat)
  | stale (ch : Fin 32)
  -- power (chapter 12)
  | supplyMeasurement (q : Side) (mV : Int)
  | switchOff
  | fieldFall
  | cellarFall
  | startupStep (o : StartOutcome)
  | domainDownEnd (d : Fin 8)
  | domainUpEnd (d : Fin 8) (o : StartOutcome)
  | domainFault (d : Fin 8)
  | domainRetry (d : Fin 8)
  | lossOfSignal (q : Side)
  | relock
  | disagreement (ppm : Int) (wA wB : Nat)
  | woscCheck (wosc : Bool) (ppmA ppmB : Int)
  | holdupMeasurement (ms : Nat)
  | operatingSecond
  -- timers, fuses, recorder, porch, fabric events
  | endEvent (n : Fin 64) (differ : Bool)
  | compare (n : Fin 64) (one : Bool)
  | fuseBlow (r : BlowEnd)
  | programmingWindow (mV : Nat) (temp : Int)
  | flushInterval
  | flushEnd (o : FlushOutcome)
  | switchover (p : ProcStop)
  | processorRestart (q : Side) (ok : Bool)
  | sessionTimeout (k : Fin 8)
  | challengeTimeout (k : Fin 8)
  | lockOutEnd
  | loadTimeout
  | calibrationTimeout
  | streamPacket (k : Fin 4)
  | prpSupervision
  | hello (p : Fin 4)
  | helloReceived (p : Fin 4) (f : List Byte)
  | helloTimeout (p : Fin 4)
  | lsa
  | lsaReceived (p : Fin 4) (f : List Byte)
  | lsaAgeOut (uid : Long)
  | routeRecompute
  | release (k : Fin 320)
  | sdata (p : Fin 4) (f : List Byte)
  | watchdog (k : Fin 320)
  | cdata (p : Fin 4) (f : List Byte)
  | bdata (p : Fin 4) (f : List Byte)
  | sealChange (code : Byte)
  | cover (c : CoverSwitch)
  | ready
  | stateRecompute
  | agreement (n : Fin 192)
  | offPulse (q : Side) (n : Fin 192)
  | sagRideThrough (p : Fin 64) (port : Nat)
  | thermalShutdown (k : Fin 64) (low : Bool)
  | blockClose (c : Fin 4)
  | speedMonitor (sea eng : List Nat)
  | mailboxFrame (w : Wire) (bytes : List Byte)
  | arp (bytes : List Byte)
  | icmpEcho (bytes : List Byte)
  | breakpoint (e : Fin 8)
  | charged
  | safetyLoadWindow (p : Fin 4)
  deriving DecidableEq, Repr

end Sys2Proof
end

