-- ==== Sys2Proof/Machine/Base.lean ====
section
/-! DEFINITION. Helpers every chapter shares: byte order (R3), bit fields, sparse tables in one
canonical form, byte memories, and the check-value arithmetic of Table 14.2. -/

namespace Sys2Proof.Machine

/-! ### Byte order (R3: most significant byte first) -/

/-- `v` as `n` bytes, most significant first. -/
def beBytes : Nat → Nat → List Byte
  | 0, _ => []
  | n + 1, v => BitVec.ofNat 8 (v / 256 ^ n) :: beBytes n v

/-- The number a byte string spells, most significant byte first. -/
def beNat (bs : List Byte) : Nat :=
  bs.foldl (fun acc b => acc * 256 + b.toNat) 0

def be16 (v : Nat) : List Byte := beBytes 2 v
def be32 (v : Nat) : List Byte := beBytes 4 v
def be64 (v : Nat) : List Byte := beBytes 8 v
def wordBytes (w : Word) : List Byte := beBytes 4 w.toNat

/-- `n` bytes of `bs` from byte `at_`. -/
def bytesAt (bs : List Byte) (off n : Nat) : List Byte := (bs.drop off).take n

/-- The field of `n` bytes at byte `off`, as a number. -/
def numAt (bs : List Byte) (off n : Nat) : Nat := beNat (bytesAt bs off n)

def wordAt (bs : List Byte) (off : Nat) : Word := BitVec.ofNat 32 (numAt bs off 4)

/-- A byte string cut into 32-bit words. -/
def wordsOf (bs : List Byte) : Nat → List Word
  | 0 => []
  | n + 1 => wordAt bs 0 :: wordsOf (bs.drop 4) n

/-! ### Bit fields -/

/-- Bits [hi:lo] of a word as a number. -/
def bf (w : Word) (hi lo : Nat) : Nat := (w.toNat >>> lo) % 2 ^ (hi + 1 - lo)

def bitOf (w : Word) (i : Nat) : Bool := w.getLsbD i

def b2n (b : Bool) : Nat := if b then 1 else 0

/-- A register word from its fields, each a value and the number of its lowest bit. -/
def mkWord (fs : List (Nat × Nat)) : Word :=
  fs.foldl (fun acc f => acc ||| BitVec.ofNat 32 (f.1 <<< f.2)) 0#32

/-- The word whose bit `j` is `f j`, for `j` below 32. -/
def maskWord (f : Nat → Bool) : Word :=
  (List.range 32).foldl (fun acc j => if f j then acc ||| BitVec.ofNat 32 (1 <<< j) else acc) 0#32

/-- A count that stops at its largest value. -/
def satAdd (mx n k : Nat) : Nat := min mx (n + k)

/-- The `n`-bit two's-complement coding of an integer. -/
def twos (n : Nat) (v : Int) : Nat := (v % (2 ^ n : Nat)).toNat

/-- The integer an `n`-bit two's-complement code stands for. -/
def sgn (n v : Nat) : Int := if v < 2 ^ (n - 1) then (v : Int) else (v : Int) - (2 ^ n : Nat)

/-! ### Sparse tables -/

/-- A table of values by number. Keys rise strictly, and no entry equals the value that an unlisted
key reads as. -/
abbrev Tab (α : Type) := List (Nat × α)

/-- What key `k` reads as; `d` is the value of every unlisted key. -/
def Tab.get {α : Type} (d : α) : Tab α → Nat → α
  | [], _ => d
  | (j, v) :: t, k => if j = k then v else if k < j then d else Tab.get d t k

/-- Writes `v` at key `k`; writing the value of an unlisted key removes the entry. -/
def Tab.set {α : Type} [DecidableEq α] (d : α) : Tab α → Nat → α → Tab α
  | [], k, v => if v = d then [] else [(k, v)]
  | (j, w) :: t, k, v =>
    if k < j then (if v = d then (j, w) :: t else (k, v) :: (j, w) :: t)
    else if k = j then (if v = d then t else (k, v) :: t)
    else (j, w) :: Tab.set d t k v

/-- Changes the value at key `k` by `f`. -/
def Tab.upd {α : Type} [DecidableEq α] (d : α) (t : Tab α) (k : Nat) (f : α → α) : Tab α :=
  Tab.set d t k (f (Tab.get d t k))

/-- The table that gives `f k` for every key below `n`. -/
def Tab.ofFn {α : Type} [DecidableEq α] (d : α) (n : Nat) (f : Nat → α) : Tab α :=
  (List.range n).foldl (fun acc k => Tab.set d acc k (f k)) []

/-- Changes every value that is listed by `f`. -/
def Tab.mapVal {α : Type} [DecidableEq α] (d : α) (f : α → α) (t : Tab α) : Tab α :=
  t.filterMap fun e => if f e.2 = d then none else some (e.1, f e.2)

/-- The canonical form: keys rise strictly from `lo`, and no entry holds the unlisted value. -/
def Tab.okFrom {α : Type} [DecidableEq α] (d : α) : Nat → Tab α → Bool
  | _, [] => true
  | lo, (j, v) :: t => decide (lo ≤ j) && decide (v ≠ d) && Tab.okFrom d (j + 1) t

def Tab.ok {α : Type} [DecidableEq α] (d : α) (t : Tab α) : Bool := Tab.okFrom d 0 t

/-- Element `i` of a list, `d` past its end. -/
def nth {α : Type} (l : List α) (i : Nat) (d : α) : α := l.getD i d

/-! ### Byte memories -/

/-- A byte store of the block (an image slot, a firmware bank, an engine memory): Host cells in the
canonical form of `Tab`, an unlisted byte reading 0. -/
abbrev Memory := List Host.Cell

def Memory.read (m : Memory) (a : Nat) : Byte := Tab.get 0#8 m a
def Memory.write (m : Memory) (a : Nat) (b : Byte) : Memory := Tab.set 0#8 m a b
def Memory.wf (m : Memory) : Bool := Tab.ok 0#8 m

def Memory.writeList : Memory → Nat → List Byte → Memory
  | m, _, [] => m
  | m, a, b :: bs => (m.write a b).writeList (a + 1) bs

/-- `n` bytes from `a` of a memory none of whose entries lies below `a`. -/
def Memory.readGo : Nat → Nat → Memory → List Byte
  | 0, _, _ => []
  | n + 1, a, [] => 0#8 :: Memory.readGo n (a + 1) []
  | n + 1, a, (j, v) :: t =>
    if j = a then v :: Memory.readGo n (a + 1) t else 0#8 :: Memory.readGo n (a + 1) ((j, v) :: t)

/-- `n` bytes from address `a`. -/
def Memory.readList (m : Memory) (a n : Nat) : List Byte :=
  Memory.readGo n a (m.dropWhile fun e => decide (e.1 < a))

/-! ### Check values (Table 14.2, R297) -/

/-- One algorithm of Table 14.2 in the catalogue form. -/
structure CrcAlg where
  width  : Nat
  poly   : Nat
  init   : Nat
  refl   : Bool
  xorout : Nat
  deriving DecidableEq, Repr

/-- Table 14.2 by the POLY code. -/
def crcAlg : BitVec 2 → CrcAlg
  | 0#2 => { width := 8, poly := 0x1D, init := 0xFF, refl := false, xorout := 0xFF }
  | 1#2 => { width := 16, poly := 0x1021, init := 0xFFFF, refl := false, xorout := 0 }
  | 2#2 => { width := 32, poly := 0x04C11DB7, init := 0xFFFFFFFF, refl := true,
             xorout := 0xFFFFFFFF }
  | _ => { width := 32, poly := 0x1EDC6F41, init := 0xFFFFFFFF, refl := true,
           xorout := 0xFFFFFFFF }

/-- One bit-step of the running register. -/
def crcBit (g : CrcAlg) (r : Nat) (bit : Bool) : Nat :=
  let s := (r <<< 1) % 2 ^ g.width
  if (r.testBit (g.width - 1)) ^^ bit then s ^^^ g.poly else s

/-- The order in which a byte's bits enter: least significant first with reflection. -/
def crcOrder (g : CrcAlg) : List Nat :=
  if g.refl then [0, 1, 2, 3, 4, 5, 6, 7] else [7, 6, 5, 4, 3, 2, 1, 0]

/-- One byte-step of the running register. -/
def crcByte (g : CrcAlg) (r : Nat) (b : Byte) : Nat :=
  (crcOrder g).foldl (fun r i => crcBit g r (b.getLsbD i)) r

def crcFeed (g : CrcAlg) (r : Nat) (bs : List Byte) : Nat := bs.foldl (crcByte g) r

/-- The low `w` bits of `r` in reverse order. -/
def bitRev (w r : Nat) : Nat :=
  (List.range w).foldl (fun acc i => if r.testBit i then acc ||| 1 <<< (w - 1 - i) else acc) 0

/-- The check value that a running register stands for (R298). -/
def crcOut (g : CrcAlg) (r : Nat) : Nat :=
  (if g.refl then bitRev g.width r else r) ^^^ g.xorout

/-- The check value of a byte string in PAYLOAD mode. -/
def crcOf (poly : BitVec 2) (bs : List Byte) : Nat :=
  crcOut (crcAlg poly) (crcFeed (crcAlg poly) (crcAlg poly).init bs)

/-- The check value of a byte string in ALIVE mode: the alive counter's two bytes, then the bytes
(R300). -/
def crcAlive (poly : BitVec 2) (alive : Nat) (bs : List Byte) : Nat :=
  crcOf poly (be16 alive ++ bs)

def crc32c (bs : List Byte) : Nat := crcOf 3#2 bs

end Sys2Proof.Machine
end

