-- ==== Sys2Proof/Machine/ImageTypes.lean ====
section
/-! DEFINITION. The content of a configuration image as the device holds it once it is parsed
(R307 to R310, R102, R213, R375, Table 16.1). Words that an image lays out as registers are kept as
register words. -/

namespace Sys2Proof.Machine

/-- The image header fields that the device uses (Table 15.1). -/
structure ImgHeader where
  signed  : Bool
  keyslot : Nat
  sealCode : Byte
  spare   : Nat
  gen     : Nat
  len     : Nat
  nsect   : Nat
  shadow  : Nat
  name    : List Byte
  deriving DecidableEq, Repr

/-- Selector of a cell input (Table 4.7). -/
inductive Selector where
  | const (v : Bool)
  | site (n : Nat)
  | port (n : Nat)
  | ld (n : Nat)
  deriving DecidableEq, Repr

/-- Cell modes (Table 4.2). -/
inductive CellMode where
  | comb
  | setdom
  | resetdom
  | ondly
  | offdly
  deriving DecidableEq, Repr

/-- Site record (Table 4.8). -/
structure SiteImg where
  site  : Nat
  mode  : CellMode
  start : Bool
  table : Half
  delay : Nat
  in0   : Selector
  in1   : Selector
  in2   : Selector
  in3   : Selector
  deriving DecidableEq, Repr

/-- What an input port, a function input or a produced bit reads (Tables 4.1 and 15.10). -/
inductive Source where
  | input (n : Nat)
  | invalid (n : Nat)
  | inst (i out : Nat)
  | conn (k bit : Nat)
  | latch (room latch : Nat)
  | timer (n event : Nat)
  | channel (ch : Nat)
  | counter (m : Nat)
  deriving DecidableEq, Repr

/-- Input port record (Table 4.9). -/
structure PortImg where
  port   : Nat
  demand : Bool
  ride   : Nat
  source : Source
  deriving DecidableEq, Repr

/-- Output latch record (Table 4.10). -/
structure LatchImg where
  latch  : Nat
  demand : Bool
  site   : Nat
  deriving DecidableEq, Repr

/-- Long delay record (Table 4.10). -/
structure LdImg where
  unit  : Nat
  offDelay : Bool
  time  : Nat
  input : Selector
  deriving DecidableEq, Repr

/-- Room section (Table 4.6). -/
structure RoomImg where
  iroom   : Nat
  mirrored : Bool
  mroom   : Nat
  hold    : Nat
  depth   : Nat
  sites   : List SiteImg
  ports   : List PortImg
  latches : List LatchImg
  lds     : List LdImg
  deriving DecidableEq, Repr

/-- Binding record (Table 15.10). -/
structure BindImg where
  input  : Nat
  source : Source
  deriving DecidableEq, Repr

/-- Parameter entry (R310). -/
structure ParamImg where
  code  : Nat
  index : Nat
  value : Int
  deriving DecidableEq, Repr

/-- Instance record (Table 15.8). -/
structure InstImg where
  num       : Nat
  type      : Nat
  auto      : Bool
  hostreset : Bool
  /-- the word laid out as ENG_INST -/
  word      : Word
  home      : Nat
  rank      : Nat
  ride      : Nat
  binds     : List BindImg
  pars      : List ParamImg
  deriving DecidableEq, Repr

/-- Sea-function record (Table 15.9). -/
structure SFuncImg where
  num   : Nat
  prio  : Nat
  rank  : Nat
  rooms : List Nat
  deriving DecidableEq, Repr

/-- Source block of an axis (Table 8.8). -/
structure SrcBlk where
  kind   : Nat
  index  : Nat
  dirinv : Bool
  num    : Int
  den    : Nat
  offset : Int
  deriving DecidableEq, Repr

/-- Axis record (Table 8.7). -/
structure AxisImg where
  axis    : Nat
  single  : Bool
  modular : Bool
  axdisc  : Nat
  modulus : Nat
  ptol    : Nat
  vabs    : Nat
  vrel    : Nat
  filt    : Nat
  sgrace  : Nat
  src1    : SrcBlk
  src2    : SrcBlk
  deriving DecidableEq, Repr

/-- One trigger of the TRIGGER section: ENG_TRIG, THR and the sense of R210. -/
structure TrigImg where
  word  : Word
  thr   : Word
  sense : Nat
  deriving DecidableEq, Repr

/-- One local channel of a converter: CNV_CHCFG, CNV_BAND, CNV_CHPAR. -/
structure ChImg where
  cfg  : Word
  band : Word
  par  : Word
  deriving DecidableEq, Repr

/-- CONVERTER section: CNV_CFG, the 32 words of CNV_LIST and the local channels. -/
structure ConvImg where
  conv  : Nat
  cfg   : Word
  list  : List Word
  chans : List ChImg
  deriving DecidableEq, Repr

/-- One timer of the TIMER section. -/
structure TimerImg where
  cfg    : Word
  src    : Word
  period : Word
  cmp0   : Word
  cmp1   : Word
  deriving DecidableEq, Repr

/-- Map record of the FABRIC section (Table 17.7). -/
structure MapImg where
  uid  : Long
  node : Nat
  deriving DecidableEq, Repr

/-- Produced record: the sources of its payload bits in order. -/
structure ProdImg where
  conn      : Nat
  dual      : Bool
  control   : Bool
  period    : Nat
  plen      : Nat
  layout    : Nat
  consumers : List Long
  sources   : List Source
  deriving DecidableEq, Repr

/-- Consumed record. -/
structure ConsImg where
  uid      : Long
  conn     : Nat
  dual     : Bool
  control  : Bool
  taintfs  : Bool
  period   : Nat
  plen     : Nat
  n        : Nat
  layout   : Nat
  failsafe : List Byte
  deriving DecidableEq, Repr

/-- FABRIC section (R375). -/
structure FabricImg where
  fabric   : Nat
  role     : Nat
  master   : Nat
  standby  : Nat
  ports    : List Nat
  maps     : List MapImg
  produced : List ProdImg
  consumed : List ConsImg
  deriving DecidableEq, Repr

/-- PORCH section (Table 16.1). -/
structure PorchImg where
  prp    : Bool
  h1     : List Byte
  h2     : List Byte
  secret : List Byte
  deriving DecidableEq, Repr

/-- A parsed image. -/
structure Image where
  hdr      : ImgHeader
  frameCfg : Word
  gthr     : Word
  silence  : Word
  engCmp   : Word
  icfg     : List Word
  src      : Long
  pole     : Long
  sonly    : Long
  ocfg     : List Word
  osrca    : List Word
  osrcb    : List Word
  ccfg     : List Word
  convs    : List ConvImg
  timers   : List TimerImg
  rooms    : List RoomImg
  insts    : List InstImg
  sfuncs   : List SFuncImg
  axes     : List AxisImg
  trigs    : List TrigImg
  fabric   : Option FabricImg
  porch    : Option PorchImg
  deriving DecidableEq, Repr

end Sys2Proof.Machine
end

