-- ==== Sys2Proof/Machine/LibTypes.lean ====
section
/-! DEFINITION. State of a function instance of the safety function library and of the motion types
(chapters 6 and 8), and the snapshot that a window computes on (R110). -/

namespace Sys2Proof.Machine

/-- One function input in a snapshot, after the sag ride-through of R146. -/
structure InVal where
  v     : Bool
  valid : Bool
  deriving DecidableEq, Repr

/-- A converter channel in a snapshot: its newest result entry (R164, R192). -/
structure ChanVal where
  counts : Int
  openW  : Bool
  /-- stale, CALBAD or without any result (R182, R185) -/
  bad    : Bool
  /-- the measured signal lies inside the range window of R164 -/
  inRange : Bool
  /-- tick of the sample instant -/
  tick   : Nat
  deriving DecidableEq, Repr

/-- One axis source in a snapshot (R192, R195). -/
structure SrcVal where
  /-- Table 8.1 kind, 0 for none -/
  kind    : Nat
  /-- raw position: increments of 1/1,024 period, counts of a counter, or counts of a channel -/
  raw     : Int
  /-- tick of the sample instant -/
  tick    : Nat
  /-- a counter's two values, from FS-A and FS-B (R78) -/
  va      : Word
  vb      : Word
  /-- wraps of the counter that its owner has been notified of (R76) -/
  wraps   : Nat
  /-- PROX: the period in ticks, or 0 while STOPPED -/
  period  : Nat
  /-- a condition of Table 8.2 is shown -/
  bad     : Bool
  /-- the condition loses the reference -/
  lostRef : Bool
  /-- number of restarts of the field side since start-up (R197, R212) -/
  epoch   : Nat
  deriving DecidableEq, Repr

def SrcVal.none : SrcVal :=
  { kind := 0, raw := 0, tick := 0, va := 0, vb := 0, wraps := 0, period := 0, bad := false, lostRef := false, epoch := 0 }

/-- The snapshot of one window (R109, R110). -/
structure Snap where
  tick    : Nat
  /-- bound function inputs by number -/
  ins     : List (Nat × InVal)
  chans   : List ChanVal
  src1    : SrcVal
  src2    : SrcVal
  /-- a field output driven by the primary output is FAULTED (R152) -/
  outFault : Bool
  /-- the two release paths are usable (R166) -/
  pathA   : Bool
  pathB   : Bool
  /-- a FUNCTION_RESET request is in the snapshot (R148) -/
  reset   : Bool
  /-- operating seconds, where the type reads them (R208) -/
  opsec   : Nat
  deriving DecidableEq, Repr

/-- State of a pair (Table 6.3). -/
inductive PairPhase where
  | active
  | opening
  | opened
  | closing
  | discrepant
  deriving DecidableEq, Repr, Inhabited

structure PairSt where
  phase : PairPhase
  stamp : Nat
  /-- a channel was INVALID at the previous window (R146) -/
  inval : Bool
  deriving DecidableEq, Repr, Inhabited

/-- The pair starts in OPEN (R145). -/
def PairSt.start : PairSt := { phase := .opened, stamp := 0, inval := false }

/-- One source of an axis as an instance holds it (R189). -/
structure SrcSt where
  /-- past raw positions, carried over counter wraps, with their sample ticks, newest first (R192) -/
  hist   : List (Int × Nat)
  /-- the raw reading of the newest snapshot -/
  last   : Int
  /-- the offset in force (R197) -/
  offset : Rat
  /-- a relative source that has its reference -/
  refd   : Bool
  /-- snapshots in a row without a condition of Table 8.2; sound again at 8 (R195) -/
  good   : Nat
  failed : Bool
  epoch  : Nat
  deriving DecidableEq, Repr, Inhabited

def SrcSt.start : SrcSt :=
  { hist := [], last := 0, offset := 0, refd := false, good := 8, failed := false, epoch := 0 }

/-- The direction lock of SLP (R207). -/
inductive Lock where
  | none
  | hi
  | lo
  deriving DecidableEq, Repr, Inhabited

/-- State that a type adds to the common state. -/
inductive TypeSt where
  | plain
  /-- GUARD_LOCK: SOLENOID is driven to unlock; the door has been open in UNLOCKED; stamp of LOCKING -/
  | guardLock (unlock doorOpened : Bool) (lockAt : Nat)
  /-- MUTING: previous sensor readings, stamps of their rises, start of MUTED, override start,
  override spent until OVERRIDE falls -/
  | muting (prev : List Bool) (rise : List Nat) (mutedAt : Nat) (ovr : Option Nat) (spent : Bool)
  /-- ENABLE3, TWOHAND: the return has passed OPEN; stamps at which the pairs became ACTIVE -/
  | operator (armed : Bool) (act1 act2 : Option Nat)
  /-- MODESEL: stamp since which not exactly one POS input is 1 -/
  | modesel (badSince : Option Nat)
  /-- EDM, BRAKE: the drive, the stamp of its last change, its feedback check done, the previous
  feedback readings -/
  | drive (on : Bool) (at_ : Option Nat) (checked : Bool) (prev : List Bool)
  /-- DELAY: stamp of the running time, previous IN, an IN at 1 must fall first -/
  | delay (since : Option Nat) (prev : Bool) (blocked : Bool)
  /-- ALIMIT: stamps since which CH1 and CH2 are out of range, and since which they spread -/
  | alimit (out1 out2 spread : Option Nat)
  /-- RELEASE: stamp of the commit that entered RELEASING; the stations were ACTIVE before -/
  | release (since : Nat) (was1 was2 : Bool)
  deriving DecidableEq, Repr, Inhabited

/-- State of a motion instance (R189 to R208). -/
structure MotionSt where
  s1        : SrcSt
  s2        : SrcSt
  /-- since which the sources do not agree (R194) -/
  spread    : Option Nat
  /-- first failure of a source (R196) -/
  srcFail   : Option Nat
  /-- since which the axis is at standstill (R199) -/
  still     : Option Nat
  /-- a DEMAND entered on a violation of a monitored limit is not ended yet (R199) -/
  viol      : Bool
  /-- previous reading of the request input of the type -/
  prevReq   : Bool
  /-- since which ACTIVE is 1 (R204) -/
  actAt     : Nat
  /-- start of STOPPING, and the speed there (R201) -/
  t0        : Nat
  v0        : Rat
  /-- SOURCE has placed the instance in FAULT (R196) -/
  srcHeld   : Bool
  /-- captured positions p_h of the two sources (R203, R208); none for a source that was failed -/
  hold1     : Option Rat
  hold2     : Option Rat
  /-- p_e of each source (R205) -/
  edge1     : Option Rat
  edge2     : Option Rat
  lock      : Lock
  /-- p_e of the direction lock (R207), and whether it was taken with the axis referenced -/
  lockEdge  : Rat
  lockRef   : Bool
  /-- SSM: SLOW -/
  slow      : Bool
  /-- SBT: stamp of the test start, of the acknowledgement, and the state to return to -/
  testAt    : Nat
  ackAt     : Option Nat
  back      : Nat
  /-- SBT: previous reading of TORQUE_ACK -/
  prevAck   : Bool
  /-- SBT: largest deviation in this test -/
  dev       : Rat
  /-- SBT: operating seconds of the last pass -/
  lastPass  : Option Nat
  /-- SBT: operating seconds at which the instance started -/
  startSec  : Nat
  /-- the commit publishes the trip masks (R211, Table 8.5) -/
  arm       : Bool
  deriving DecidableEq, Repr, Inhabited

def MotionSt.start : MotionSt :=
  { s1 := .start, s2 := .start, spread := none, srcFail := none, still := none, viol := false,
    prevReq := true, actAt := 0, t0 := 0, v0 := 0, srcHeld := false, hold1 := none, hold2 := none,
    edge1 := none, edge2 := none, lock := .none, lockEdge := 0, lockRef := false, prevAck := true,
    slow := false, testAt := 0, ackAt := none, back := 0, dev := 0,
    lastPass := none, startSec := 0, arm := false }

/-- What a committed window calls for beside its state (records and flag clears). -/
inductive Note where
  /-- BRAKE_TEST record: failure, deviation -/
  | brakeTest (failed : Bool) (dev : Nat)
  /-- IGNORED record: function input -/
  | ignored (input : Nat)
  deriving DecidableEq, Repr, Inhabited

/-- The function state of an instance (R142 to R151). -/
structure FnSt where
  /-- logic state: 0 RUN, 1 DEMAND, 2 WAIT_RESET, 3 FAULT, type states from 4 (Table 6.2) -/
  logic   : Nat
  /-- windows evaluated since the start, up to 2 (R143) -/
  windows : Nat
  /-- diagnostics that are set, rising codes (R151) -/
  diags   : List Nat
  pairs   : List PairSt
  /-- RESET reading of the previous window, and the stamp of its rise (R147) -/
  rstPrev : Bool
  rstRise : Option Nat
  /-- function outputs 0 to 15 -/
  outs    : BitVec 16
  ty      : TypeSt
  motion  : Option MotionSt
  /-- the last evaluated window took a reset (R148) -/
  took    : Bool
  /-- the last evaluated window reached RUN from a SAFE logic state (R142) -/
  released : Bool
  /-- what the last evaluated window calls for -/
  notes   : List Note
  deriving DecidableEq, Repr, Inhabited

end Sys2Proof.Machine

/-- The function state that staged writes spell where pass A went wrong (R111): by the writes and by what
the rules give. -/
opaque Sys2Proof.Config.spelled :
  List (Sys2Proof.Word × Sys2Proof.Word) → Sys2Proof.Machine.FnSt → Sys2Proof.Machine.FnSt
end

