-- ==== Sys2Proof/Machine/Library.lean ====
section
/-! DEFINITION. The safety function library: what one committed window computes (chapter 6,
R140 to R168). Every function here maps an instance record, a snapshot and a function state to the
next function state. -/

namespace Sys2Proof.Machine

/-- Ticks of 5 ns in a millisecond, a microsecond and a second. -/
def ticksMs (n : Nat) : Nat := n * 200000
def ticksUs (n : Nat) : Nat := n * 200
def ticksS (n : Nat) : Nat := n * 200000000

/-- Window period in ticks by its code (ENG_INST.WINDOW). -/
def windowTicks (code : Nat) : Nat := ticksUs (250 * 2 ^ code)

/-- Fields of the word laid out as ENG_INST. -/
def InstImg.window (i : InstImg) : Nat := bf i.word 27 25
def InstImg.prio (i : InstImg) : Nat := bf i.word 24 23
def InstImg.holdw (i : InstImg) : Bool := bitOf i.word 22
def InstImg.cost (i : InstImg) : Nat := bf i.word 21 0
def InstImg.ticks (i : InstImg) : Nat := windowTicks i.window

/-- The value of a parameter, or its default (R310). -/
def InstImg.par (i : InstImg) (code index : Nat) (d : Int) : Int :=
  match i.pars.find? (fun p => p.code == code && p.index == index) with
  | some p => p.value
  | none => d

def InstImg.parN (i : InstImg) (code index : Nat) (d : Nat) : Nat := (i.par code index d).toNat

/-- The source bound to a function input (R309). -/
def InstImg.bound (i : InstImg) (n : Nat) : Option Source :=
  (i.binds.find? (fun b => b.input == n)).map BindImg.source

/-- Pairs of each type, as the number of each pair's channel 1 (Table 6.1, R309). -/
def pairsOf : Nat → List Nat
  | 0x01 | 0x02 | 0x04 | 0x05 | 0x06 => [0]
  | 0x03 | 0x07 | 0x0E => [0, 2]
  | 0x0B => [1]
  | _ => []

/-- The RESET input of each type, if it has one (Tables 6.1 and 8.3). -/
def resetOf : Nat → Option Nat
  | 0x01 | 0x02 | 0x04 | 0x0D => some 2
  | 0x03 => some 6
  | 0x05 | 0x08 | 0x09 => some 8
  | 0x0A => some 5
  | 0x0B => some 3
  | 0x0E => some 4
  | 0x21 | 0x22 | 0x23 | 0x24 | 0x25 | 0x26 => some 1
  | _ => none

/-- Types whose RESTART column reads None (Tables 6.1 and 8.3). -/
def restartNone : Nat → Bool
  | 0x06 | 0x07 | 0x08 | 0x0C | 0x20 => true
  | _ => false

/-- Output number of RESET_REQ of each type (Tables 6.1 and 8.3). -/
def resetReqOf : Nat → Option Nat
  | 0x01 | 0x02 | 0x04 | 0x09 | 0x26 => some 1
  | 0x05 | 0x23 | 0x24 => some 2
  | 0x03 | 0x21 | 0x22 => some 3
  | 0x25 => some 4
  | _ => none

/-! ### Reading the snapshot -/

/-- The reading of a function input; `d` where it is INVALID or unbound (each type gives it). -/
def Snap.read (x : Snap) (n : Nat) (d : Bool) : Bool :=
  match x.ins.find? (fun e => e.1 == n) with
  | some e => if e.2.valid then e.2.v else d
  | none => d

def Snap.val (x : Snap) (n : Nat) : InVal :=
  match x.ins.find? (fun e => e.1 == n) with
  | some e => e.2
  | none => { v := false, valid := false }

/-- A time measured from a stamp has elapsed (R144). -/
def elapsed (now since dur : Nat) : Bool := decide (since + dur ≤ now)

/-! ### Two-channel inputs (R145, R146) -/

/-- Whether a channel is active: valid and at its active level. -/
def chActive (c : InVal) (level : Bool) : Bool := c.valid && (c.v == level)

/-- One evaluation of a pair: Table 6.3 with the changes of R146. -/
def pairStep (c1 c2 : InVal) (anti level : Bool) (disc now : Nat) (p : PairSt) : PairSt :=
  let a1 := chActive c1 level
  let a2 := chActive c2 (level ^^ anti)
  let one := a1 || a2
  if !(c1.valid && c2.valid) then
    match p.phase with
    | .active => { phase := .opening, stamp := now, inval := true }
    | .opened => if one then { phase := .closing, stamp := now, inval := true }
                 else { p with inval := true }
    | _ => { p with inval := true }
  else
    let st := if p.inval then now else p.stamp
    let dueNow := elapsed now st disc
    match p.phase with
    | .active =>
      if a1 && a2 then { phase := .active, stamp := p.stamp, inval := false }
      else { phase := .opening, stamp := now, inval := false }
    | .opening =>
      if !one then { phase := .opened, stamp := st, inval := false }
      else if dueNow then { phase := .discrepant, stamp := st, inval := false }
      else { phase := .opening, stamp := st, inval := false }
    | .opened =>
      if a1 && a2 then { phase := .active, stamp := now, inval := false }
      else if one then { phase := .closing, stamp := now, inval := false }
      else { phase := .opened, stamp := p.stamp, inval := false }
    | .closing =>
      if a1 && a2 then { phase := .active, stamp := now, inval := false }
      else if !one then { phase := .opened, stamp := st, inval := false }
      else if dueNow then { phase := .discrepant, stamp := st, inval := false }
      else { phase := .closing, stamp := st, inval := false }
    | .discrepant =>
      if !one then { phase := .opened, stamp := st, inval := false }
      else { phase := .discrepant, stamp := st, inval := false }

/-- The mode and active level that a type fixes or a parameter gives (R310). -/
def pairAnti (i : InstImg) (k : Nat) : Bool :=
  if i.type = 0x07 then true
  else if i.type = 0x04 ∨ i.type = 0x05 then false
  else i.par 0x10 k 0 == 1

def pairLevel (i : InstImg) (k : Nat) : Bool := i.par 0x11 k 1 == 1

/-- Evaluates every pair of an instance. -/
def pairsStep (i : InstImg) (x : Snap) (ps : List PairSt) : List PairSt :=
  ((pairsOf i.type).zipIdx).map fun (ch, k) =>
    pairStep (x.val ch) (x.val (ch + 1)) (pairAnti i k) (pairLevel i k)
      (ticksMs (i.parN 0x12 k 0)) x.tick (nth ps k .start)

def pairActive (ps : List PairSt) (k : Nat) : Bool := (nth ps k .start).phase == .active
def pairOpen (ps : List PairSt) (k : Nat) : Bool := (nth ps k .start).phase == .opened
def pairDisc (ps : List PairSt) (k : Nat) : Bool := (nth ps k .start).phase == .discrepant

/-! ### Diagnostics (R151) -/

/-- Codes that place an instance in FAULT (R151, R209). -/
def faulting (c : Nat) : Bool := !([10, 11, 12, 13, 15, 17].contains c)

def insDiag (c : Nat) : List Nat → List Nat
  | [] => [c]
  | d :: ds => if c < d then c :: d :: ds else if c = d then d :: ds else d :: insDiag c ds

/-- A diagnostic stays set until its clearing condition holds; its set condition wins. -/
def diagUpd (c : Nat) (set clear : Bool) (ds : List Nat) : List Nat :=
  if set then insDiag c ds else if clear then ds.filter (· != c) else ds

def anyFaulting (ds : List Nat) : Bool := ds.any faulting

/-! ### Reset events (R147) -/

structure ResetEv where
  prev  : Bool
  rise  : Option Nat
  event : Bool
  stuck : Bool
  deriving DecidableEq, Repr

/-- Follows the RESET input: a rise, then a fall 50 ms to RESET_MAX later, is an event. -/
def resetStep (i : InstImg) (x : Snap) (st : FnSt) : ResetEv :=
  match resetOf i.type with
  | none => { prev := true, rise := none, event := false, stuck := false }
  | some n =>
    let r := x.read n false
    let mx := ticksMs (i.parN 0x13 0 3000)
    match st.rstRise with
    | none => { prev := r, rise := if r && !st.rstPrev then some x.tick else none,
                event := false, stuck := false }
    | some t0 =>
      let dt := x.tick - t0
      if r then
        if mx < dt then { prev := r, rise := none, event := false, stuck := true }
        else { prev := r, rise := some t0, event := false, stuck := false }
      else { prev := r, rise := none,
             event := decide (ticksMs 50 ≤ dt) && decide (dt ≤ mx), stuck := false }

/-! ### Common restart rule (R143, R149, R150) -/

/-- The next logic state of a type that follows Table 6.2: `fault` places it in FAULT, `held` says
that a diagnostic still holds it there. -/
def restart (i : InstImg) (logic : Nat) (demand fault held reset second : Bool) : Nat :=
  if fault then 3
  else match logic with
    | 3 => if reset && !demand && !held then 0 else 3
    | 2 => if demand then 1 else if reset then 0 else 2
    | 1 => if demand || !second then 1 else if i.auto then 0 else 2
    | _ => if demand then 1 else 0

/-- A state in which a reset was taken: it was in WAIT_RESET or FAULT and went to RUN. -/
def tookReset (before after : Nat) : Bool := (before == 2 || before == 3) && after == 0

def outsOf (bs : List (Nat × Bool)) : BitVec 16 :=
  bs.foldl (fun acc b => if b.2 then acc ||| BitVec.ofNat 16 (1 <<< b.1) else acc) 0#16

/-- RESET_REQ (R150). -/
def resetReq (logic : Nat) (ds : List Nat) : Bool :=
  logic == 2 || (logic == 3 && !anyFaulting ds)

/-! ### What every type has in common -/

/-- Everything a type's own rule needs. -/
structure FnIn where
  i      : InstImg
  x      : Snap
  st     : FnSt
  /-- pairs after this evaluation -/
  ps     : List PairSt
  /-- a reset event or a FUNCTION_RESET is in this window (R149) -/
  reset  : Bool
  /-- this is at least the second window (R143) -/
  second : Bool
  /-- diagnostics after OUTPUT, RESET_STUCK and INVALID_IN -/
  ds     : List Nat
  deriving DecidableEq, Repr

/-- What a type's rule gives. -/
structure FnOut where
  logic : Nat
  ds    : List Nat
  outs  : BitVec 16
  ty    : TypeSt
  took  : Bool
  deriving DecidableEq, Repr

/-- DISCREPANCY follows the pairs' DISCREPANT state (Table 6.4). -/
def discDiag (ps : List PairSt) (ds : List Nat) : List Nat :=
  let d := ps.any (fun p => p.phase == .discrepant)
  diagUpd 1 d (!d) ds

/-- A type with no reset: FAULT is left for DEMAND once every diagnostic has cleared (R151). -/
def faultOnly (logic : Nat) (ds : List Nat) : Bool × Nat :=
  if anyFaulting ds then (true, 3)
  else if logic = 3 then (true, 1) else (false, logic)

/-! ### Stop, guard and curtain types (R153 to R156) -/

/-- ESTOP, GUARD and CURTAIN (R153, R154, R155). -/
def stepStop (a : FnIn) : FnOut :=
  let ds := discDiag a.ps a.ds
  let l := restart a.i a.st.logic (!pairActive a.ps 0) (anyFaulting ds) false a.reset a.second
  { logic := l, ds := ds, ty := .plain, took := tookReset a.st.logic l,
    outs := outsOf [(0, l == 0), (1, resetReq l ds)] }

/-- GUARD_LOCK (R154). UNLOCK_REQ and UNLOCK_PERMIT act in DEMAND from the first window on: UNLOCKING is no
restart (DESIGN CHOICE, log 87). -/
def stepGuardLock (a : FnIn) : FnOut :=
  let (drive, opened, lockAt) := match a.st.ty with
    | .guardLock u o t => (u, o, t)
    | _ => (false, false, 0)
  let door := pairActive a.ps 0
  let lock := pairActive a.ps 1
  let wasLock := pairActive a.st.pairs 1
  let unlockReq := a.x.read 4 false && a.x.read 5 false
  let permit := a.x.read 5 false
  let l0 := a.st.logic
  let timeout := l0 == 6 && !lock && elapsed a.x.tick lockAt (ticksMs (a.i.parN 0x21 0 0))
  let lost := (l0 == 0 || l0 == 6) && wasLock && !lock
  let ds := diagUpd 4 (timeout || lost) (pairOpen a.ps 1 && !door) (discDiag a.ps a.ds)
  let fault := anyFaulting ds
  let demand := !(door && lock)
  let l :=
    if fault then 3
    else match l0 with
      | 4 => if door && !permit then 6 else if pairOpen a.ps 1 then 5 else 4
      | 5 => if door && (opened || !permit) then 6 else 5
      | 6 => if lock then (if demand then 1 else if a.i.auto then 0 else 2) else 6
      | 3 => restart a.i 3 demand false false a.reset a.second
      | n => if unlockReq then 4 else restart a.i n demand false false a.reset a.second
  let drive' :=
    if l == 3 then (if unlockReq then true else if door then false else drive)
    else l == 4 || l == 5
  { logic := l, ds := ds, took := tookReset l0 l,
    ty := .guardLock drive' (l == 5 && ((l0 == 5 && opened) || !door))
      (if l == 6 && l0 != 6 then a.x.tick else lockAt),
    outs := outsOf [(0, l == 0), (1, if a.i.par 0x20 0 0 == 0 then drive' else !drive'),
      (2, l == 5), (3, resetReq l ds)] }

/-- MUTING (R156). The sensors are A1, A2, B1, B2 on inputs 2 to 5. While MUTED the OSSD pair is not judged:
DISCREPANCY is dropped, and set again when muting ends with the pair still DISCREPANT (DESIGN CHOICE, log
87). An override stands in DEMAND, or in FAULT with MUTE_TIMEOUT; a fault of another kind ends one in DEMAND
(R152). -/
def stepMuting (a : FnIn) : FnOut :=
  let (prev, rise, mutedAt, ovr, spent) := match a.st.ty with
    | .muting p r m o s => (p, r, m, o, s)
    | _ => ([false, false, false, false], [0, 0, 0, 0], 0, none, false)
  let par0 := a.i.par 0x30 0 0 == 0
  let bidir := a.i.par 0x33 0 0 == 1
  let simul := ticksMs (a.i.parN 0x31 0 0)
  let sens := (List.range 4).map (fun k =>
    if par0 && 2 ≤ k then false else a.x.read (2 + k) false)
  let s := fun k => nth sens k false
  let isRise := fun k => s k && !nth prev k false
  let rise' := (List.range 4).map (fun k => if isRise k then a.x.tick else nth rise k 0)
  let r := fun k => nth rise' k 0
  let permit := a.x.read 6 false
  let override := a.x.read 7 false
  let ossd := pairActive a.ps 0
  let noSensor := !(s 0 || s 1 || s 2 || s 3)
  let l0 := a.st.logic
  -- the second sensor of a start arrives in this window
  let pairDone := fun f g => s f && s g && (isRise f || isRise g)
  let within := fun f g => decide (r f ≤ r g) && decide (r g ≤ r f + simul)
  let startPar := par0 && pairDone 0 1 && (within 0 1 || within 1 0)
  let startSeq := !par0 &&
    ((pairDone 0 1 && decide (r 0 < r 1) && within 0 1) ||
     (bidir && pairDone 3 2 && decide (r 3 < r 2) && within 3 2))
  let badPar := par0 && pairDone 0 1 && !(within 0 1 || within 1 0)
  let badSeq := !par0 && !startSeq &&
    (pairDone 0 1 || (isRise 1 && !s 0) ||
     (bidir && (pairDone 3 2 || (isRise 2 && !s 3))) || (!bidir && (isRise 2 || isRise 3)))
  let armed := l0 == 0
  let seqBad := armed && (badPar || badSeq)
  let starts := armed && ossd && permit && (startPar || startSeq)
  let complete := if par0 then s 0 && s 1 else (s 0 && s 1) || (s 2 && s 3)
  let excess := l0 == 4 && decide (mutedAt + ticksS (a.i.parN 0x32 0 0) < a.x.tick)
  let endMute := l0 == 4 && (!complete || !permit || excess)
  let stays := (l0 == 4 && !endMute) || starts
  let ds1 := if stays then a.ds.filter (· != 1) else discDiag a.ps a.ds
  let ds := diagUpd 7 excess (ossd && noSensor) (diagUpd 5 seqBad noSensor ds1)
  -- override (in DEMAND, or in FAULT with MUTE_TIMEOUT)
  let may := (l0 == 1 || (l0 == 3 && a.st.diags.contains 7)) && permit && override && !spent
  let ovrAt := match ovr with
    | some t => t
    | none => a.x.tick
  let fault := anyFaulting ds
  let ovrOn := may && !(l0 == 1 && fault) &&
    decide (a.x.tick < ovrAt + ticksS (a.i.parN 0x34 0 0))
  let ovrEnds := ovr.isSome && !ovrOn
  let exits := ovrEnds && ossd && noSensor
  let l :=
    if ovrOn then l0
    else if exits && !fault then (if a.i.auto then 0 else 2)
    else if fault then 3
    else if stays then 4
    else if l0 == 4 then (if ossd then 0 else 1)
    else restart a.i l0 (!ossd) false false a.reset a.second
  { logic := l, ds := ds, took := !exits && tookReset l0 l,
    ty := .muting sens rise' (if l == 4 && l0 != 4 then a.x.tick else mutedAt)
      (if ovrOn then some ovrAt else none)
      (override && (spent || (may && !ovrOn))),
    outs := outsOf [(0, l == 0 || l == 4 || ovrOn), (1, l == 4), (2, resetReq l ds)] }

/-! ### Operator control types (R157 to R159) -/

/-- ENABLE3 (R157). -/
def stepEnable3 (a : FnIn) : FnOut :=
  let armed := match a.st.ty with
    | .operator b _ _ => b
    | _ => true
  let was := a.st.outs.getLsbD 0
  let panic := if (a.i.bound 2).isSome then a.x.read 2 true else false
  let permit := a.x.read 3 false
  let ds := discDiag a.ps a.ds
  let (f, l0) := faultOnly a.st.logic ds
  let armed1 := (armed || (pairOpen a.ps 0 && !panic)) && !(panic && !was)
  let en := !f && armed1 && pairActive a.ps 0 && permit && !panic && a.second
  { logic := if f then l0 else if en then 0 else 1, ds := ds, took := false,
    ty := .operator (armed1 && !(was && !en)) none none, outs := outsOf [(0, en)] }

/-- TWOHAND (R158). SIMULTANEITY is judged where a rise is possible: a pair that is pressed again while the other
stayed ACTIVE since the last fall sets none (DESIGN CHOICE, log 97). -/
def stepTwohand (a : FnIn) : FnOut :=
  let (armed, t1, t2) := match a.st.ty with
    | .operator b x y => (b, x, y)
    | _ => (true, none, none)
  let left := pairActive a.ps 0
  let right := pairActive a.ps 1
  let stampOf := fun (on : Bool) (t : Option Nat) =>
    if on then (match t with | some v => some v | none => some a.x.tick) else none
  let u1 := stampOf left t1
  let u2 := stampOf right t2
  let bothOpen := pairOpen a.ps 0 && pairOpen a.ps 1
  let armed1 := armed || bothOpen
  let simul := ticksMs (a.i.parN 0x31 0 500)
  let apart := match u1, u2 with
    | some p, some q => decide (max p q - min p q ≤ simul)
    | _, _ => false
  let was := a.st.outs.getLsbD 0
  let late := armed1 && !was && left && right && !apart
  let ds := diagUpd 6 late bothOpen (discDiag a.ps a.ds)
  let (f, l0) := faultOnly a.st.logic ds
  let en := !f && left && right && (was || (armed1 && apart)) && a.second
  let armed2 := if f then bothOpen else armed1 && !late && !(was && !en)
  { logic := if f then l0 else if en then 0 else 1, ds := ds, took := false,
    ty := .operator armed2 u1 u2, outs := outsOf [(0, en)] }

/-- MODESEL (R159). -/
def stepModesel (a : FnIn) : FnOut :=
  let bad := match a.st.ty with
    | .modesel b => b
    | _ => none
  let n := a.i.parN 0x40 0 2
  let pos := (List.range 8).map (fun k => decide (k < n) && a.x.read k false)
  let one := (pos.filter id).length == 1
  let bad1 := if one then none else (match bad with | some t => some t | none => some a.x.tick)
  let late := match bad1 with
    | some t => decide (t + ticksMs (a.i.parN 0x41 0 0) < a.x.tick)
    | none => false
  let ds := diagUpd 5 late one a.ds
  let fault := anyFaulting ds
  let l :=
    if fault then 3
    else if a.st.logic = 3 then (if one && a.reset then 0 else 3)
    else if one && a.second then 0 else 1
  let on := l == 0
  { logic := l, ds := ds, took := tookReset a.st.logic l, ty := .modesel bad1,
    outs := outsOf ((0, on) :: (pos.zipIdx.map fun (b, k) => (k + 1, on && b))) }

/-! ### Combining, contactor and brake types (R160 to R163) -/

/-- RESTART (R160). -/
def stepRestart (a : FnIn) : FnOut :=
  let m := a.i.parN 0x42 0 1
  let demand := !((List.range m).all (fun k => a.x.read k false))
  let l := restart a.i a.st.logic demand (anyFaulting a.ds) false a.reset a.second
  { logic := l, ds := a.ds, ty := .plain, took := tookReset a.st.logic l,
    outs := outsOf [(0, l == 0), (1, resetReq l a.ds)] }

/-- EDM (R161). -/
def stepEdm (a : FnIn) : FnOut :=
  let (on, at_, checked, prev) := match a.st.ty with
    | .drive o t c p => (o, t, c, p)
    | _ => (false, none, true, [])
  let f := a.i.parN 0x50 0 1
  let req := a.x.read 0 false
  let fb := (List.range f).map (fun k => a.x.read (1 + k) false)
  let allOn := fb.all id
  let anyOn := fb.any id
  let stamp := at_.getD 0
  let pickLate := on && !checked && elapsed a.x.tick stamp (ticksMs (a.i.parN 0x51 0 0)) && anyOn
  let dropLate := !on && !checked && elapsed a.x.tick stamp (ticksMs (a.i.parN 0x52 0 0)) && !allOn
  let rose := on && (fb.zipIdx.any fun (b, k) => b && !nth prev k true)
  let ds := diagUpd 3 (pickLate || dropLate || rose) allOn a.ds
  let follow := a.i.par 0x53 0 0 == 1
  let l0 := a.st.logic
  let fault := anyFaulting ds
  let l :=
    if fault then 3
    else match l0 with
      | 3 => if a.reset && req && allOn then 0 else 3
      | 1 => if !req || !a.second then 1 else if follow then 0 else 2
      | n => restart a.i n (!req) false false a.reset a.second
  let on' := l == 0 && (on || allOn)
  let done := checked ||
    (if on then !anyOn else allOn) ||
    elapsed a.x.tick stamp (ticksMs (a.i.parN (if on then 0x51 else 0x52) 0 0))
  { logic := l, ds := ds, took := tookReset l0 l,
    ty := if on' == on then .drive on at_ done fb else .drive on' (some a.x.tick) false fb,
    outs := outsOf [(0, on')] }

/-- BRAKE (R162). Its demand condition is RELEASE_REQ at 0, so that a reset is taken only with RELEASE_REQ at 1
(DESIGN CHOICE, log 87). -/
def stepBrake (a : FnIn) : FnOut :=
  let (on, at_, checked) := match a.st.ty with
    | .drive o t c _ => (o, t, c)
    | _ => (false, none, true)
  let hasFb := (a.i.bound 1).isSome
  let req := a.x.read 0 false
  let applied := !hasFb || pairActive a.ps 0
  let reached := if on then pairOpen a.ps 0 else pairActive a.ps 0
  let stamp := at_.getD 0
  let due := elapsed a.x.tick stamp (ticksMs (a.i.parN (if on then 0x58 else 0x59) 0 0))
  let late := hasFb && !checked && !reached && due
  let ds0 := if hasFb then discDiag a.ps a.ds else a.ds
  let ds := diagUpd 3 late (pairActive a.ps 0) ds0
  let l := restart a.i a.st.logic (!req) (anyFaulting ds) false a.reset a.second
  let on' := l == 0 && (on || applied)
  { logic := l, ds := ds, took := tookReset a.st.logic l,
    ty := if on' == on then .drive on at_ (checked || reached || due) []
          else .drive on' (some a.x.tick) false [],
    outs := outsOf [(0, on'), (1, !on' && applied)] }

/-- DELAY (R163). -/
def stepDelay (a : FnIn) : FnOut :=
  let (since, blocked) := match a.st.ty with
    | .delay s _ b => (s, b)
    | _ => (none, false)
  let inp := a.x.read 0 false
  let dur := ticksMs (a.i.parN 0x61 0 0)
  let out := a.st.outs.getLsbD 0
  let fault := anyFaulting a.ds
  if fault then
    { logic := 3, ds := a.ds, took := false, ty := .delay none inp true, outs := 0 }
  else if a.st.logic = 3 then
    { logic := if inp then 3 else 1, ds := a.ds, took := false, ty := .delay none inp inp,
      outs := 0 }
  else if a.i.par 0x60 0 0 == 0 then
    -- ON mode
    let since' := if inp && !blocked then (match since with | some t => some t | none => some a.x.tick)
                  else none
    let up := match since' with
      | some t => elapsed a.x.tick t dur && a.second
      | none => false
    { logic := if up then 0 else 1, ds := a.ds, took := false,
      ty := .delay since' inp (blocked && inp), outs := outsOf [(0, up)] }
  else
    -- OFF mode
    match since with
    | some t =>
      if elapsed a.x.tick t dur then
        { logic := 1, ds := a.ds, took := false, ty := .delay none inp false, outs := 0 }
      else if inp && a.i.par 0x62 0 0 == 1 then
        { logic := 0, ds := a.ds, took := false, ty := .delay none inp false,
          outs := outsOf [(0, true)] }
      else
        { logic := 4, ds := a.ds, took := false, ty := .delay since inp false,
          outs := outsOf [(0, true)] }
    | none =>
      if out then
        if inp then { logic := 0, ds := a.ds, took := false, ty := .delay none inp false,
                      outs := outsOf [(0, true)] }
        else { logic := 4, ds := a.ds, took := false, ty := .delay (some a.x.tick) inp false,
               outs := outsOf [(0, true)] }
      else
        let up := inp && !blocked && a.second
        { logic := if up then 0 else 1, ds := a.ds, took := false,
          ty := .delay none inp (blocked && inp), outs := outsOf [(0, up)] }

/-! ### Analogue limit (R164) -/

/-- The scaled value of a channel times 65,536, so that every comparison is exact. -/
def scaled (i : InstImg) (ch : Nat) (c : ChanVal) : Int :=
  c.counts * i.par 0x70 ch 0 + i.par 0x71 ch 0

/-- ALIMIT (R164). The HYST band is asked before every restart, the first after start-up too (DESIGN CHOICE,
log 87). With both channels out of range there is no value to judge: a demand at once (DESIGN CHOICE, log 97). -/
def stepAlimit (a : FnIn) : FnOut :=
  let (o1, o2, sp) := match a.st.ty with
    | .alimit x y z => (x, y, z)
    | _ => (none, none, none)
  let dead : ChanVal := { counts := 0, openW := true, bad := true, inRange := false, tick := 0 }
  let c1 := nth a.x.chans 0 dead
  let c2 := nth a.x.chans 1 dead
  let out1 := c1.openW || c1.bad || !c1.inRange
  let out2 := c2.openW || c2.bad || !c2.inRange
  let since := fun (b : Bool) (t : Option Nat) =>
    if b then (match t with | some v => some v | none => some a.x.tick) else none
  let p1 := since out1 o1
  let p2 := since out2 o2
  let long := fun (t : Option Nat) => match t with
    | some v => elapsed a.x.tick v (2 * a.i.ticks)
    | none => false
  let x1 := scaled a.i 1 c1
  let x2 := scaled a.i 2 c2
  let far := decide (a.i.par 0x72 0 0 * 65536 < (x1 - x2).natAbs)
  let p3 := since far sp
  let spread := match p3 with
    | some v => decide (v + ticksMs (a.i.parN 0x73 0 0) < a.x.tick)
    | none => false
  let range := long p1 || long p2
  let ds := diagUpd 9 spread (!far) (diagUpd 8 range (!range) a.ds)
  let lo := a.i.par 0x74 0 0 * 65536
  let hi := a.i.par 0x75 0 0 * 65536
  let hy := a.i.par 0x76 0 0 * 65536
  let big := if out1 then x2 else if out2 then x1 else max x1 x2
  let small := if out1 then x2 else if out2 then x1 else min x1 x2
  let l0 := a.st.logic
  let inside := if l0 == 0 then decide (big ≤ hi) && decide (lo ≤ small)
                else decide (big ≤ hi - hy) && decide (lo + hy ≤ small)
  let demand := (out1 && out2) || !inside
  let l := restart a.i l0 demand (anyFaulting ds) false a.reset a.second
  { logic := l, ds := ds, took := tookReset l0 l, ty := .alimit p1 p2 p3,
    outs := outsOf [(0, l == 0), (1, !(ds.contains 8 || ds.contains 9))] }

/-! ### Release on demand (R165 to R167) -/

/-- RELEASE (R165, R166). -/
def stepRelease (a : FnIn) : FnOut :=
  let (since, w1, w2) := match a.st.ty with
    | .release s x y => (s, x, y)
    | _ => (0, false, false)
  let has2 := (a.i.bound 2).isSome
  let usable := fun k => !pairDisc a.ps k && (a.x.val (2 * k)).valid && (a.x.val (2 * k + 1)).valid
  let on1 := pairActive a.ps 0
  let on2 := has2 && pairActive a.ps 1
  let u1 := usable 0
  let u2 := has2 && usable 1
  let request := a.second && ((on1 && !w1 && u1) || (on2 && !w2 && u2))
  let l0 := a.st.logic
  let rt := ticksS (a.i.parN 0x78 0 0)
  let took := l0 == 4 && rt == 0 && a.reset && !on1 && !on2
  let l :=
    if l0 == 4 then
      (if took then 0 else if rt != 0 && elapsed a.x.tick since rt then 0 else 4)
    else if request then 4 else 0
  let path := !(a.x.pathA && a.x.pathB) || !u1 || (has2 && !u2)
  let ds := diagUpd 10 path (!path) (a.ds.filter (· != 2))
  { logic := l, ds := ds, took := took,
    ty := .release (if l == 4 && l0 != 4 then a.x.tick else since)
      (on1 && a.second) (on2 && a.second),
    outs := outsOf [(0, l == 4), (1, l == 4),
      (2, l == 0 && (u1 || u2) && (a.x.pathA || a.x.pathB))] }

/-! ### One window of a library instance -/

/-- The state in which an instance starts (R143, R165). -/
def FnSt.start (i : InstImg) : FnSt :=
  { logic := if i.type = 0x0E then 0 else 1, windows := 0, diags := [],
    pairs := (pairsOf i.type).map (fun _ => PairSt.start), rstPrev := true, rstRise := none,
    outs := 0, ty := .plain,
    motion := if 0x20 ≤ i.type then some .start else none, took := false, released := false,
    notes := [] }

/-- SAFE logic states (R142). -/
def safeLogic (l : Nat) : Bool := l == 1 || l == 2 || l == 3

/-- What a snapshot and a state give to the rules of every type (R145 to R148, R151, R152). -/
def fnIn (i : InstImg) (x : Snap) (st : FnSt) : FnIn × ResetEv :=
  let ev := resetStep i x st
  let badIn := x.ins.any (fun e => !e.2.valid)
  let ds0 := diagUpd 2 (x.outFault && i.type != 0x0E) (!x.outFault) st.diags
  let ds1 := diagUpd 11 ev.stuck (!ev.prev) ds0
  let ds2 := diagUpd 12 badIn (!badIn) ds1
  ({ i := i, x := x, st := st, ps := pairsStep i x st.pairs,
     reset := ev.event || x.reset, second := decide (1 ≤ st.windows), ds := ds2 }, ev)

/-- The rule of each type of Table 6.1. -/
def typeStep (a : FnIn) : FnOut :=
  match a.i.type with
  | 0x01 | 0x02 | 0x04 => stepStop a
  | 0x03 => stepGuardLock a
  | 0x05 => stepMuting a
  | 0x06 => stepEnable3 a
  | 0x07 => stepTwohand a
  | 0x08 => stepModesel a
  | 0x09 => stepRestart a
  | 0x0A => stepEdm a
  | 0x0B => stepBrake a
  | 0x0C => stepDelay a
  | 0x0D => stepAlimit a
  | _ => stepRelease a

/-- The three ways of R142 by which a commit counts as a reset: by a reset taken in WAIT_RESET or FAULT, by an
AUTO restart from DEMAND, and, for a type that takes no reset, by its own rules. -/
def releasing (i : InstImg) (before after : Nat) (took : Bool) : Bool :=
  after == 0 && safeLogic before && (took || (i.auto && before == 1) || restartNone i.type)

/-- The function state after one committed window of a type of Table 6.1. -/
def libStep (i : InstImg) (x : Snap) (st : FnSt) : FnSt :=
  let (a, ev) := fnIn i x st
  let o := typeStep a
  { logic := o.logic, windows := min 2 (st.windows + 1), diags := o.ds, pairs := a.ps,
    rstPrev := ev.prev, rstRise := ev.rise, outs := o.outs, ty := o.ty, motion := st.motion,
    took := o.took, released := releasing i st.logic o.logic o.took, notes := [] }

end Sys2Proof.Machine
end

