-- ==== Sys2Proof/Config.lean ====
section
/-! DEFINITION. What the manual leaves to the individual device or leaves open. Each constant is
opaque: nothing is known of it, and a statement about it holds for every value. -/

namespace Sys2Proof.Config

/-- Raw choice of the two switching points of the comparator of one sequencer on one terminal;
`Machine.offMv` and `Machine.onMv` bring it into the band of R57. -/
opaque comparator : Side → Nat → Nat × Nat

/-- The byte string of a snapshot, over which R109 takes its hash: the manual gives no layout. Indexed
by the native words of the snapshot that `Machine.snapWords` gives. -/
opaque snapshotBytes : List Word → List Byte

/-- The nonce of the n-th challenge (R336). -/
opaque nonce : Nat → BitVec 128

/-- MAC addresses of H1 (0) and H2 (1) (Table 16.6). -/
opaque macAddress : Nat → BitVec 48

/-- The firmware public key in the ROM of the porch processors (R349). -/
opaque firmwareKey : BitVec 256

/-- What the debugger finds at a byte of an engine's memory spaces: engine, space, address, and the
free-value counter (R348). -/
opaque engineByte : Nat → Nat → Nat → Nat → Byte

/-- Whether an angle that lies between two steps of 1/1,024 period is rounded up: the manual states no
rounding (R192). By the magnitudes of the vector's components. -/
opaque angleUp : Nat → Nat → Bool

/-- Speed of a source with position that has fewer than two sample instants yet: the manual states none
(R192). By the raw position and its sample tick. -/
opaque firstSpeed : Int → Nat → Rat

/-- A free 32-bit value by the state's free-value counter. -/
opaque freeWord : Nat → Word

/-- The address, fabric and node, of a UID of another fabric: no table of the device gives it (R372). -/
opaque foreignAddr : BitVec 64 → BitVec 14

/-- Hops of a route beyond the leg that the producer computes: nothing tells it of them (R377). By the consumer's UID
and the route. -/
opaque farHops : BitVec 64 → Bool → Nat

/-- Bytes of the core-register space of an engine as the debugger sees it (R348). -/
opaque coreSpace : Nat

end Sys2Proof.Config
end

