-- ==== Sys2Proof/Machine/CellarTypes.lean ====
section
/-! DEFINITION. Types of the CELLAR domain's state: timers, check-value units, fuse bank, recorder,
supplies, domains, oscillators and start-up (chapters 12, 13, 14, 18, 19). -/

namespace Sys2Proof.Machine

/-! ### Timers (chapter 13) -/

/-- State of a timer (R282). -/
inductive TmrSt where
  | idle
  | armed
  | running
  | done
  deriving DecidableEq, Repr

/-- One timer TM00 to TM63 (R280). -/
structure Timer where
  /-- TMR_CFG (I) -/
  cfg      : Word
  /-- TMR_SRC (I) -/
  src      : Word
  /-- TMR_PERIOD (I) -/
  period   : Word
  /-- TMR_CMP0 (I) -/
  cmp0     : Word
  /-- TMR_CMP1 (I) -/
  cmp1     : Word
  /-- TMR_STAT.STATE (0) -/
  st       : TmrSt
  /-- TMR_CNT (0) -/
  count    : Word
  /-- prescaler phase: ticks counted since the last step (R280) -/
  phase    : Nat
  /-- TMR_STAT.TERR (0) -/
  terr     : Bool
  /-- TMR_STAT.GOMISS (0) -/
  gomiss   : Bool
  /-- TMR_STAT.CAPOVF (0) -/
  capovf   : Bool
  /-- TMR_STAT.CF0 (0) -/
  cf0      : Bool
  /-- TMR_STAT.CF1 (0) -/
  cf1      : Bool
  /-- compare 0 has fired in this run (R284) -/
  fired0   : Bool
  /-- compare 1 has fired in this run (R284) -/
  fired1   : Bool
  /-- capture queue, oldest first, at most four entries (R289) -/
  queue    : List Word
  /-- tick of the newest capture event, so that two on one tick give one entry (R289) -/
  capStamp : Option Nat
  /-- end events notified to the owner, and the tick of the newest one of this run (R283, R289) -/
  ends     : Nat
  endAt    : Option Nat
  /-- the end event of this tick is raised and not yet taken (R283) -/
  endDue   : Bool
  /-- the event of compare 0 is raised and not yet taken (R284) -/
  cmpDue0  : Bool
  /-- the event of compare 1 is raised and not yet taken (R284) -/
  cmpDue1  : Bool
  /-- the period was written at or below the count of the running timer (R283, R287) -/
  late     : Bool
  /-- the start latch of a sea-owned timer rose: armed and released at the next tick (R291) -/
  latched  : Bool
  /-- defined only by the staged image, in shadow (R292) -/
  shadowed : Bool
  deriving DecidableEq, Repr

/-- A timer no image defines: unused, IDLE, count 0. -/
def Timer.unused : Timer :=
  { cfg := 0, src := 0, period := 0, cmp0 := 0, cmp1 := 0, st := .idle, count := 0, phase := 0,
    terr := false, gomiss := false, capovf := false, cf0 := false, cf1 := false, fired0 := false,
    fired1 := false, queue := [], capStamp := none, ends := 0, endAt := none, endDue := false, cmpDue0 := false,
    cmpDue1 := false, late := false, latched := false, shadowed := false }

/-- What one reader (the porch, or an engine) has latched (R279, R288). -/
structure TmrReader where
  /-- TMR_TB_HI: TB [63:32] latched by the reader's last read of TMR_TB_LO (0) -/
  tbHi   : Word
  /-- TMR_SNAPTB: TB at the reader's last snapshot (0) -/
  snapTb : Long
  /-- TMR_SCNT0 to TMR_SCNT63 (0) -/
  scnt   : Tab Word
  deriving DecidableEq, Repr

def TmrReader.fresh : TmrReader := { tbHi := 0, snapTb := 0, scnt := [] }

/-- The timers and their readers. Reader 0 is the porch, reader e + 1 is engine e. -/
structure Tmr where
  timers  : Tab Timer
  readers : Tab TmrReader
  deriving DecidableEq, Repr

/-! ### Check-value units (chapter 14) -/

/-- One check-value unit (R306). -/
structure Cvu where
  /-- CVU_CTL.AUTOINC (0) -/
  autoinc : Bool
  /-- CVU_CTL.MODE: ALIVE (0) -/
  alive   : Bool
  /-- CVU_CTL.POLY (3) -/
  poly    : BitVec 2
  /-- CVU_ALIVE (0) -/
  aliveV  : Half
  /-- the algorithm in force since the last INIT; none before the first INIT (R298) -/
  active  : Option (BitVec 2)
  /-- the running register (0) -/
  reg     : Nat
  /-- CVU_LEN (0) -/
  len     : Word
  /-- CVU_STAT.BAD (0) -/
  bad     : Nat
  /-- CVU_STAT.FAULTS (0) -/
  faults  : Nat
  /-- CVU_STAT.FAILED (0) -/
  failed  : Bool
  /-- CVU_STAT.FAULT (0): the two copies of the running register differed since the last INIT -/
  fault   : Bool
  /-- CVU_STAT.CMPD (0) -/
  cmpd    : Bool
  /-- CVU_STAT.MATCH (0) -/
  match_  : Bool
  /-- operating seconds of the FAULT events, newest first, for the 24 operating hours of R304 -/
  stamps  : List Nat
  /-- checks still to come in which a defect of the unit makes its two copies differ -/
  upset   : Nat
  /-- its failure has still to be charged to its owner (Table 14.4) -/
  due     : Bool
  deriving DecidableEq, Repr

def Cvu.fresh : Cvu :=
  { autoinc := false, alive := false, poly := 3#2, aliveV := 0, active := none, reg := 0, len := 0,
    bad := 0, faults := 0, failed := false, fault := false, cmpd := false, match_ := false,
    stamps := [], upset := 0, due := false }

/-- A unit at the power-up of its domain, or at a start-up: its reset values (R305). -/
def Cvu.cleared (c : Cvu) : Cvu := { Cvu.fresh with stamps := c.stamps, upset := c.upset }

/-- A unit at the restart of its processor, its domain still powered: BAD, FAULTS and FAILED count since start-up
(R306). -/
def Cvu.restarted (c : Cvu) : Cvu :=
  { c.cleared with bad := c.bad, faults := c.faults, failed := c.failed, due := c.due }

/-! ### Fuse bank (chapter 18) -/

/-- The four readings of one row of fuses: copies A and B at normal and at strict margin (R379). -/
structure FuseRow where
  aNorm   : Word
  aStrict : Word
  bNorm   : Word
  bStrict : Word
  deriving DecidableEq, Repr

def FuseRow.blank : FuseRow := { aNorm := 0, aStrict := 0, bNorm := 0, bStrict := 0 }

/-- A blow that the controller has still to make and verify (R385, R386). -/
structure Blow where
  word    : Nat
  bit     : Nat
  /-- on the pending list of R386, and counted in FUS_STAT.PENDING -/
  pending : Bool
  /-- a step of FUSE_ADVANCE (R347) -/
  advance : Bool
  /-- a re-blow of a marginal bit or of a gap (R385), no step of a counter -/
  again   : Bool
  /-- tick at which it arose -/
  arose   : Nat
  deriving DecidableEq, Repr

/-- A blow of a retirement bit (Table 18.1). -/
def Blow.retires (x : Blow) : Bool := decide (102 ≤ x.word ∧ x.word ≤ 104)

/-- A blow joins the list; retirements of one instant stand in the order of the part codes (Table 18.3). -/
def putBlow (x : Blow) : List Blow → List Blow
  | [] => [x]
  | y :: l =>
    if y.retires && x.retires && y.arose == x.arose && decide (32 * x.word + x.bit < 32 * y.word + y.bit)
    then x :: y :: l else y :: putBlow x l

/-- The fuse-bank controller. -/
structure Fus where
  /-- FUS_WORD0 to FUS_WORD127: the shadows (F) -/
  shadow   : Tab Word
  /-- marginal bits of each word; FUS_MARG shows the words with any (F) -/
  marg     : Tab Word
  /-- FUS_STAT.UID_FAIL (F) -/
  uidFail  : Bool
  /-- FUS_STAT.TRIM_FAIL (F) -/
  trimFail : Bool
  /-- FUS_STAT.KEYS_FAIL (F) -/
  keysFail : Bool
  /-- FUS_STAT.PLOST (M) -/
  plost    : Bool
  /-- FUS_STAT.NOSPARE (M) -/
  nospare  : Bool
  /-- FUS_ENV.RAIL in mV (M) -/
  rail     : Nat
  /-- FUS_ENV.TEMP in 0.1 °C (M) -/
  temp     : Int
  /-- a blow is in progress: the head of the list (R385) -/
  blowing  : Bool
  deriving DecidableEq, Repr

/-! ### Recorder (chapter 19) -/

/-- One record (Table 19.1). -/
structure Rec where
  seq     : Nat
  opsec   : Nat
  pcyc    : Nat
  code    : Nat
  sev     : Nat
  flags   : Nat
  tick    : Nat
  payload : List Byte
  crc     : Nat
  deriving DecidableEq, Repr

/-- Why the recorder failed (REC_STAT.CAUSE). -/
inductive RecFail where
  | unit
  | store
  deriving DecidableEq, Repr

/-- The recorder's volatile part. -/
structure Recorder where
  /-- pending records in the CELLAR buffer, oldest first, at most 512 (R396) -/
  buf      : List Rec
  /-- a CLEAR that the buffer holds, or has held, hides the circulating area of the store (R402) -/
  hidden   : Bool
  /-- the sequence number of the next record (R392) -/
  next     : Nat
  /-- REC_STAT.FAILED and CAUSE (0) -/
  failed   : Option RecFail
  /-- REC_STAT.FLUSHING (0) -/
  flushing : Bool
  /-- REC_DROP (0) -/
  drop     : Nat
  /-- records dropped since the last LOST record, and TICK of the first of them (R398) -/
  lost     : Nat
  lostTick : Nat
  /-- REC_CRCERR.VERIFY (0) -/
  verify   : Nat
  /-- REC_CRCERR.READ (0) -/
  readErr  : Nat
  /-- tick at which the last flush ended (R397) -/
  flushed  : Nat
  deriving DecidableEq, Repr

/-! ### Power (chapter 12) -/

/-- States of a logic supply input (Table 12.2). -/
inductive SupplySt where
  | ok
  | under
  | excess
  | reversed
  deriving DecidableEq, Repr

/-- One logic supply input. The run counts are of consecutive measurements meeting a condition of
Table 12.2. -/
structure Supply where
  /-- PWR_SUPA or PWR_SUPB STATE (M) -/
  st       : SupplySt
  /-- PWR_SUPA or PWR_SUPB VOLT, in 10 mV (M) -/
  volt     : Int
  runUnder : Nat
  runOver  : Nat
  runGood  : Nat
  deriving DecidableEq, Repr

/-- Power domains by their codes in PWR_DOMSTAT: 0 CELLAR, 1 PORCH, 2 SEA-A, 3 SEA-B, 4 ENG-A,
5 ENG-B, 6 LINK, 7 FIELD. -/
inductive DomSt where
  | on
  | offCmd
  | offRetired
  | offFault
  | goingDown
  | comingUp
  | notStarted
  deriving DecidableEq, Repr

structure Domain where
  st      : DomSt
  /-- tick at which the present switching began -/
  stamp   : Nat
  /-- operating seconds of the counted faults since start-up (R276) -/
  faults  : List Nat
  /-- tick at which the domain is powered up again after a fault (R276) -/
  retryAt : Option Nat
  /-- left off until the next start-up (R276) -/
  held    : Bool
  deriving DecidableEq, Repr

def Domain.ready : Domain :=
  { st := .on, stamp := 0, faults := [], retryAt := none, held := false }

/-- PWR_OSC codes of a reference. -/
inductive OscSt where
  | selected
  | standby
  | lost
  | off
  deriving DecidableEq, Repr

structure Osc where
  /-- PWR_OSC.OSCA (M) -/
  a        : OscSt
  /-- PWR_OSC.OSCB (M) -/
  b        : OscSt
  /-- PWR_OSC.DIFF, in 10 ppm (M) -/
  diff     : Int
  /-- PWR_OSC.WOSC (M) -/
  woscLost : Bool
  /-- in holdover, with the reference to relock to and the tick it began (R266) -/
  holdover : Option (Side × Nat)
  /-- the timebase has stopped (R267) -/
  stopped  : Bool
  /-- tick since which the lone reference, or WOSC, has differed without a break (R267) -/
  loneSince : Option Nat
  deriving DecidableEq, Repr

structure Pwr where
  supA     : Supply
  supB     : Supply
  /-- PWR_PFAIL.ACTIVE (0) -/
  pfail    : Bool
  /-- PWR_PFAIL.FLUSHED (0) -/
  pflushed : Bool
  /-- PWR_PFAIL.RIDES (0) -/
  rides    : Nat
  /-- the switch-off of R264 has happened -/
  off      : Bool
  /-- the FIELD domain has fallen after the switch-off (R264) -/
  fieldFell : Bool
  /-- the CELLAR domain has fallen after the switch-off (R264) -/
  cellarFell : Bool
  /-- instants, by `State.now`, of the switch-off and of the start of the power-fail sequence -/
  offAt    : Nat
  failAt   : Nat
  /-- the model's own: ticks' time that has passed while the timebase stood still (R264, R267) -/
  still    : Nat
  /-- PWR_HOLDUP.WEAK (M) -/
  weak     : Bool
  /-- PWR_HOLDUP.CHARGED (0) -/
  charged  : Bool
  /-- PWR_HOLDUP.TIME, in 0.1 ms (M) -/
  holdup   : Nat
  /-- operating seconds at the last hold-up measurement (R261) -/
  holdupAt : Nat
  /-- the eight domains by code -/
  doms     : Tab Domain
  /-- PWR_DOMWHY.DOMAIN and WHY (0) -/
  whyDom   : Nat
  why      : Nat
  osc      : Osc
  /-- PWR_START.STEP (M), and the tick at which the step began -/
  step     : Nat
  stepAt   : Nat
  /-- PWR_START.RESULT (M) -/
  result   : Nat
  /-- PWR_START.DURATION in ms (M) -/
  duration : Nat
  /-- PWR_CYCLES (M) -/
  cycles   : Nat
  /-- PWR_OPSEC (M) -/
  opsec    : Nat
  /-- instant, by `State.now`, of the last counted operating second (R262) -/
  opTick   : Nat
  deriving DecidableEq, Repr

end Sys2Proof.Machine
end

