-- ==== Sys2Proof/Machine/FieldTypes.lean ====
section
/-! DEFINITION. Types of the field side and of the isolation links: terminals, inputs, outputs,
group supplies, counters, sequencers, frames, converters (chapters 2, 3, 7 and 9). -/

namespace Sys2Proof.Machine

/-- The configuration that a field configuration bank holds (R53, R233, R324). -/
structure FieldCfg where
  /-- FLD_FRAME_CFG -/
  frameCfg : Word
  /-- FLD_GTHR -/
  gthr     : Word
  /-- FLD_SILENCE -/
  silence  : Word
  /-- FLD_ICFG0 to FLD_ICFG191 -/
  icfg     : List Word
  /-- FLD_SRC -/
  src      : Long
  /-- FLD_POLE -/
  pole     : Long
  /-- FLD_SONLY -/
  sonly    : Long
  /-- FLD_OCFG0 to FLD_OCFG63 -/
  ocfg     : List Word
  /-- FLD_CCFG0 to FLD_CCFG127 -/
  ccfg     : List Word
  /-- converters -/
  convs    : List ConvImg
  /-- triggers of kinds 2 and 3 that the field side detects (R125) -/
  trigs    : List TrigImg
  /-- sin/cos pairs that an axis names, with DIRINV (R191) -/
  pairs    : List (Nat × Bool)
  deriving DecidableEq, Repr

/-- The field side with no image: the manual's defaults for frame, pulse, thresholds and silence
(R41, R72, R227), and nothing else configured. -/
def FieldCfg.none : FieldCfg :=
  { frameCfg := 0xC800, gthr := 0xC0A0, silence := 1000, icfg := [], src := 0, pole := 0, sonly := 0, ocfg := [],
    ccfg := [], convs := [], trigs := [], pairs := [] }

/-- One comparator of one sequencer on one terminal (R57, R59). -/
structure Term where
  /-- output of the comparator -/
  level  : Bool
  /-- tick of its last change -/
  since  : Nat
  /-- level after the glitch filter -/
  filt   : Bool
  /-- instant, at the terminal, of the last change of the filtered level -/
  filtAt : Nat
  deriving DecidableEq, Repr

def Term.low : Term := { level := false, since := 0, filt := false, filtAt := 0 }

/-- One input as one sequencer judges it (R58 to R65, R71). -/
structure SeqIn where
  /-- judged value -/
  judged   : Bool
  /-- tick of its last change -/
  judgedAt : Nat
  /-- debounced value -/
  deb      : Bool
  /-- present cause of INVALID, codes 1 to 5 of Table 3.4 -/
  cause    : Nat
  /-- 4 FOREIGN or 5 MISSING until the pattern is met again (R64) -/
  bad      : Nat
  /-- the present frame broke the pattern (R64) -/
  dirty    : Bool
  /-- frames in a row that met the pattern (R64) -/
  clean    : Nat
  /-- the last judged value is held until the end of the source's next pulse (R47, R53) -/
  hold     : Bool
  /-- cause 2 or 3 kept until the end of the source's first light pulse (R71) -/
  wait     : Nat
  /-- the input read low since the judgement began in this pulse (R63) -/
  winLow   : Bool
  /-- first frame whose dark pulse is judged again (R71) -/
  judgeFrom : Nat
  /-- slot in which the last foreign pulse began (R63) -/
  fslot    : Nat
  deriving DecidableEq, Repr

def SeqIn.start : SeqIn :=
  { judged := false, judgedAt := 0, deb := false, cause := 0, bad := 0, dirty := false, clean := 0,
    hold := false, wait := 0, winLow := false, judgeFrom := 0, fslot := 0 }

/-- Group supply states (Table 3.5), by code. -/
inductive GroupSt where
  | normal
  | low
  | absent
  | reversed
  deriving DecidableEq, Repr

def GroupSt.code : GroupSt → Nat
  | .normal => 0
  | .low => 1
  | .absent => 2
  | .reversed => 3

/-- One group supply as one sequencer measures it (R72). -/
structure SeqGroup where
  st       : GroupSt
  /-- measured voltage in 10 mV -/
  volt     : Int
  /-- the sensor-supply switch is in current limit (R38) -/
  short    : Bool
  /-- tick of the last measurement -/
  lastAt   : Option Nat
  /-- measurements in a row below the LOW threshold, below the ABSENT threshold, below −2.0 V -/
  runLow   : Nat
  runAbs   : Nat
  runRev   : Nat
  /-- since which the voltage has met each leaving condition of Table 3.5 -/
  okLow    : Option Nat
  okAbs    : Option Nat
  okRev    : Option Nat
  deriving DecidableEq, Repr

/-- A group whose supply is present: 24.00 V. -/
def SeqGroup.start : SeqGroup :=
  { st := .normal, volt := 2400, short := false, lastAt := none, runLow := 0, runAbs := 0,
    runRev := 0, okLow := none, okAbs := none, okRev := none }

/-- One event counter in one sequencer (R74 to R78). -/
structure SeqCnt where
  val      : Word
  /-- FREQ: rising edges in the running gate, and the tick at which the gate began -/
  gate     : Nat
  gateAt   : Nat
  /-- PERIOD: instant of the last rising edge -/
  riseAt   : Option Nat
  /-- instant of the last edge on each track (R75) -/
  edgeA    : Option Nat
  edgeB    : Option Nat
  /-- what the last counted edge added (R75) -/
  lastAdd  : Int
  /-- tick of the last count, and what was added in it (R79) -/
  tickAt   : Option Nat
  tickAdd  : Int
  /-- wraps counted, and clears of the counter or its flags taken, since the field side started -/
  wraps    : Nat
  clears   : Nat
  wrap     : Bool
  qerr     : Bool
  excess     : Bool
  stopped  : Bool
  deriving DecidableEq, Repr

def SeqCnt.start : SeqCnt :=
  { val := 0, gate := 0, gateAt := 0, riseAt := none, edgeA := none, edgeB := none, lastAdd := 0,
    tickAt := none, tickAdd := 0, wraps := 0, clears := 0, wrap := false, qerr := false, excess := false, stopped := false }

/-- One sin/cos period counter in one sequencer (R191). -/
structure SeqSc where
  val  : Word
  /-- the quadrant judged last -/
  quad : Option Nat
  /-- signs of sine and cosine, once known: true for positive -/
  sin  : Option Bool
  cos  : Option Bool
  /-- a result of sine, of cosine, has come since the quadrant was judged last -/
  newSin : Bool
  newCos : Bool
  err  : Bool
  /-- clears of SCERR taken -/
  clears : Nat
  deriving DecidableEq, Repr

def SeqSc.start : SeqSc := { val := 0, quad := none, sin := none, cos := none, newSin := false, newCos := false, err := false, clears := 0 }

/-- Life of a field sequencer (R225, R226, R425). -/
inductive SeqSt where
  | alive
  /-- stopped at a tick; its gate inputs are invalid -/
  | stopped (since : Nat)
  /-- never started: retired -/
  | off
  deriving DecidableEq, Repr

/-- The flags of counter or pair `num` that its owner clears (R79). -/
structure FlagClear where
  num    : Nat
  wrap   : Bool
  qerr   : Bool
  excess : Bool
  deriving DecidableEq, Repr

/-- Downlink frame (Table 9.5). -/
structure Down where
  solo : Nat
  bank : Bool
  dseq : Nat
  tb   : Nat
  img  : Long
  orst : Long
  cclr : BitVec 128
  /-- clears of counters' flags, which the layout gives no field (log 30) -/
  fclr : List FlagClear
  /-- URG: local channel of each converter's request -/
  urg  : List (Option Nat)
  /-- its check value was computed in FAULT (R303) -/
  spoiled : Bool
  deriving DecidableEq, Repr

/-- One field sequencer. -/
structure Seq where
  st       : SeqSt
  /-- it has found a fault in itself (SELF_FAULT) -/
  selfFault : Bool
  /-- it judges its partner dead (R226) -/
  peerDead : Bool
  /-- it is in SOLO -/
  solo     : Bool
  /-- sequence number and image of the newest frame accepted on its own link -/
  got      : Option (Nat × Long)
  /-- the configuration packets of the staged image are in its bank not in force -/
  loaded   : Bool
  deriving DecidableEq, Repr

def Seq.start : Seq :=
  { st := .alive, selfFault := false, peerDead := false, solo := false, got := none,
    loaded := false }

/-- Phases of a Q+ terminal (Table 2.2), by code. -/
inductive Phase where
  | idle
  | load
  | source
  deriving DecidableEq, Repr

def Phase.code : Phase → Nat
  | .idle => 0
  | .load => 1
  | .source => 2

/-- The pulse in progress in an output's own slot (R42). -/
inductive Pulse where
  | none
  | dark
  | lsDark
  | light
  /-- a light pulse is due, but one sequencer alone does not close the switch (R43) -/
  | missed
  deriving DecidableEq, Repr

/-- The re-test of a FAULTED output (R230). -/
structure Retest where
  /-- frame in which the request was accepted: the two complete frames follow it -/
  frame : Nat
  /-- condition of Table 9.2 met in the re-test, 0 for none -/
  bad   : Nat
  /-- the re-test ended without result (Table 9.4) -/
  aborted : Bool
  deriving DecidableEq, Repr

/-- Line measurements of one output by one sequencer (R221). -/
structure SeqLine where
  /-- consecutive measurements above 3.3 kΩ and below 5 Ω -/
  hi     : Nat
  lo     : Nat
  /-- since which the high-side current has been below OLTHR -/
  lowAt  : Option Nat
  /-- last measured high-side current in mA -/
  mA     : Nat
  /-- tick of the last line-sense measurement -/
  lastAt : Option Nat
  deriving DecidableEq, Repr

def SeqLine.start : SeqLine := { hi := 0, lo := 0, lowAt := none, mA := 0, lastAt := none }

/-- One output on the field side. -/
structure FOut where
  /-- image bit in force by R224 and R229 -/
  img      : Bool
  phase    : Phase
  pulse    : Pulse
  /-- a change to ON waits for the end of the light pulse (R48) -/
  defer    : Bool
  /-- silence applies at the end of the dark pulse in progress (Table 9.4) -/
  silPend  : Bool
  /-- the high-side and the low-side gate were closed when a sequencer stopped (R225) -/
  memHi    : Bool
  memLo    : Bool
  /-- the gate-hold has ended (R225) -/
  holdOver : Bool
  /-- HOLD under silence has ended, or silence opened the output (R227) -/
  silOpen  : Bool
  /-- tick at which the switch state last changed -/
  changed  : Nat
  /-- Table 9.2 cause while FAULTED, otherwise 0 -/
  cause    : Nat
  /-- slot of the last foreign level change (R219) -/
  fslot    : Nat
  /-- tick of the entry into FAULTED, and phase, pulse and last switch change just before it, by which
  the other sequencer still judges in that tick (R231) -/
  faultAt  : Nat
  phaseWas : Phase
  pulseWas : Pulse
  changedWas : Nat
  /-- the high side was in current limit as the output became FAULTED (R221) -/
  limited  : Bool
  /-- instant of the last pulse point executed -/
  lastPt   : Nat
  /-- first frame in which conditions 4 to 7 are judged again (R222) -/
  judgeFrom : Nat
  retest   : Option Retest
  /-- since which the two sequencers' readings of Q+ and of Q− differ (Table 9.2, DISAGREE) -/
  disP     : Option Nat
  disM     : Option Nat
  lineA    : SeqLine
  lineB    : SeqLine
  deriving DecidableEq, Repr

def FOut.start : FOut :=
  { img := false, phase := .idle, pulse := .none, defer := false, silPend := false, memHi := false,
    memLo := false, holdOver := false, silOpen := false, changed := 0, cause := 0, fslot := 0, faultAt := 0,
    phaseWas := .idle, pulseWas := .none, changedWas := 0, limited := false, lastPt := 0, judgeFrom := 0, retest := none, disP := none, disM := none,
    lineA := .start, lineB := .start }

/-- Sum of the high-side currents of one group (R223). -/
structure GSum where
  /-- in 10 mA -/
  sum   : Nat
  excess  : Bool
  /-- since which the sum has been on the other side of 6.0 A -/
  since : Option Nat
  deriving DecidableEq, Repr

def GSum.start : GSum := { sum := 0, excess := false, since := none }

/-- The field side. Tables by sequencer and number use `key q n`. -/
structure Fld where
  /-- comparators by sequencer and terminal: 0 to 127 inputs, 128 + k is Q− of output k, 192 + k its
  Q+ -/
  terms   : Tab Term
  ins     : Tab SeqIn
  cnts    : Tab SeqCnt
  scs     : Tab SeqSc
  groups  : Tab SeqGroup
  /-- the switch that feeds S1 and S2 of a group is open (R38) -/
  sOpen   : Tab Bool
  sums    : Tab GSum
  outs    : Tab FOut
  seqA    : Seq
  seqB    : Seq
  /-- the field configuration in force, and the part that waits for a frame boundary -/
  cfg     : FieldCfg
  pulseCfg : FieldCfg
  /-- the other bank -/
  other   : FieldCfg
  /-- the bank in force -/
  bank    : Bool
  /-- tick at which it came into force (R53) -/
  bankAt  : Nat
  /-- tick of the last accepted downlink frame since start-up -/
  accepted : Option Nat
  /-- DSEQ of that frame -/
  dlast   : Nat
  /-- silent since (R227) -/
  silent  : Option Nat
  /-- DSEQ of the last frame accepted during silence -/
  silSeq  : Option Nat
  /-- counters cleared by the frame with this number (R79), and its urgent requests taken -/
  cmdSeq  : Option Nat
  /-- ORST of the last accepted frame (R230) -/
  orst    : Long
  /-- number of the pulse frame last begun -/
  frame   : Nat
  /-- triggers of kinds 2 and 3 fired since the previous uplink frame, by sequencer -/
  trigA   : Word
  trigB   : Word
  /-- field restarts since start-up (R197) -/
  epoch   : Nat
  deriving DecidableEq, Repr

/-! ### Uplink frames and the logic end of the links -/

/-- Status of one output in an uplink frame (Table 9.6 OST), with the slot and tick of its fault. -/
structure OutRep where
  cause : Nat
  line  : Nat
  phase : Nat
  fslot : Nat
  faultAt : Nat
  qp    : Bool
  qm    : Bool
  deriving DecidableEq, Repr

/-- Report of one group (Table 9.6 GRP), with its current sum. -/
structure GroupRep where
  st    : Nat
  short : Bool
  excess  : Bool
  volt  : Int
  sum   : Nat
  deriving DecidableEq, Repr

/-- One counter in a frame: number, value and flags. -/
structure CntRep where
  num  : Nat
  val  : Word
  wrap : Bool
  qerr : Bool
  excess : Bool
  stopped : Bool
  /-- the sequencer's counts of wraps and of clears, beside the layout (R76, R79) -/
  wraps  : Nat
  clears : Nat
  deriving DecidableEq, Repr

/-- Uplink frame (Table 9.6). -/
structure Up where
  tick     : Nat
  useq     : Nat
  peerDead : Bool
  selfFault : Bool
  inSolo   : Bool
  silent   : Bool
  bank     : Bool
  dlast    : Nat
  rd       : BitVec 192
  inv      : BitVec 192
  /-- CAUSE of inputs 24r to 24r + 23 -/
  causes   : List (Nat × Nat)
  /-- inputs INVALID with cause FOREIGN, with the slot, which the layout gives no field (log 92) -/
  fslots   : List (Nat × Nat)
  outs     : List OutRep
  groups   : List GroupRep
  cnts     : List CntRep
  /-- SC values and SCERR of the pairs in use, and clears taken -/
  sc       : List (Nat × Word × Bool × Nat)
  trig     : Word
  deriving DecidableEq, Repr

/-- State of a link as shown in FLD_OSTAT. -/
inductive LinkSt where
  | valid
  | silent
  | faulty
  deriving DecidableEq, Repr

/-- One isolation link. -/
structure Link where
  /-- FLD_OSTAT LINKA or LINKB -/
  st       : LinkSt
  /-- retired (R241) -/
  retired  : Bool
  /-- FLD_LNKERR MISSING -/
  missing  : Nat
  /-- FLD_LNKERR CRCERR -/
  crcerr   : Nat
  /-- link differences counted (R14, R231) -/
  diffs    : Nat
  /-- ticks of the newest of them, at most 11 -/
  diffAt   : List Nat
  /-- ticks of the newest counted missing frames and check failures, at most 11 each (R237) -/
  missAt   : List Nat
  crcAt    : List Nat
  /-- uplink frames in a row without error while FAULTY (R237) -/
  good     : Nat
  /-- operating seconds of the judgements FAULTY (R241) -/
  faults   : List Nat
  /-- frames missing at consecutive launch ticks (R226) -/
  missRun  : Nat
  /-- the uplink frame in flight -/
  up       : Option Up
  /-- launch tick of the uplink frame now due, until it is accepted or missing -/
  due      : Option Nat
  /-- the downlink frame in flight -/
  down     : Option Down
  /-- the last accepted uplink frame, while the link delivers -/
  last     : Option Up
  /-- causes last delivered for the inputs (Table 9.6 CAUSE) -/
  causes   : Tab Nat
  deriving DecidableEq, Repr

def Link.start : Link :=
  { st := .valid, retired := false, missing := 0, crcerr := 0, diffs := 0, diffAt := [], missAt := [], crcAt := [], good := 0,
    faults := [], missRun := 0, up := none, due := none, down := none, last := none,
    causes := [] }

/-- One input as the logic side forms it (R67 to R70). -/
structure InForm where
  v         : Bool
  invalid   : Bool
  /-- FLD_IDIAG.CAUSE -/
  cause     : Nat
  /-- FLD_IDIAG.ENTRIES (0) -/
  entries   : Nat
  /-- FLD_IDIAG.FSLOT (0) -/
  fslot     : Nat
  /-- since which the two readings differ, or agree (R68) -/
  diffAt    : Option Nat
  agreeAt   : Option Nat
  /-- INVALID with cause DISAGREE -/
  disagree  : Bool
  /-- the last valid value and the tick at which it was last valid (R70) -/
  lastVal   : Bool
  lastAt    : Option Nat
  /-- tick since which it is INVALID with only the causes that R70 bridges -/
  sagAt     : Option Nat
  /-- a reading of it has been formed since it came into use, or since the first accepted frame (R69) -/
  formed    : Bool
  deriving DecidableEq, Repr

/-- Before the first frame: INVALID with cause LINK. -/
def InForm.start : InForm :=
  { v := false, invalid := true, cause := 7, entries := 0, fslot := 0, diffAt := none,
    agreeAt := none, disagree := false, lastVal := false, lastAt := none, sagAt := none, formed := false }

/-- Flags, wraps and clears of a counter as one link last delivered them: what has been notified. -/
structure FlagsIn where
  wrap   : Bool
  qerr   : Bool
  excess : Bool
  wraps  : Nat
  clears : Nat
  deriving DecidableEq, Repr

def FlagsIn.start : FlagsIn := { wrap := false, qerr := false, excess := false, wraps := 0, clears := 0 }

/-- One counter on the logic side (R78), or at 128 + m the sin/cos pair SCm (R191), whose SCERR is
`qerr`. -/
structure CntForm where
  /-- FLD_CVA, FLD_CVB (0) -/
  va      : Word
  vb      : Word
  stoppedA : Bool
  stoppedB : Bool
  /-- refreshes in a row beyond tolerance, and within it -/
  badRun  : Nat
  goodRun : Nat
  /-- FLD_CSTAT flags (0) -/
  invalid : Bool
  diff    : Bool
  wrap    : Bool
  qerr    : Bool
  excess    : Bool
  /-- flags as each link last delivered them, so that a set flag is notified once -/
  seenA   : FlagsIn
  seenB   : FlagsIn
  /-- wraps notified to the owner (R76), whose snapshots show the count -/
  wraps   : Nat
  /-- tick of the last refresh (R192) -/
  tick    : Nat
  /-- restarts of the field side before the last refresh (R197, R212) -/
  epoch   : Nat
  deriving DecidableEq, Repr

def CntForm.start : CntForm :=
  { va := 0, vb := 0, stoppedA := false, stoppedB := false, badRun := 0, goodRun := 0,
    invalid := false, diff := false, wrap := false, qerr := false, excess := false, seenA := .start,
    seenB := .start, wraps := 0, tick := 0, epoch := 0 }

/-- One output as the logic side knows it (R238). -/
structure OutForm where
  cause   : Nat
  line    : Nat
  phase   : Nat
  /-- FLD_ODIAG.FSLOT (0) -/
  fslot   : Nat
  /-- FLD_ODIAG.ENTRIES (0) -/
  entries : Nat
  deriving DecidableEq, Repr

def OutForm.start : OutForm := { cause := 0, line := 3, phase := 0, fslot := 0, entries := 0 }

/-- One group as the logic side knows it. -/
def GroupRep.start : GroupRep := { st := 0, short := false, excess := false, volt := 2400, sum := 0 }

/-- A trip latch: output and trigger that set it (R125, R126). -/
structure TripLatch where
  out  : Nat
  trig : Nat
  deriving DecidableEq, Repr

/-- An engine's urgent request that waits on the logic side: the tick of its issue, the engine, the
converter and its local channel (R173). -/
structure UrgAsk where
  tick : Nat
  eng  : Nat
  conv : Nat
  ch   : Nat
  deriving DecidableEq, Repr

/-- The logic end of the field data and the output matrix. -/
structure Lgc where
  linkA   : Link
  linkB   : Link
  ins     : Tab InForm
  cnts    : Tab CntForm
  outs    : Tab OutForm
  groups  : Tab GroupRep
  /-- launch ticks of the newest uplink and downlink frames -/
  upAt    : Option Nat
  downAt  : Option Nat
  /-- tick of the last acceptance of a frame, and what was formed before that tick (R16) -/
  formedAt : Nat
  insWas  : Tab InForm
  cntsWas : Tab CntForm
  outsWas : Tab OutForm
  /-- a frame has been accepted since start-up (R69) -/
  any     : Bool
  /-- FLD_OIMG: the commands last sent (0) -/
  oimg    : Long
  /-- FLD_OSTAT.FSA, FSB: 0 ALIVE, 1 DEAD, 2 RETIRED -/
  fsA     : Nat
  fsB     : Nat
  /-- FLD_OSTAT.SOLO -/
  solo    : Nat
  /-- FLD_OSTAT.SILSEEN (0) -/
  silseen : Bool
  /-- BANK as the downlink frames carry it -/
  bank    : Bool
  /-- ORST requests with the mailbox operations that wait for them -/
  orst    : Tab (List Nat)
  /-- CCLR bits, and clears of flags, for the next downlink frame -/
  cclr    : BitVec 128
  fclr    : List FlagClear
  /-- engine urgent requests waiting, in order of issue (R173) -/
  urg     : List UrgAsk
  /-- counter triggers whose condition link A, link B has reported entered and not left (R210) -/
  entA    : Word
  entB    : Word
  /-- trip latches of the matrix copies A and B -/
  tripA   : List TripLatch
  tripB   : List TripLatch
  /-- matrix copies that failed their start-up test (Table 12.4) -/
  mxOut   : List Side
  /-- inputs whose comparators failed their start-up test (Table 12.4) -/
  inBad   : List Nat
  deriving DecidableEq, Repr

/-! ### Converters (chapter 7) -/

/-- A data entry on its way or newest of its channel. -/
structure Entry where
  ch     : Nat
  ow     : Bool
  oob    : Bool
  urgent : Bool
  value  : Int
  /-- the converter's data sequence number (R181) -/
  seq    : Nat
  /-- sample instant -/
  tick   : Nat
  /-- the result before OFS and G, whether it is a saturation code, and the judgement of the open-wire
  test alone (R180, R186) -/
  raw    : Int
  sat    : Bool
  judged : Bool
  /-- it changed its channel to OUTSIDE (R179) -/
  fire   : Bool
  /-- the start interval before it broke the pattern of Table 7.2 (R235) -/
  brk    : Bool
  /-- slices in service at its start, and position of the interval that follows it -/
  slices : Nat
  phase  : Nat
  deriving DecidableEq, Repr

/-- What a conversion serves. -/
inductive ConvKind where
  /-- list entry -/
  | list (e : Nat)
  /-- engine urgent request -/
  | urgent
  /-- re-check (R178) -/
  | recheck
  deriving DecidableEq, Repr

/-- A conversion in progress on a slice. -/
structure Conv where
  slice   : Nat
  ch      : Nat
  diag    : Bool
  kind    : ConvKind
  started : Nat
  /-- the start interval before it broke the pattern of Table 7.2 (R235) -/
  brk     : Bool
  /-- slices in service at the start, and position of the interval that follows it in the pattern -/
  slices  : Nat
  phase   : Nat
  deriving DecidableEq, Repr

/-- A result block (Table 9.7). -/
structure Block where
  fire    : Bool
  slices  : Nat
  phase   : Nat
  entries : List Entry
  deriving DecidableEq, Repr

/-- A result block on a link until it is accepted (R235); `begun`: its transmission has begun (R236). -/
structure Flight where
  conv  : Nat
  blk   : Block
  begun : Bool
  deriving DecidableEq, Repr

/-- A block accepted from one link, as received, that the other link has not delivered yet (R14). -/
structure Held where
  conv : Nat
  blk  : Block
  got  : Block
  deriving DecidableEq, Repr

/-- A local channel on the field side and on the logic side. -/
structure Chan where
  /-- comparator of the field side is OUTSIDE -/
  outside : Bool
  /-- an unconfirmed outside result waits for its re-check (R178) -/
  unconf  : Bool
  /-- judged open-wire -/
  ow      : Bool
  /-- most recent ordinary result before calibration -/
  ordinary : Option Int
  /-- CNV_CHST.WCF (0) -/
  wcf     : Bool
  /-- CNV_CHST.OUTSIDE, OW (0) on the logic side -/
  outL    : Bool
  owL     : Bool
  /-- CNV_CHST.STALE (1) -/
  stale   : Bool
  /-- CNV_CHST.LAST (0), its sample instant, and whether there is one -/
  last    : Int
  lastAt  : Option Nat
  deriving DecidableEq, Repr

def Chan.start : Chan :=
  { outside := false, unconf := false, ow := false, ordinary := none, wcf := false, outL := false,
    owL := false, stale := true, last := 0, lastAt := none }

/-- CNV_STAT.STATE. -/
inductive CnvSt where
  | stopped
  | running
  | waiting
  | failed
  deriving DecidableEq, Repr

/-- One copy's view of one result buffer. -/
structure RBuf where
  /-- CNV_WRPTR (0) -/
  ptr     : Nat
  /-- CNV_SEQ (0) -/
  seq     : Nat
  /-- data entries written since start-up -/
  count   : Nat
  /-- sample instant of the last data entry -/
  seqTb   : Nat
  entries : Tab Word
  deriving DecidableEq, Repr

def RBuf.start : RBuf := { ptr := 0, seq := 0, count := 0, seqTb := 0, entries := [] }

/-- Coefficients of a slice (R169), as CNV_SOFS, CNV_SGAIN and CNV_SSKEW show them. -/
structure Coef where
  sofs  : Int
  sgain : Nat
  sskew : Int
  deriving DecidableEq, Repr

/-- A slice that needs no correction: its coefficients at reset and after a start of the field side (DESIGN CHOICE,
log 98: the manual gives the measured values of no slice). -/
def Coef.unity : Coef := { sofs := 0, sgain := 0x800000, sskew := 0 }

/-- One converter. -/
structure Cnv1 where
  /-- slices out of service (CNV_STAT.SLICES shows the rest) -/
  retired : List Nat
  /-- CNV_STAT.REFFAIL (0) -/
  reffail : Bool
  failed  : Bool
  /-- CNV_STAT.TMISS (0) -/
  tmiss   : Bool
  /-- CNV_STAT.HELD (0) -/
  held    : Nat
  /-- CNV_URGCNT (0) -/
  unconf  : Nat
  recheck : Nat
  engine  : Nat
  /-- next list entry -/
  next    : Nat
  /-- the trigger has released the waiting entry -/
  release : Bool
  /-- conversions in progress, oldest first -/
  run     : List Conv
  /-- urgent requests at the converter, in order of service: local channel and whether a re-check -/
  urgent  : List (Nat × Bool)
  /-- position in the pattern of Table 7.2, and tick of the last start -/
  phase   : Nat
  startAt : Option Nat
  /-- the next start interval breaks the pattern: after an urgent conversion, an abort or a retirement -/
  brk     : Bool
  /-- tick of the last start that a trigger released, and the tick before which no urgent conversion starts
  (R174, R176) -/
  trigAt  : Option Nat
  urgFrom : Nat
  /-- data sequence number of the last data entry (R181) -/
  seq     : Nat
  /-- local channels whose pull-up and pull-down are on from a first tick to a last one (R180) -/
  pulls   : List (Nat × Nat × Nat)
  /-- held back for the uplink (R236) -/
  heldBack : Bool
  /-- entries of the block in formation -/
  form    : List Entry
  /-- the closed block that still waits for link A, for link B -/
  waitA   : Bool
  waitB   : Bool
  /-- coefficients of the slices -/
  coefs   : Tab Coef
  /-- tick of the last reference check (R183) -/
  refAt   : Option Nat
  deriving DecidableEq, Repr

def Cnv1.start : Cnv1 :=
  { retired := [], reffail := false, failed := false, tmiss := false, held := 0, unconf := 0,
    recheck := 0, engine := 0, next := 0, release := false, run := [], urgent := [], phase := 0,
    startAt := none, brk := false, trigAt := none, urgFrom := 0, seq := 0, pulls := [], heldBack := false, form := [], waitA := false, waitB := false, coefs := [],
    refAt := none }

/-- Slices in service. -/
def Cnv1.slices (v : Cnv1) : Nat := 4 - v.retired.length

/-- Interval at a position of the pattern of Table 7.2. -/
def pattern (slices phase : Nat) : Nat :=
  if 4 ≤ slices then nth [33, 33, 34] (phase % 3) 33
  else if slices = 3 then nth [44, 45, 44, 45, 44, 45, 44, 45, 44] (phase % 9) 44
  else nth [67, 67, 66] (phase % 3) 67

/-- Urgent requests wait at the converter as `l`. None of them starts on the tick of a trigger's start, nor before
the next start tick after it (R176). -/
def Cnv1.ask (v : Cnv1) (l : List (Nat × Bool)) (now : Nat) : Cnv1 :=
  { v with urgent := l, urgFrom := if v.trigAt = some now then max v.urgFrom (now + pattern v.slices v.phase)
                                   else v.urgFrom }

/-- The 10 µA pull-up and pull-down are on at local channel `j`. -/
def Cnv1.pullOn (v : Cnv1) (j now : Nat) : Bool :=
  v.pulls.any fun p => p.1 == j && decide (p.2.1 ≤ now ∧ now < p.2.2)

/-- A calibration record: OFS in counts, G in 1/32,768, the CRC-32C stored with them, and whether it held
when the record was loaded (R185). -/
structure CalRec where
  ofs  : Int
  gain : Nat
  crc  : Nat
  good : Bool
  deriving DecidableEq, Repr

/-- A channel never calibrated has no record: OFS 0 and G 1. -/
def CalRec.unity : CalRec := { ofs := 0, gain := 32768, crc := 0, good := true }

/-- Phases of a calibration session (R186). -/
inductive CalPhase where
  | zeroing
  | zeroed
  | filling
  | filled
  | spoiled
  deriving DecidableEq, Repr

/-- The calibration session. -/
structure Cal where
  session : Nat
  chan    : Nat
  phase   : CalPhase
  /-- entries averaged so far and their sum, before OFS and G -/
  count   : Nat
  sum     : Int
  /-- an entry showed open-wire or saturation -/
  bad     : Bool
  /-- tick at which this averaging began -/
  since   : Nat
  /-- sums of 1,024 entries of the completed averagings -/
  zero    : Int
  full    : Int
  /-- applied counts of CAL_FULL, times 1,000,000 -/
  applied : Int
  /-- mailbox operation that waits for the averaging -/
  op      : Nat
  /-- operating tick of the last calibration command -/
  lastCmd : Nat
  deriving DecidableEq, Repr

/-- The converters' state. -/
structure Cnv where
  convs   : Tab Cnv1
  chans   : Tab Chan
  /-- tick of the last entry written, and the channels before that tick (R16) -/
  wroteAt : Nat
  chansWas : Tab Chan
  /-- the two copies of the result memory by half and converter -/
  bufA    : Tab RBuf
  bufB    : Tab RBuf
  /-- copies that failed their start-up test (Table 12.4) -/
  memOut  : List Side
  /-- blocks that link A and link B have still to deliver, oldest first -/
  flyA    : List Flight
  flyB    : List Flight
  /-- blocks accepted from one link that the other has not delivered yet (R14) -/
  heldA   : List Held
  heldB   : List Held
  /-- CNV_SPTR, CNV_SSEQ, CNV_STB (0) by converter -/
  snaps   : Tab (Nat × Nat × Nat)
  cal     : Option Cal
  /-- by channel: the record before the last CAL_COMMIT, and its tick (Table 7.4) -/
  calWas  : Tab (Option (CalRec × Nat))
  deriving DecidableEq, Repr

end Sys2Proof.Machine
end

