-- ==== Sys2Proof/Machine/LogicTypes.lean ====
section
/-! DEFINITION. Types of the logic side: engines and instances (chapter 5), rooms of the sea
(chapter 4), service states (chapter 10), configuration (chapter 15). -/

namespace Sys2Proof.Machine

/-! ### Engines -/

/-- Engine states (Table 5.5), in the order of their codes. -/
inductive EngSt where
  | active
  | spare
  | suspect
  | testing
  | draining
  | split
  | debug
  | retired
  | off
  deriving DecidableEq, Repr

def EngSt.code : EngSt → Nat
  | .active => 0
  | .spare => 1
  | .suspect => 2
  | .testing => 3
  | .draining => 4
  | .split => 5
  | .debug => 6
  | .retired => 7
  | .off => 8

/-- Whom a failed window charges if the engine passes its self-test (R117). -/
inductive Charge where
  | none
  | engine
  | cmp (s : Side)
  deriving DecidableEq, Repr

/-- Why an engine tests itself (R129, R135, R249). -/
inductive TestWhy where
  /-- after failed windows, with what each charges -/
  | window (cs : List Charge)
  /-- ENGINE_JOIN by a mailbox operation -/
  | join (op : Nat)
  /-- a join of the device's own -/
  | auto
  deriving DecidableEq, Repr

/-- One evaluation engine. -/
structure Engine where
  /-- ENG_STATE.STATE (M) -/
  st       : EngSt
  /-- operating seconds of its transients (ENG_STATE.TRANS, R129) -/
  trans    : List Nat
  /-- ENG_STATE.TAINTED (0) -/
  tainted  : Bool
  /-- ENG_FAULT FAILED, CODE, DREG, OVERRUN (0) -/
  failed   : Nat
  code     : Nat
  dreg     : Nat
  overrun  : Nat
  /-- ENG_SPEC_HIT, ENG_SPEC_MISS (0) -/
  hits     : Nat
  misses   : Nat
  /-- windows judged and skew tests made (R118) -/
  judged   : Nat
  skews    : Nat
  /-- what its self-test decides, and the tick at which the test began -/
  why      : TestWhy
  testAt   : Nat
  /-- the drain serves DEBUG_ATTACH, not ENGINE_SPLIT (R134, R136) -/
  forDebug : Bool
  /-- mailbox operation of the drain -/
  drainOp  : Nat
  /-- halted by the debugger (R348) -/
  halted   : Bool
  /-- breakpoints, at most 8 -/
  breaks   : List Word
  /-- instruction memory, data memory, parameter memory and core registers as the debugger sees
  them (R348) -/
  spaces   : Tab (Tab (Option Byte))
  /-- the model's own: number of the free values that its memories hold since it last ran -/
  ran      : Nat
  deriving DecidableEq, Repr

/-- An engine in service without instances. -/
def Engine.start : Engine :=
  { st := .spare, trans := [], tainted := false, failed := 0, code := 0, dreg := 0, overrun := 0,
    hits := 0, misses := 0, judged := 0, skews := 0, why := .auto, testAt := 0, forDebug := false,
    drainOp := 0, halted := false, breaks := [], spaces := [], ran := 0 }

/-- Comparator states (ENG_CMP). -/
inductive CmpSt where
  | inService
  | retired
  | off
  deriving DecidableEq, Repr

def CmpSt.code : CmpSt → Nat
  | .inService => 0
  | .retired => 1
  | .off => 2

/-- Pass A of a window: its staging area, and its signature on the two rails of the delay register (R111,
R115). -/
structure PassA where
  staged : List (Word × Word)
  rail   : Word
  rail'  : Word
  /-- its check-value unit was in FAULT: the signature is invalid (R303) -/
  faulty : Bool
  deriving DecidableEq, Repr

/-- A window in progress (R109). -/
structure Window where
  start : Nat
  snap  : Snap
  /-- operations of the FUNCTION_RESET requests in the snapshot (R148, R346) -/
  resets : List Nat
  /-- engine that runs it -/
  eng    : Nat
  /-- counters, and 128 + pair, whose flags the snapshot showed to their owner (R195) -/
  flags  : List Nat
  /-- pass A where the run-ahead has given it (R121) -/
  passA  : Option PassA
  deriving DecidableEq, Repr

/-- One function instance at run time. -/
structure Inst where
  st       : FnSt
  /-- engine now carrying it -/
  engine   : Option Nat
  /-- SVC_FN.STATUS: 0 NONE, 1 EVICTED, 2 CAPACITY -/
  status   : Nat
  /-- a window has committed since the instance was placed -/
  started  : Bool
  /-- its checkpoint record is on its way to the engine (R128) -/
  moving   : Bool
  /-- the record moved is restored, else it starts from its parameters -/
  restore  : Bool
  /-- the windows in progress, oldest first: a window may start before its predecessor commits -/
  wins     : List Window
  /-- a run-ahead pass A in the speculative staging area, with the hash of its predicted snapshot (R121) -/
  spec     : Option (Nat × PassA)
  /-- hash of the snapshot of the last committed window -/
  lastHash : Option Nat
  /-- window number of the last commit, its tick, and the tick of the last commit -/
  lastWin  : Nat
  lastAt   : Nat
  /-- function outputs before the commit at `lastAt` -/
  prevOuts : BitVec 16
  /-- tick by which the hold needs a commit (R127) -/
  hold     : Option Nat
  /-- outputs take their demand values: the hold was lost, or the instance is shed (R127, R247) -/
  safe     : Bool
  /-- checkpoint record: function state and window number of the last commit (R120) -/
  ckpt     : Option (FnSt × Nat)
  /-- the half whose checkpoint memory holds it -/
  ckIn     : Side
  /-- its check value was computed in FAULT (R303) -/
  ckBad    : Bool
  /-- engine it moves away from, until it has committed on its new one (R134) -/
  from_    : Option Nat
  /-- a draining engine that waits for its first commit elsewhere (R134) -/
  left     : Option Nat
  /-- tick since which it evaluates, for the ride-through of R70 -/
  began    : Nat
  /-- FUNCTION_RESET requests pending, as mailbox operations (R148) -/
  resets   : List Nat
  deriving DecidableEq, Repr

/-- A trip mask of one trigger (R124, R125). -/
structure Mask where
  mask : Long
  prev : Long
  tick : Nat
  /-- tick of the trigger's last firing -/
  fired : Option Nat
  deriving DecidableEq, Repr

def Mask.zero : Mask := { mask := 0, prev := 0, tick := 0, fired := none }

structure Eng where
  engines : Tab Engine
  /-- running instances by number, staged ones at 1,024 + number -/
  insts   : Tab (Option Inst)
  /-- masks by trigger, staged ones at 32 + trigger -/
  masks   : Tab Mask
  cmpA    : CmpSt
  cmpB    : CmpSt
  /-- operating seconds of the disagreements charged (R117) -/
  disA    : List Nat
  disB    : List Nat
  /-- ENG_CMPCNT.SKEWTESTS (0) -/
  skews   : Nat
  /-- checkpoint memories in service -/
  ckmA    : Bool
  ckmB    : Bool
  /-- halves whose checkpoint memory has failed its test, out until the next start-up (Table 12.4) -/
  ckmOut  : List Side
  /-- ENG_SPEED (M) in Mop/s -/
  speedA  : Nat
  speedB  : Nat
  /-- DEV_STATUS.DEBUG_TAINT (0) -/
  taint   : Bool
  /-- the attached engine (ENG_DEBUG) -/
  attached : Option Nat
  /-- SVC_SHED.THRESH (0) -/
  thresh  : Nat
  deriving DecidableEq, Repr

/-! ### The sea -/

/-- Room states (SEA_ROOM.STATE), in the order of their codes. -/
inductive RoomSt where
  | free
  | active
  | mirror
  | held
  | failed
  | rewriting
  | staged
  | retired
  | off
  | testing
  deriving DecidableEq, Repr

def RoomSt.code : RoomSt → Nat
  | .free => 0
  | .active => 1
  | .mirror => 2
  | .held => 3
  | .failed => 4
  | .rewriting => 5
  | .staged => 6
  | .retired => 7
  | .off => 8
  | .testing => 9

/-- What one room evaluates (R89). -/
structure Cells where
  /-- states of state elements and outputs of delay sites -/
  q        : Tab Bool
  /-- tick at which the count of a delay site runs since (R86) -/
  dly      : Tab (Option Nat)
  /-- outputs and counts of the long delay units (R87) -/
  ld       : Tab Bool
  ldDly    : Tab (Option Nat)
  /-- expiries not captured yet: sites, and 1,000 + long delay unit -/
  expired  : List Nat
  /-- output latches, their values before the tick `latchAt` (R15) -/
  latches  : Tab Bool
  prev     : Tab Bool
  latchAt  : Nat
  /-- the room has committed since it started (R424) -/
  committed : Bool
  /-- the start values are loaded -/
  loaded   : Bool
  /-- port values captured by the last commit -/
  ports    : Tab Bool
  /-- an evaluation is due without a port change (R89 step 6) -/
  due      : Bool
  /-- tick of the last evaluation -/
  lastEval : Nat
  /-- tick at which the room began evaluating (R70) -/
  began    : Nat
  deriving DecidableEq, Repr

def Cells.start : Cells :=
  { q := [], dly := [], ld := [], ldDly := [], expired := [], latches := [], prev := [],
    latchAt := 0, committed := false, loaded := false, ports := [], due := true, lastEval := 0, began := 0 }

/-- One physical room. -/
structure Room where
  /-- SEA_ROOM.STATE (M) -/
  st     : RoomSt
  /-- key of the image room carried: number, 64 + number for a staged one -/
  iroom  : Nat
  /-- SEA_ROOM.SPARES (M) -/
  spares : Nat
  /-- operating seconds of its transients (R96) -/
  trans  : List Nat
  /-- SEA_RMIS FIRST and FAILS (0) -/
  first  : Nat
  fails  : Nat
  /-- the self-test follows a failure (R96) -/
  afterFail : Bool
  /-- tick at which the self-test began (R97) -/
  testAt : Nat
  /-- state before the first re-evaluation (R91) -/
  heldAs : RoomSt
  /-- site named by the first disagreement, 0x3FF for none (R91) -/
  heldSite : Nat
  /-- the difference from its mirror has been found once (R93) -/
  differs : Bool
  /-- port and INVALID episode whose ride-through has ended (R83) -/
  rideEnded : Tab Nat
  cells  : Cells
  deriving DecidableEq, Repr

/-- A free room with four spare clusters. -/
def Room.start : Room :=
  { st := .free, iroom := 0, spares := 4, trans := [], first := 0, fails := 0,
    afterFail := false, testAt := 0, heldAs := .free, heldSite := 0x3FF, differs := false,
    rideEnded := [], cells := .start }

/-- One image room in service (key: number, 64 + number for a staged one). -/
structure IRoom where
  /-- physical room that carries it -/
  room     : Option Nat
  /-- mirror in shadow -/
  mirror   : Option Nat
  /-- mirror being built or not yet in shadow, and the tick at which its load began (R93) -/
  building : Option (Nat × Nat)
  /-- the half-built mirror holds the room's states -/
  built    : Bool
  /-- rewrite target and the tick at which the rewrite began (R94) -/
  rewrite  : Option (Nat × Nat)
  /-- tick of the second disagreement (R95) -/
  failedAt : Option Nat
  /-- latches frozen by a failure -/
  frozen   : Tab Bool
  /-- SEA_IMAP.DEMAND: the latches hold demand values (R95) -/
  demand   : Bool
  /-- tick at which consumers last switched to other latches or to demand values, and what they saw
  before it (R15) -/
  wasAt    : Option Nat
  was      : Tab Bool
  deriving DecidableEq, Repr

def IRoom.none : IRoom :=
  { room := Option.none, mirror := Option.none, building := Option.none, built := false,
    rewrite := Option.none, failedAt := Option.none, frozen := [], demand := false,
    wasAt := Option.none, was := [] }

structure Sea where
  rooms  : Tab Room
  imap   : Tab IRoom
  /-- SEA_LAST (0): failing site, image room, physical room -/
  last   : Option (Nat × Nat × Nat)
  /-- SEA_SPEED (M) in ps -/
  delayA : Nat
  delayB : Nat
  deriving DecidableEq, Repr

/-! ### Service states -/

/-- What the function table shows of one function (R242, R243). -/
structure FnShow where
  state  : Nat
  istate : Nat
  cause  : Nat
  deriving DecidableEq, Repr

structure Svc where
  /-- functions by number -/
  fns    : Tab FnShow
  /-- SVC_DEVICE (M) -/
  state  : Nat
  istate : Nat
  cause  : Nat
  replace : Bool
  /-- SVC_CHANGE (0) -/
  change : Nat
  deriving DecidableEq, Repr

def FnShow.none : FnShow := { state := 0, istate := 0, cause := 0 }

/-! ### Configuration -/

/-- Slot states (Table 15.4), in the order of their codes. -/
inductive SlotSt where
  | empty
  | loading
  | loaded
  | valid
  | invalid
  | staged
  | running
  deriving DecidableEq, Repr

def SlotSt.code : SlotSt → Nat
  | .empty => 0
  | .loading => 1
  | .loaded => 2
  | .valid => 3
  | .invalid => 4
  | .staged => 5
  | .running => 6

/-- A load in progress (R312, R349). -/
structure Load where
  session : Nat
  slot    : Nat
  len     : Nat
  next    : Nat
  /-- tick of the last chunk -/
  lastAt  : Nat
  deriving DecidableEq, Repr

/-- How the last staging ended (CFG_STAGE.END), in the order of the codes. -/
inductive StageEnd where
  | none
  | handover
  | abandon
  | capacity
  | power
  deriving DecidableEq, Repr

def StageEnd.code : StageEnd → Nat
  | .none => 0
  | .handover => 1
  | .abandon => 2
  | .capacity => 3
  | .power => 4

/-- An accepted IMAGE_HANDOVER (R324). -/
structure Handover where
  force : Bool
  op    : Nat
  /-- the hand-over instant X -/
  at_   : Nat
  deriving DecidableEq, Repr

structure Cfg where
  /-- accepted seal code (CFG_SEAL.CODE) -/
  sealNow  : Byte
  /-- CFG_SEAL.COVER -/
  coverOpen : Bool
  /-- tick since which the cover switch reads open, until its opening is counted (R319) -/
  coverAt  : Option Nat
  /-- CFG_LOAD (0) -/
  load     : Option Load
  /-- a validation run: slot and operation -/
  running  : Option (Nat × Nat)
  /-- CFG_VALWHY (0) -/
  valSect  : Nat
  valSlot  : Nat
  valStep  : Nat
  valResult : Nat
  /-- the running image and its slot -/
  image    : Option Image
  slot     : Nat
  /-- the staged image and its slot -/
  staged   : Option Image
  stagedSlot : Nat
  /-- CFG_STAGE: operating second at which the shadow clock stood at 0 -/
  clock0   : Nat
  /-- staging is ready (R322) -/
  ready    : Bool
  ended    : StageEnd
  handover : Option Handover
  /-- CFG_DSEEN (0) -/
  dseen    : Long
  /-- CFG_LASTNB (0) -/
  lastnb   : Long
  deriving DecidableEq, Repr

end Sys2Proof.Machine
end

