-- ==== Sys2Proof/Machine/PorchTypes.lean ====
section
/-! DEFINITION. Types of the porch (chapter 16) and of the Renig link fabric (chapter 17), and of what
the device sends. -/

namespace Sys2Proof.Machine

/-- What the device has sent, in the order of sending. -/
inductive Sent where
  /-- a response mailbox: header, body and CRC (R331) -/
  | mailbox (whom : Origin) (bytes : List Byte)
  /-- a stream packet (Table 16.10) from a UDP port, to an address and port or to the service port -/
  | stream (src : Nat) (whom : Origin) (bytes : List Byte)
  /-- gratuitous ARP on host port 0 (H1) or 1 (H2) (R341) -/
  | arpAnnounce (port : Nat) (ip : List Byte)
  /-- ARP reply: address asked for (R328) -/
  | arpReply (ip : List Byte)
  /-- ICMP echo reply (R328) -/
  | echoReply (bytes : List Byte)
  /-- PRP supervision frame (R328) -/
  | prpSupervision
  /-- the redundancy control trailer, with its sequence number, behind the frame before, which leaves on LAN A and LAN B
  (R328) -/
  | trailer (seq : Nat)
  /-- a frame on Renig link port p (Table 17.1) -/
  | fabric (port : Nat) (bytes : List Byte)
  deriving DecidableEq, Repr

/-- It leaves by a host port. -/
def Sent.onHost : Sent → Bool
  | .mailbox (.udp _ _) _ | .stream _ (.udp _ _) _ | .arpAnnounce _ _ | .arpReply _ | .echoReply _ | .prpSupervision => true
  | _ => false

/-- A mailbox that is occupied: the session of its request, and its response, which has not left (R331, R334). -/
structure Box where
  session : Nat
  out     : Sent
  deriving DecidableEq, Repr

/-- A frame taken from one LAN of a PRP pair: MAC address and sequence number of its sender, the LAN, the tick (R328). -/
structure PrpSeen where
  mac  : Nat
  seq  : Nat
  lan  : Side
  tick : Nat
  deriving DecidableEq, Repr

/-- States of a porch processor (Table 16.7, byte 64), beside active. -/
inductive ProcSt where
  | active
  | standby
  | restarting
  | lost
  | retired
  | loader
  | updating
  deriving DecidableEq, Repr

/-- A firmware bank of a processor (R349). -/
structure FwBank where
  /-- VERSION and ROLLBACK of a bank whose firmware is sound -/
  version  : Word
  rollback : Nat
  sound    : Bool
  deriving DecidableEq, Repr

/-- What a bank holds at delivery. -/
def FwBank.shipped : FwBank := { version := 0, rollback := 0, sound := true }

/-- One porch processor. -/
structure Proc where
  st     : ProcSt
  /-- operating seconds of its losses (R342) -/
  losses : List Nat
  deriving DecidableEq, Repr

/-- An entry of a session's result cache (R339). -/
structure CacheEntry where
  tag    : Word
  seq    : Word
  opcode : Nat
  /-- final status and body; none while the command runs -/
  done   : Option (Nat × List Byte)
  /-- the mailbox operation of a running command -/
  op     : Nat
  deriving DecidableEq, Repr

/-- One session (R336 to R339). -/
structure Session where
  origin : Origin
  /-- a challenge that is not answered: its nonce and tick -/
  challenge : Option (List Byte × Nat)
  /-- highest SEQUENCE taken into a mailbox -/
  highest : Option Nat
  /-- the commands cached, newest first, at most 32 -/
  cache  : List CacheEntry
  /-- tick of the last request -/
  lastAt : Nat
  deriving DecidableEq, Repr

/-- A data entry that waits in a stream: the word of Table 7.3, its CNV_SEQ, its sample instant, and
the tick at which it was written. -/
structure StreamEntry where
  word  : Word
  seq   : Nat
  tick  : Nat
  wrote : Nat
  deriving DecidableEq, Repr

/-- An open stream (R351). -/
structure Stream where
  session : Nat
  conv    : Nat
  usb     : Bool
  dest    : Origin
  mask    : Nat
  dec     : Nat
  /-- data entries of the channel mask seen so far -/
  seen    : Nat
  /-- packet sequence -/
  packet  : Nat
  dropped : Nat
  /-- entries waiting, oldest first -/
  queue   : List StreamEntry
  deriving DecidableEq, Repr

/-- Phases of a firmware load (R349, R350). -/
inductive FwPhase where
  | loading
  | checking
  | checked (version : Word) (rollback : Nat)
  /-- FIRMWARE_SWITCH: the standby restarts, then the other processor -/
  | switching (version : Word) (rollback : Nat) (second : Bool)
  deriving DecidableEq, Repr

structure FwLoad where
  len     : Nat
  next    : Nat
  phase   : FwPhase
  op      : Nat
  data    : Memory
  deriving DecidableEq, Repr

/-- A running mailbox operation whose meaning needs more than its handle. -/
inductive OpKind where
  /-- FUSE_ADVANCE: counter, target, and the session it answers -/
  | fuse (counter target : Nat)
  | other
  deriving DecidableEq, Repr

structure Por where
  procA    : Proc
  procB    : Proc
  /-- the active processor -/
  active   : Side
  /-- EPOCH (R341) -/
  epoch    : Nat
  /-- sessions 1 to 8 (R336) -/
  sessions : Tab (Option Session)
  /-- ticks of failed MACs, newest first (R336) -/
  macFails : List Nat
  lockedAt : Option Nat
  /-- GET_STATUS CRCERR (0) -/
  crcerr   : Nat
  streams  : Tab (Option Stream)
  fw       : Option FwLoad
  /-- the last operation handle given -/
  nextOp   : Nat
  ops      : Tab OpKind
  /-- mailboxes whose responses wait, oldest first, at most 16 (R334); the present response is to wait too -/
  boxes    : List Box
  hold     : Bool
  /-- sequence number of the next redundancy control trailer, and frames seen within the last 400 ms (R328) -/
  prpSeq   : Nat
  prpSeen  : List PrpSeen
  /-- tick of the last PRP supervision frame (R328) -/
  prpAt    : Nat
  /-- UDP addresses in force: PRP, H1, H2, secret (R329) -/
  prp      : Bool
  h1       : List Byte
  h2       : List Byte
  secret   : List Byte
  deriving DecidableEq, Repr

/-! ### Fabric -/

/-- Port states (R354). -/
inductive PortSt where
  | off
  | down
  | up
  | failed
  deriving DecidableEq, Repr

def PortSt.code : PortSt → Nat
  | .off => 0
  | .down => 1
  | .up => 2
  | .failed => 3

/-- A frame that waits in a queue of a port, and the tick since which it waits. -/
structure Waiting where
  frame : List Byte
  since : Nat
  deriving DecidableEq, Repr

structure Port where
  st       : PortSt
  /-- valid HELLOs in a row that carry this device's UID -/
  run      : Nat
  /-- tick of the last valid HELLO -/
  helloAt  : Option Nat
  /-- TXT of that HELLO, and its UID, address coding and flags -/
  txt      : Nat
  nuid     : Nat
  naddr    : Nat
  ntaint   : Bool
  nmaster  : Bool
  nstandby : Bool
  /-- link delays of the last exchanges in ticks, newest first, at most 16 -/
  delays   : List Nat
  /-- held DOWN because the mean delay exceeds 1 µs -/
  slow     : Bool
  /-- tick of the last HELLO sent -/
  sentAt   : Option Nat
  /-- LNK_PERR (0): LCRC errors, HELLO timeouts -/
  lcrc     : Nat
  timeouts : Nat
  /-- LNK_PSAFE (0): highest load, SAFEOVER, SAFEDROP -/
  highest  : Nat
  safeover : Nat
  safedrop : Nat
  /-- LNK_PCTRL (0): AGED, CFULL -/
  aged     : Nat
  cfull    : Nat
  /-- LNK_PBULK (0): BDROP, REFUSED -/
  bdrop    : Nat
  refused  : Nat
  /-- safety bytes sent in the present 250 µs window, its start, and loads of the last second -/
  safeBytes : Nat
  winAt    : Nat
  loads    : List (Nat × Nat)
  /-- frames discarded for another reason than a full queue or AGE (R366); each also counts in the discard
  counter of its class (R370) -/
  lost     : Nat
  /-- link-local and safety frames, control frames and bulk frames that wait, oldest first (R370) -/
  safeQ    : List Waiting
  ctrlQ    : List Waiting
  bulkQ    : List Waiting
  /-- tick at which the last transmission ends -/
  busyTo   : Nat
  /-- bytes served to control and to bulk while both have waited -/
  ctrlShare : Nat
  bulkShare : Nat
  deriving DecidableEq, Repr

def Port.start : Port :=
  { st := .off, run := 0, helloAt := none, txt := 0, nuid := 0, naddr := 0, ntaint := false,
    nmaster := false, nstandby := false, delays := [], slow := false, sentAt := none, lcrc := 0,
    timeouts := 0, highest := 0, safeover := 0, safedrop := 0, aged := 0, cfull := 0, bdrop := 0,
    refused := 0, safeBytes := 0, winAt := 0, loads := [], lost := 0, safeQ := [], ctrlQ := [], bulkQ := [],
    busyTo := 0, ctrlShare := 0, bulkShare := 0 }

/-- A link of an LSA (Table 17.5). -/
structure LsaLink where
  uid   : Nat
  addr  : Nat
  port  : Nat
  sload : Nat
  deriving DecidableEq, Repr

/-- An LSA in the database. -/
structure Lsa where
  uid     : Nat
  /-- address coding with ROOF in bit 15 -/
  addr    : Nat
  seq     : Nat
  master  : Bool
  standby : Bool
  taint   : Bool
  links   : List LsaLink
  /-- tick of the last refresh -/
  lastAt  : Nat
  deriving DecidableEq, Repr

/-- A route: ports of each leg, and its hops (R366, R372). -/
structure Route where
  rt   : Bool
  legs : List (List Nat)
  deriving DecidableEq, Repr

/-- A produced connection at run time. -/
structure Prod where
  alive   : Nat
  /-- tick of the last release -/
  lastAt  : Option Nat
  /-- routes in use by consumer, in the order of the record -/
  routes  : List (List Route)
  deriving DecidableEq, Repr

def Prod.start : Prod := { alive := 0, lastAt := none, routes := [] }

/-- States of a consumed connection (Table 17.6). -/
inductive ConSt where
  | wait
  | live
  | failsafe
  | starting
  | tainted
  deriving DecidableEq, Repr

def ConSt.code : ConSt → Nat
  | .wait => 0
  | .live => 1
  | .failsafe => 2
  | .starting => 3
  | .tainted => 4

/-- A consumed connection at run time. -/
structure Cons where
  st      : ConSt
  /-- ALIVE and tick of the last accepted copy -/
  alive   : Option Nat
  lastAt  : Option Nat
  /-- accepted copies in a row with successive ALIVE values (R369) -/
  succ    : Nat
  /-- payload of the last accepted copy -/
  payload : List Byte
  /-- bits delivered, those before the tick `valAt` (R16) -/
  val     : List Byte
  prev    : List Byte
  valAt   : Nat
  /-- tick at which each route last delivered (R369) -/
  rt1     : Option Nat
  rt2     : Option Nat
  /-- LNK_CCON.HMAX (0) -/
  hmax    : Nat
  /-- LNK_CCNT (0) -/
  late    : Nat
  badalive : Nat
  layout  : Nat
  fsentries : Nat
  deriving DecidableEq, Repr

def Cons.start : Cons :=
  { st := .wait, alive := none, lastAt := none, succ := 0, payload := [], val := [], prev := [],
    valAt := 0, rt1 := none, rt2 := none, hmax := 0, late := 0, badalive := 0, layout := 0,
    fsentries := 0 }

/-- The control value of a consumed connection of CLASS 1: as received last, and before the tick `valAt` (R375). -/
structure Ctl where
  val   : List Byte
  prev  : List Byte
  valAt : Nat
  deriving DecidableEq, Repr

def Ctl.none : Ctl := { val := [], prev := [], valAt := 0 }

structure Lnk where
  ports   : Tab Port
  /-- LSAs of the device's fabric and of the roof, by UID -/
  db      : List Lsa
  roof    : List Lsa
  /-- sequence of the device's newest LSA, the tick of its origination, and a change is due -/
  lsaSeq  : Nat
  lsaAt   : Option Nat
  lsaDue  : Bool
  /-- the topology changed since the last recomputation, and when (R359) -/
  routeDue : Option Nat
  prod    : Tab Prod
  cons    : Tab Cons
  /-- LNK_SELF.ADDRCLASH (0) -/
  clash   : Bool
  /-- FABRIC_MAP states as last recorded, by UID: state and TAINT (R361, R373) -/
  peers   : Tab (Nat × Bool)
  /-- LNK_ROOF.ACTING -/
  acting  : Bool
  /-- the fabric database and connections of the running image are in force since this tick -/
  since   : Nat
  /-- control values received for P2 instances: consumed connection, payload -/
  control : Tab Ctl
  /-- address that an EXPELLED node claimed last, by UID (R362) -/
  claims  : List (Nat × Nat)
  /-- bulk payloads received: P2 instance, payload -/
  bulk    : List (Nat × List Byte)
  /-- post status of the last bulk frame that a P2 instance of the device posted (R370) -/
  post    : Nat
  deriving DecidableEq, Repr

end Sys2Proof.Machine
end

