-- ==== Sys2Proof/Machine/State.lean ====
section
/-! DEFINITION. The state of the block as plain data, the reasons a step can stop, and the state
right after power-on start-up. -/

namespace Sys2Proof.Machine

/-- Reasons for which the block stops with a fault. There are none: every fault that the manual
describes is an effect on the state, and the block goes on. -/
inductive Fault where
  deriving DecidableEq, Repr

/-- Reasons for which a command has no outcome in the model. -/
inductive Refusal where
  /-- raised by an arm of `exec` for a command that has no meaning yet; safe -/
  | notModelled (mnemonic : String)
  deriving DecidableEq, Repr

/-- One image slot (R311). -/
structure Slot where
  st  : SlotSt
  /-- the 8 MiB of the slot -/
  mem : Memory
  /-- loaded length -/
  len : Nat
  deriving DecidableEq, Repr

def Slot.empty : Slot := { st := .empty, mem := [], len := 0 }

/-- One copy of the active-slot pointer, with its check (R311). -/
structure SlotPtr where
  slot : Nat
  crc  : Nat
  deriving DecidableEq, Repr

/-- The copy that names slot `k`. -/
def SlotPtr.of (k : Nat) : SlotPtr := { slot := k, crc := crc32c [BitVec.ofNat 8 k] }

def SlotPtr.good (p : SlotPtr) : Bool := p.crc == crc32c [BitVec.ofNat 8 p.slot]

/-- What survives a loss of power. -/
structure Nv where
  /-- the two image slots (R311) -/
  slots   : Tab Slot
  /-- active-slot pointer, held twice (R311) -/
  ptrA    : SlotPtr
  ptrB    : SlotPtr
  /-- calibration store by channel (R185) -/
  cal     : Tab CalRec
  /-- recorder store: the foundation, oldest first (R391) -/
  found   : List Rec
  /-- recorder store: the circulating area, oldest first (R391) -/
  circ    : List Rec
  /-- sequence of the last CLEAR record, 0 for none (R400) -/
  lastClr : Nat
  /-- operating seconds and power cycles as persisted (R262) -/
  opsec   : Nat
  cycles  : Nat
  /-- rows 0 to 135 of the fuse array (R378) -/
  rows    : Tab FuseRow
  /-- redirection entries S0 to S7, 15 bits each (R378) -/
  redir   : Tab FuseRow
  /-- blows to be made, in order; those marked pending form the pending list (R385, R386) -/
  blows   : List Blow
  /-- firmware banks by 2 × processor + bank, and each processor's bank pointer (R349) -/
  banks   : Tab FwBank
  bankA   : Nat
  bankB   : Nat
  /-- accept and expel lists (R362) -/
  accept  : List Nat
  expel   : List Nat
  deriving DecidableEq, Repr

/-- The slot that the pointer names: by the first copy whose check holds (R311). -/
def Nv.active (n : Nv) : Nat := if n.ptrA.good then n.ptrA.slot else n.ptrB.slot

/-- The pointer is written, both copies (R324). -/
def Nv.point (n : Nv) (k : Nat) : Nv := { n with ptrA := .of k, ptrB := .of k }

/-- The state of the block. -/
structure State where
  /-- commands that wait, first in, first out -/
  pending : List Instr
  /-- TB (R28) -/
  tb      : Nat
  /-- the model's own: how many free values have been taken -/
  free    : Nat
  /-- what the device has sent, in order -/
  sent    : List Sent
  /-- the model's own: tick at which the device last set each W1C flag (R5), by `flagKey` -/
  flagSet : Tab (Option Nat)
  nv      : Nv
  pwr     : Pwr
  fus     : Fus
  rcd     : Recorder
  tmr     : Tmr
  /-- check-value units 0 to 18 (R295) -/
  cvu     : Tab Cvu
  fld     : Fld
  lgc     : Lgc
  cnv     : Cnv
  sea     : Sea
  eng     : Eng
  svc     : Svc
  cfg     : Cfg
  por     : Por
  lnk     : Lnk
  deriving DecidableEq, Repr

/-- The bytes 0 to 59 of a record (Table 19.1). -/
def Rec.bytes (r : Rec) : List Byte :=
  be32 r.seq ++ be32 r.opsec ++ beBytes 3 r.pcyc ++ [BitVec.ofNat 8 (r.code / 256)] ++
    be16 r.code ++ be16 (r.sev * 4096 + r.flags) ++ be32 r.tick ++
    (r.payload ++ List.replicate (40 - r.payload.length) 0#8).take 40

/-- The check word of an all-zero item in the fuse bank (R382). -/
def zeroRow (w : Word) : FuseRow := { aNorm := w, aStrict := w, bNorm := w, bStrict := w }

/-- The fuse array of a device whose factory items are all zero: only their checks are blown. -/
def blankRows : Tab FuseRow :=
  [(2, zeroRow (BitVec.ofNat 32 (crcOf 1#2 (List.replicate 8 0#8)))),
   (15, zeroRow (BitVec.ofNat 32 (crcOf 3#2 (List.replicate 48 0#8)))),
   (48, zeroRow (BitVec.ofNat 32 (crcOf 3#2 (List.replicate 128 0#8))))]

/-- The shadows of that array (R379). -/
def blankShadow : Tab Word := blankRows.map fun e => (e.1, e.2.aNorm)

def startedRec : Rec :=
  { seq := 1, opsec := 0, pcyc := 1, code := 0x0104, sev := 1, flags := 4, tick := 0,
    payload := be32 0x93000000 ++ be32 0 ++ be32 0x304, crc := 0 }

/-- Non-volatile content at the first power-on: no image, and the record of this start-up. -/
def Nv.reset : Nv :=
  { slots := [], ptrA := .of 0, ptrB := .of 0, cal := [],
    found := [{ startedRec with crc := crc32c startedRec.bytes }],
    circ := [], lastClr := 0, opsec := 0, cycles := 1, rows := blankRows, redir := [], blows := [],
    banks := [], bankA := 0, bankB := 0, accept := [], expel := [] }

def Supply.present : Supply :=
  { st := .ok, volt := 2400, runUnder := 0, runOver := 0, runGood := 0 }

def Pwr.reset : Pwr :=
  { supA := .present, supB := .present, pfail := false, pflushed := false,
    rides := 0, off := false, fieldFell := false, cellarFell := false, offAt := 0, failAt := 0, still := 0, weak := false,
    charged := false, holdup := 400, holdupAt := 0, doms := [], whyDom := 0, why := 0,
    osc := { a := .selected, b := .standby, diff := 0, woscLost := false, holdover := none,
             stopped := false, loneSince := none },
    step := 9, stepAt := 0, result := 3, duration := 0, cycles := 1, opsec := 0, opTick := 0 }

def Fus.reset : Fus :=
  { shadow := blankShadow, marg := [], uidFail := false, trimFail := false, keysFail := false,
    plost := false, nospare := false, rail := 3300, temp := 250, blowing := false }

def Recorder.reset : Recorder :=
  { buf := [], hidden := false, next := 2, failed := none, flushing := false, drop := 0, lost := 0, lostTick := 0,
    verify := 0, readErr := 0, flushed := 0 }

/-- Field side with the manual's defaults where an image would configure it (R41, R72, R227). -/
def Fld.reset : Fld :=
  { terms := [], ins := [], cnts := [], scs := [], groups := [], sOpen := [], sums := [], outs := [],
    seqA := .start, seqB := .start, cfg := .none, pulseCfg := .none, other := .none, bank := false,
    bankAt := 0, orst := 0,
    accepted := some 0, dlast := 0, silent := none, silSeq := none, cmdSeq := none, frame := 0,
    trigA := 0, trigB := 0, epoch := 0 }

def Lgc.reset : Lgc :=
  { linkA := .start, linkB := .start, ins := [], cnts := [], outs := [], groups := [],
    upAt := none, downAt := none, formedAt := 0, insWas := [], cntsWas := [], outsWas := [], any := true, oimg := 0, fsA := 0, fsB := 0, solo := 0, silseen := false,
    bank := false, orst := [], cclr := 0, fclr := [], urg := [], entA := 0, entB := 0, tripA := [], tripB := [],
    mxOut := [], inBad := [] }

def Cnv.reset : Cnv :=
  { convs := [], chans := [], wroteAt := 0, chansWas := [], bufA := [], bufB := [], memOut := [],
    flyA := [], flyB := [], heldA := [],
    heldB := [], snaps := [], cal := none, calWas := [] }

def Sea.reset : Sea :=
  { rooms := [], imap := [], last := none, delayA := 1000, delayB := 1000 }

def Eng.reset : Eng :=
  { engines := [], insts := [], masks := [], cmpA := .inService, cmpB := .inService, disA := [],
    disB := [], skews := 0, ckmA := true, ckmB := true, ckmOut := [], speedA := 450, speedB := 450,
    taint := false, attached := none, thresh := 0 }

def Svc.reset : Svc :=
  { fns := [], state := 4, istate := 1, cause := 0, replace := false, change := 0 }

def Cfg.reset : Cfg :=
  { sealNow := 0, coverOpen := false, coverAt := none, load := none, running := none, valSect := 0, valSlot := 0,
    valStep := 0, valResult := 0, image := none, slot := 0, staged := none, stagedSlot := 0,
    clock0 := 0, ready := false, ended := .none, handover := none, dseen := 0, lastnb := 0 }

/-- The addresses of R329 while no image executes. -/
def defaultH1 : List Byte := [192, 168, 96, 64, 255, 255, 255, 0, 0, 0, 0, 0]
def defaultH2 : List Byte := [192, 168, 97, 64, 255, 255, 255, 0, 0, 0, 0, 0]

def Por.reset : Por :=
  { procA := { st := .active, losses := [] }, procB := { st := .standby, losses := [] },
    active := .a, epoch := 1, sessions := [], macFails := [], lockedAt := none, crcerr := 0,
    streams := [], fw := none, nextOp := 0, ops := [], boxes := [], hold := false, prpSeq := 0, prpSeen := [], prpAt := 0, prp := false, h1 := defaultH1,
    h2 := defaultH2, secret := List.replicate 32 0#8 }

/-- The ports are up for discovery and have no neighbour (R354, R374). -/
def portsDown : Tab Port := (List.range 4).map fun p => (p, { Port.start with st := .down })

def Lnk.reset : Lnk :=
  { ports := portsDown, db := [], roof := [], lsaSeq := 0, lsaAt := none, lsaDue := false, routeDue := none,
    prod := [], cons := [], clash := false, peers := [], acting := false, since := 0, control := [], claims := [],
    bulk := [], post := 0 }

/-- The block right after its first power-on start-up with no image loaded (R6, R269, R271). -/
def State.reset : State :=
  { pending := [], tb := 0, free := 0, sent := [], flagSet := [], nv := .reset, pwr := .reset, fus := .reset,
    rcd := .reset, tmr := { timers := [], readers := [] }, cvu := [], fld := .reset, lgc := .reset,
    cnv := .reset, sea := .reset, eng := .reset, svc := .reset, cfg := .reset, por := .reset,
    lnk := .reset }

end Sys2Proof.Machine
end

