-- ==== Sys2Proof/Machine/Ops.lean ====
section
/-! DEFINITION. Operations that every chapter uses: numbers of the two sides, check-value units in
use, the recorder's entry, blows of the fuse bank, the end of a mailbox operation. -/

namespace Sys2Proof.Machine

/-! ### Sides, time and counts -/

def sideNat : Side → Nat
  | .a => 0
  | .b => 1

def otherSide : Side → Side
  | .a => .b
  | .b => .a

/-- Stamps, in operating seconds, that lie within the last 24 operating hours. -/
def within24h (stamps : List Nat) (now : Nat) : List Nat :=
  stamps.filter fun t => decide (now < t + 86400)

/-- Bit `j` of a 64-bit mask given by a predicate. -/
def mask64 (f : Nat → Bool) : Long :=
  (List.range 64).foldl (fun acc j => if f j then acc ||| BitVec.ofNat 64 (1 <<< j) else acc) 0#64

/-- Numbers of the bits that are 1. -/
def bits64 (m : Long) : List Nat := (List.range 64).filter fun j => m.getLsbD j

/-! ### Power domains -/

def State.dom (s : State) (d : Nat) : Domain := Tab.get .ready s.pwr.doms d

def State.setDom (s : State) (d : Nat) (v : Domain) : State :=
  { s with pwr := { s.pwr with doms := Tab.set .ready s.pwr.doms d v } }

/-- The domain's parts work: it is ON, or going down and not switched off yet. -/
def State.powered (s : State) (d : Nat) : Bool :=
  match (s.dom d).st with
  | .on => true
  | .goingDown => true
  | _ => false

/-- The cellar is alive. -/
def State.alive (s : State) : Bool := !s.pwr.cellarFell

/-- The instant by CELLAR's supervision, which goes on where the timebase stands still. -/
def State.now (s : State) : Nat := s.tb + s.pwr.still

/-- Timebase runs (R267). -/
def State.ticking (s : State) : Bool := s.alive && !s.pwr.osc.stopped

/-- ENG domain of a side (4 or 5) and SEA domain of a side (2 or 3). -/
def engDom (q : Side) : Nat := 4 + sideNat q
def seaDom (q : Side) : Nat := 2 + sideNat q

/-! ### Check-value units (chapter 14) -/

def State.unit (s : State) (u : Nat) : Cvu := Tab.get .fresh s.cvu u

def State.setUnit (s : State) (u : Nat) (c : Cvu) : State :=
  { s with cvu := Tab.set .fresh s.cvu u c }

/-- Table 14.1: the domain of a unit. -/
def cvuDomain (u : Nat) : Nat :=
  if u < 4 then 4 else if u < 8 then 5 else if u < 12 then 6 else if u < 14 then 4
  else if u < 16 then 5 else if u < 18 then 1 else 0

/-- R300: INIT. -/
def Cvu.init (c : Cvu) : Cvu :=
  let g := crcAlg c.poly
  if c.alive then
    { c with active := some c.poly, reg := crcFeed g g.init (be16 c.aliveV.toNat), len := 0,
             fault := false, cmpd := false, match_ := false,
             aliveV := if c.autoinc then c.aliveV + 1 else c.aliveV }
  else
    { c with active := some c.poly, reg := g.init, len := 0, fault := false, cmpd := false,
             match_ := false }

/-- R299: feeds bytes to the running check. -/
def Cvu.feed (c : Cvu) (bs : List Byte) : Cvu :=
  match c.active with
  | none => { c with len := c.len + BitVec.ofNat 32 bs.length }
  | some p => { c with reg := crcFeed (crcAlg p) c.reg bs, len := c.len + BitVec.ofNat 32 bs.length }

/-- R298, R303: CVU_RESULT. -/
def Cvu.result (c : Cvu) : Nat :=
  match c.active with
  | none => 0
  | some p =>
    let g := crcAlg p
    let r := crcOut g c.reg
    if c.fault then (2 ^ g.width - 1) ^^^ r else r

/-- R302, R303: CVU_EXPECT. -/
def Cvu.expect (c : Cvu) (v : Nat) : Cvu :=
  let ok := decide (v = c.result)
  { c with match_ := ok && !c.fault, cmpd := true, bad := if ok then c.bad else satAdd 0xFFFF c.bad 1 }

/-- A whole check of a byte string by a unit in PAYLOAD mode, as its owner makes it (Table 14.3). -/
def Cvu.payload (c : Cvu) (poly : BitVec 2) (bs : List Byte) : Cvu :=
  ({ c with alive := false, autoinc := false, poly := poly }.init).feed bs

/-- A whole check in ALIVE mode with the given alive value. -/
def Cvu.aliveCheck (c : Cvu) (auto : Bool) (v : Nat) (bs : List Byte) : Cvu :=
  ({ c with alive := true, autoinc := auto, poly := 3#2, aliveV := BitVec.ofNat 16 v }.init).feed bs

/-- The byte-steps of a check: where the two copies come to differ FAULT is set and counted, and the third FAULT
within 24 operating hours fails the unit (R303, R304). -/
def Cvu.stepped (c : Cvu) (sec : Nat) : Cvu :=
  if c.upset = 0 ∨ c.fault = true then c
  else
    let l := sec :: within24h c.stamps sec
    { c with upset := c.upset - 1, fault := true, faults := satAdd 0xFF c.faults 1, stamps := l
             failed := c.failed || decide (3 ≤ l.length)
             due := c.due || (!c.failed && decide (3 ≤ l.length)) }

/-! ### The recorder (chapter 19) -/

/-- R392: the sequence that follows. -/
def nextSeq (n : Nat) : Nat := if n = 0xFFFFFFFF then 4097 else n + 1

/-- The value of a counter in the fuse shadows: position of its highest 1, plus 1 (R383). -/
def counterVal (shadow : Tab Word) (base words : Nat) : Nat :=
  (List.range (32 * words)).foldl
    (fun acc i => if (Tab.get 0#32 shadow (base + i / 32)).getLsbD (i % 32) then i + 1 else acc) 0

def State.counter (s : State) (base words : Nat) : Nat := counterVal s.fus.shadow base words

/-- Anti-rollback, key-revocation, configuration-generation and seal-openings counters. -/
def State.rollback (s : State) : Nat := s.counter 49 4
def State.revoke (s : State) : Nat := min 4 (s.counter 53 1)
def State.genCount (s : State) : Nat := s.counter 54 32
def State.openings (s : State) : Nat := s.counter 86 16

/-- FLAGS of a record (R393). -/
def State.recFlags (s : State) (staged : Bool) : Nat :=
  b2n s.eng.taint + 2 * b2n staged + 4 * b2n (s.cfg.sealNow == 0) + 8 * b2n (s.genCount == 1024)
    + 16 * b2n s.pwr.pfail

/-- CVU-REC computes the check value of a record. -/
def State.recUnit (s : State) (bytes : List Byte) : State :=
  s.setUnit 18 (((s.unit 18).payload 3#2 bytes).stepped s.pwr.opsec)

/-- The check value of a record that enters, computed once more after a FAULT; none where it was computed in FAULT
both times (R396). -/
def State.recCheck (s : State) (bytes : List Byte) : State × Option Nat :=
  let value (t : State) : Option Nat := if (t.unit 18).fault then none else some (t.unit 18).result
  let s1 := s.recUnit bytes
  if (s1.unit 18).fault && !(s1.unit 18).failed then
    let s2 := s1.recUnit bytes
    (s2, value s2)
  else (s1, value s1)

/-- Puts one record at the tail of the buffer with its sequence and check value; from a failed unit it takes none
(R396, R403). One whose check value was computed in FAULT both times does not enter, and is counted as R398
counts a dropped record (DESIGN CHOICE, log 99). -/
def State.enter (s : State) (code sev : Nat) (payload : List Byte) (staged : Bool) (tick : Nat) :
    State :=
  let r : Rec :=
    { seq := s.rcd.next, opsec := s.pwr.opsec, pcyc := s.pwr.cycles, code := code, sev := sev,
      flags := s.recFlags staged, tick := tick % 2 ^ 32, payload := payload, crc := 0 }
  let put (t : State) (x : Rec) : State :=
    { t with rcd := { t.rcd with buf := t.rcd.buf ++ [x], next := nextSeq t.rcd.next
                                 hidden := t.rcd.hidden || (code == 1 && decide (4096 < x.seq)) } }
  let bare := { r with flags := r.flags + 32 }
  if (s.unit 18).failed then put s bare
  else
    let c := s.recCheck r.bytes
    match c.2 with
    | some v => put c.1 { r with crc := v }
    | none =>
      if (c.1.unit 18).failed then put c.1 bare
      else { c.1 with rcd := { c.1.rcd with drop := c.1.rcd.drop + 1, lost := c.1.rcd.lost + 1
                                            lostTick := if c.1.rcd.lost = 0 then tick % 2 ^ 32
                                              else c.1.rcd.lostTick } }

/-- R397: a flush starts where one is called for. -/
def State.flushIf (s : State) (b : Bool) : State :=
  if b && s.rcd.failed.isNone && !s.rcd.buf.isEmpty then
    { s with rcd := { s.rcd with flushing := true } }
  else s

/-- One record that reaches the cellar (R396 to R398, R403), a LOST record ahead of it where one is due. -/
def State.recordOnce (s : State) (code sev : Nat) (payload : List Byte) (staged : Bool := false)
    (tick : Option Nat := none) : State :=
  if !s.alive then s
  else
    let tk := tick.getD s.tb
    if s.rcd.failed.isSome then
      let s1 := if s.rcd.buf.length < 512 then s
        else { s with rcd := { s.rcd with buf := s.rcd.buf.drop 1, drop := s.rcd.drop + 1 } }
      s1.enter code sev payload staged tk
    else
      let s1 :=
        if s.rcd.lost = 0 ∨ 512 ≤ s.rcd.buf.length then s
        else
          let s2 := s.enter 0x0002 2 (be32 s.rcd.lost ++ be32 s.rcd.lostTick) false s.rcd.lostTick
          ({ s2 with rcd := { s2.rcd with lost := 0 } } : State).flushIf true
      if s1.rcd.buf.length < 512 then
        let s3 := s1.enter code sev payload staged tk
        s3.flushIf (decide (2 ≤ sev) || decide (256 ≤ s3.rcd.buf.length) || s3.pwr.pfail)
      else
        { s1 with rcd := { s1.rcd with drop := s1.rcd.drop + 1, lost := s1.rcd.lost + 1,
                                       lostTick := if s1.rcd.lost = 0 then tk % 2 ^ 32
                                         else s1.rcd.lostTick } }

/-- R403: the recorder fails. -/
def State.recFail (s : State) (why : RecFail) : State :=
  if s.rcd.failed.isSome then s
  else
    let s1 := { s with rcd := { s.rcd with failed := some why, flushing := false } }
    s1.recordOnce 0x0003 4 [match why with | .unit => 1#8 | .store => 2#8]

/-- The FAULTs that CVU-REC has shown since it stood as `was` are recorded, and the third fails the recorder (R303,
R304, Table 14.4). -/
def State.recFaults : Nat → Cvu → State → State
  | 0, _, s => s
  | n + 1, was, s =>
    let c := s.unit 18
    if was.upset ≤ c.upset then s
    else
      let s1 := (List.range (was.upset - c.upset)).foldl
        (fun acc _ => acc.recordOnce 0x0E01 2 [18#8, 0#8]) s
      let s2 := if c.failed && !was.failed then
          ((s1.setUnit 18 { s1.unit 18 with due := false }).recordOnce 0x0E01 2 [18#8, 1#8]).recFail .unit
        else s1
      State.recFaults n c s2

/-- One record, with what the recorder's own unit shows as it enters (R303, R396 to R398, R403). -/
def State.record (s : State) (code sev : Nat) (payload : List Byte) (staged : Bool := false)
    (tick : Option Nat := none) : State :=
  State.recFaults 4 (s.unit 18) (s.recordOnce code sev payload staged tick)

/-! ### Uses of the units (R301 to R304) -/

/-- Takes one free value. -/
def State.takeFree (s : State) : State := { s with free := s.free + 1 }

/-- A FAULT of unit `u` that has just come about is recorded, and its failure with it (R303, R304). -/
def State.noteFault (s : State) (u : Nat) (was : Cvu) : State :=
  let c := s.unit u
  if was.upset ≤ c.upset then s
  else
    let s1 := s.record 0x0E01 2 [BitVec.ofNat 8 u, 0#8]
    if c.failed && !was.failed then s1.record 0x0E01 2 [BitVec.ofNat 8 u, 1#8] else s1

/-- Unit `u` makes the byte-steps of `f` (R303). -/
def State.runUnit (s : State) (u : Nat) (f : Cvu → Cvu) : State :=
  (s.setUnit u ((f (s.unit u)).stepped s.pwr.opsec)).noteFault u (s.unit u)

/-- Unit `u` checks a byte string in PAYLOAD mode against a received check value; a use in FAULT fails (R302,
R303). -/
def State.checkWith (s : State) (u : Nat) (poly : BitVec 2) (bytes : List Byte) (crc : Nat) : State × Bool :=
  let s1 := s.runUnit u fun c => c.payload poly bytes
  let c := (s1.unit u).expect crc
  (s1.setUnit u c, c.match_)

/-- Unit `u` runs over bytes that the spec does not give: its register and its length are free values. -/
def State.checkFree (s : State) (u : Nat) : State :=
  (s.runUnit u fun c =>
    { c.payload 3#2 [] with reg := (Config.freeWord s.free).toNat, len := Config.freeWord (s.free + 1) }).takeFree.takeFree

/-- A unit fails its known-answer test (R304). -/
def State.failUnit (s : State) (u : Nat) : State :=
  if (s.unit u).failed then s
  else (s.setUnit u { s.unit u with failed := true }).record 0x0E01 2 [BitVec.ofNat 8 u, 1#8]

/-- The check-value unit of a porch processor (Table 14.1). -/
def procUnit (q : Side) : Nat := 16 + sideNat q

/-- The failure of unit `u` is charged now. -/
def State.charged (s : State) (u : Nat) : State := s.setUnit u { s.unit u with due := false }

/-! ### The fuse bank (chapter 18) -/

/-- R385: the programming window. -/
def Fus.window (f : Fus) : Bool :=
  decide (3200 ≤ f.rail ∧ f.rail ≤ 3400) && decide (-200 ≤ f.temp ∧ f.temp ≤ 850)

/-- The controller takes the next blow up where it may (R385, R389). -/
def State.fuseKick (s : State) : State :=
  if !s.fus.blowing && s.fus.window && !s.pwr.pfail && !s.nv.blows.isEmpty then
    { s with fus := { s.fus with blowing := true } }
  else s

/-- A shadow bit reads 1 (R386). -/
def State.setShadow (s : State) (w b : Nat) : State :=
  let sh := Tab.upd 0#32 s.fus.shadow w (fun v => v ||| BitVec.ofNat 32 (1 <<< b))
  { s with fus := { s.fus with shadow := sh } }

/-- Adds a blow at its place in the list. -/
def State.addBlow (s : State) (x : Blow) : State :=
  { s with nv := { s.nv with blows := putBlow x s.nv.blows } }

/-- A bit the device decides to blow: made at once inside the window, pending outside it (R384 to R386). A
pending bit reads 1 from now on, and a retirement bit in any case (Table 18.3). -/
def State.blow (s : State) (w b : Nat) : State :=
  if (Tab.get 0#32 s.fus.shadow w).getLsbD b || s.nv.blows.any (fun x => x.word == w && x.bit == b)
  then s
  else
    let x : Blow := { word := w, bit := b, pending := !s.fus.window, advance := false, again := false,
                      arose := s.tb }
    let s1 := s.addBlow x
    let s2 := if x.pending || x.retires then s1.setShadow w b else s1
    if x.pending then s2.record 0x0201 1 [BitVec.ofNat 8 w, BitVec.ofNat 8 b, 1#8] else s2.fuseKick

/-- The retirement bit of a room and of every other part (Table 18.1). -/
def State.retireRoomBit (s : State) (r : Nat) : State := s.blow (102 + r / 32) (r % 32)
def State.retireBit (s : State) (b : Nat) : State := s.blow 104 b

/-- A part counts as retired: its bit reads 1 or its blow is on its way. -/
def State.isRetired (s : State) (b : Nat) : Bool :=
  (Tab.get 0#32 s.fus.shadow 104).getLsbD b || s.nv.blows.any (fun x => x.word == 104 && x.bit == b)

/-- One step of a monotonic counter, above the steps that wait already (R319, R326). -/
def State.advanceCounter (s : State) (base words top : Nat) : State :=
  let waiting := (s.nv.blows.filter fun x =>
    decide (base ≤ x.word ∧ x.word < base + words) && !x.pending && !x.again).length
  let v := s.counter base words + waiting
  if v < top then s.blow (base + v / 32) (v % 32) else s

/-! ### Mailbox operations -/

/-- The cache entry of operation `op` gets its final status and body (R338, R339). -/
def endEntry (op status : Nat) (body : List Byte) (e : CacheEntry) : CacheEntry :=
  if e.op == op && e.done.isNone then { e with done := some (status, body) } else e

def State.finish (s : State) (op status : Nat) (body : List Byte := []) : State :=
  if op = 0 then s
  else
    let ss := s.por.sessions.map fun e =>
      (e.1, e.2.map fun k => { k with cache := k.cache.map (endEntry op status body) })
    { s with por := { s.por with sessions := ss, ops := Tab.set .other s.por.ops op .other } }

/-- Status codes (Table 16.3). -/
def stOk : Nat := 0x00
def stAccepted : Nat := 0x01
def stBusy : Nat := 0x10
def stCapacity : Nat := 0x11
def stLost : Nat := 0x12
def stLevel : Nat := 0x20
def stSeal : Nat := 0x21
def stFrame : Nat := 0x30
def stArg : Nat := 0x31
def stState : Nat := 0x32
def stInvalid : Nat := 0x40
def stBump : Nat := 0x41
def stFault : Nat := 0x50

/-! ### W1C flags (R5) -/

/-- Numbers of the W1C flags: a timer's by its TMR_STAT bit, a counter's by its FLD_CSTAT bit, TMISS
of a converter, WCF of a channel. -/
def timerFlag (n b : Nat) : Nat := 8 * n + b
def counterFlag (m b : Nat) : Nat := 1024 + 8 * m + b
def tmissFlag (c : Nat) : Nat := 4096 + c
def wcfFlag (ch : Nat) : Nat := 4200 + ch

/-- The device sets flag `k` at the present tick. -/
def State.noteFlag (s : State) (k : Nat) : State :=
  { s with flagSet := Tab.set none s.flagSet k (some s.tb) }

/-- What a write of 1 leaves of a flag: one that the device set at this very tick stays set. -/
def State.w1c (s : State) (k : Nat) (flag written : Bool) : Bool :=
  flag && (!written || Tab.get none s.flagSet k == some s.tb)

end Sys2Proof.Machine
end

