-- ==== Sys2Proof/Machine/FieldOps.lean ====
section
/-! DEFINITION. The field side: its parts, its configuration in force, pulse frames and slots, group
supplies, gates and phases (chapters 2, 3 and 9). -/

namespace Sys2Proof.Machine

/-! ### Parts -/

/-- FIELD has power. -/
def State.fieldOn (s : State) : Bool := s.powered 7 && !s.pwr.fieldFell

def State.seq (s : State) : Side → Seq
  | .a => s.fld.seqA
  | .b => s.fld.seqB

def State.setSeq (s : State) (q : Side) (v : Seq) : State :=
  match q with
  | .a => { s with fld := { s.fld with seqA := v } }
  | .b => { s with fld := { s.fld with seqB := v } }

/-- The sequencer runs. -/
def State.lives (s : State) (q : Side) : Bool := s.fieldOn && decide ((s.seq q).st = .alive)

def State.term (s : State) (q : Side) (t : Nat) : Term := Tab.get .low s.fld.terms (sideNat q * 256 + t)

def State.setTerm (s : State) (q : Side) (t : Nat) (v : Term) : State :=
  { s with fld := { s.fld with terms := Tab.set .low s.fld.terms (sideNat q * 256 + t) v } }

def State.inp (s : State) (q : Side) (n : Nat) : SeqIn := Tab.get .start s.fld.ins (sideNat q * 192 + n)

def State.setInp (s : State) (q : Side) (n : Nat) (v : SeqIn) : State :=
  { s with fld := { s.fld with ins := Tab.set .start s.fld.ins (sideNat q * 192 + n) v } }

def State.fcnt (s : State) (q : Side) (m : Nat) : SeqCnt :=
  Tab.get .start s.fld.cnts (sideNat q * 128 + m)

def State.setFcnt (s : State) (q : Side) (m : Nat) (v : SeqCnt) : State :=
  { s with fld := { s.fld with cnts := Tab.set .start s.fld.cnts (sideNat q * 128 + m) v } }

def State.grp (s : State) (q : Side) (g : Nat) : SeqGroup :=
  Tab.get .start s.fld.groups (sideNat q * 8 + g)

def State.setGrp (s : State) (q : Side) (g : Nat) (v : SeqGroup) : State :=
  { s with fld := { s.fld with groups := Tab.set .start s.fld.groups (sideNat q * 8 + g) v } }

def State.fout (s : State) (k : Nat) : FOut := Tab.get .start s.fld.outs k

def State.setFout (s : State) (k : Nat) (v : FOut) : State :=
  { s with fld := { s.fld with outs := Tab.set .start s.fld.outs k v } }

def State.updFout (s : State) (k : Nat) (f : FOut → FOut) : State := s.setFout k (f (s.fout k))

/-! ### Pulse frames and slots (R41, R42) -/

/-- Frame period, slot and the offsets of slot `k`'s pulse in ticks. -/
def FieldCfg.period (c : FieldCfg) : Nat := ticksUs (16000 * 2 ^ bf c.frameCfg 1 0)
def FieldCfg.slot (c : FieldCfg) : Nat := ticksUs (250 * 2 ^ bf c.frameCfg 1 0)
def FieldCfg.width (c : FieldCfg) : Nat := bf c.frameCfg 17 8
def FieldCfg.beginOff (c : FieldCfg) (k : Nat) : Nat :=
  k * c.slot + ticksUs ((250 * 2 ^ bf c.frameCfg 1 0 - c.width) / 2)
def FieldCfg.endOff (c : FieldCfg) (k : Nat) : Nat := c.beginOff k + ticksUs c.width

/-- Offset in the frame of a point of slot `k`. -/
def FieldCfg.pointOff (c : FieldCfg) (k : Nat) : PulsePoint → Nat
  | .b => c.beginOff k
  | .b30 => c.beginOff k + 6000
  | .e => c.endOff k
  | .e30 => c.endOff k + 6000

/-- Frame to whose pulse in slot `k` an instant belongs, and its offset in that frame: what follows the
pulse of slot 63 may reach into the next frame. -/
def FieldCfg.inFrame (c : FieldCfg) (k x : Nat) : Nat × Nat :=
  if c.period ≤ x ∧ x % c.period + c.period < c.endOff k + 20000
  then (x / c.period - 1, x % c.period + c.period) else (x / c.period, x % c.period)

/-- The frame of `inFrame` is even (R42). -/
def FieldCfg.evenAt (c : FieldCfg) (k x : Nat) : Bool := (c.inFrame k x).1 % 2 == 0

/-- Where an instant lies against the pulse of a slot. -/
inductive Zone where
  | outside
  /-- `b` to `b` + 30 µs -/
  | lead
  /-- `b` + 30 µs to `e` -/
  | win
  /-- `e` to `e` + 30 µs -/
  | tail
  deriving DecidableEq, Repr

def FieldCfg.zone (c : FieldCfg) (k x : Nat) : Zone :=
  let p := (c.inFrame k x).2
  if p < c.beginOff k then .outside
  else if p < c.beginOff k + 6000 then .lead
  else if p < c.endOff k then .win
  else if p < c.endOff k + 6000 then .tail
  else .outside

def FieldCfg.slotOf (c : FieldCfg) (x : Nat) : Nat := x % c.period / c.slot
def FieldCfg.frameOf (c : FieldCfg) (x : Nat) : Nat := x / c.period

/-! ### Group supplies (R72) -/

def GroupSt.worse (x y : GroupSt) : GroupSt := if x.code < y.code then y else x

/-- The state of a group: the worse of what the running sequencers form. -/
def State.groupSt (s : State) (g : Nat) : GroupSt :=
  match s.lives .a, s.lives .b with
  | true, false => (s.grp .a g).st
  | false, true => (s.grp .b g).st
  | _, _ => (s.grp .a g).st.worse (s.grp .b g).st

/-- ABSENT or REVERSED. -/
def State.groupDead (s : State) (g : Nat) : Bool := decide (2 ≤ (s.groupSt g).code)

/-! ### Configuration of inputs and outputs -/

/-- FLD_ICFG in force: an expected source changes with the pulse frames (R53). -/
def State.icfg (s : State) (n : Nat) : Word :=
  let new := nth s.fld.cfg.icfg n 0
  let old := nth s.fld.pulseCfg.icfg n 0
  if bf new 31 30 = 1 ∨ bf old 31 30 = 1 then old else new

/-- Debounce time in µs. -/
def State.debounceUs (s : State) (n : Nat) : Nat := bf (nth s.fld.cfg.icfg n 0) 15 0

/-- The output whose Q+ input `n` expects. -/
def State.sourceOf (s : State) (n : Nat) : Option Nat :=
  if bf (s.icfg n) 31 30 = 1 then some (bf (s.icfg n) 21 16) else none

/-- Inputs configured: 128 to 191 only for single-pole outputs (R51). -/
def State.inUse (s : State) (n : Nat) : Bool :=
  decide (n < s.fld.cfg.icfg.length) && (decide (n < 128) || s.fld.cfg.pole.getLsbD (n - 128))

def State.inputsInUse (s : State) : List Nat :=
  (List.range s.fld.cfg.icfg.length).filter s.inUse

def State.ocfg (s : State) (k : Nat) : Word := nth s.fld.cfg.ocfg k 0
def State.outUsed (s : State) (k : Nat) : Bool := bitOf (s.ocfg k) 31
def State.outHold (s : State) (k : Nat) : Bool := bitOf (s.ocfg k) 29
def State.outLsense (s : State) (k : Nat) : Bool := bitOf (s.ocfg k) 28
def State.single (s : State) (k : Nat) : Bool := s.fld.cfg.pole.getLsbD k
def State.sonly (s : State) (k : Nat) : Bool := s.fld.cfg.sonly.getLsbD k
def State.designated (s : State) (k : Nat) : Bool := s.fld.pulseCfg.src.getLsbD k

/-! ### Gates and phases (R40, R225, R227) -/

/-- A switch can close: both sequencers run, or the one that runs is in SOLO (R43, R225). -/
def State.canClose (s : State) : Bool :=
  match s.lives .a, s.lives .b with
  | false, false => false
  | true, true => true
  | a, _ => (s.seq (if a then .a else .b)).solo

/-- In a gate-hold, the high-side and the low-side gate that was open as the sequencer stopped stays open, a dark
pulse in progress apart (Table 9.3). -/
def State.hiHeld (s : State) (k : Nat) : Bool :=
  !s.canClose && !((s.fout k).memHi || (s.fout k).pulse == .dark)

def State.loHeld (s : State) (k : Nat) : Bool :=
  !s.canClose && !s.single k && !s.sonly k && !((s.fout k).memLo || (s.fout k).pulse == .lsDark)

/-- Table 9.3: what the two sequencers make of the image bit. In a gate-hold an output is ON while a gate of it
follows the image; one that is held open closes with SOLO. -/
def State.gateOn (s : State) (k : Nat) : Bool :=
  let o := s.fout k
  if !(s.lives .a || s.lives .b) then false
  else if s.canClose then o.img
  else o.img && !o.holdOver && (!s.hiHeld k || (!s.loHeld k && !s.single k && !s.sonly k))

/-- ON is to be applied, silence apart. -/
def State.wantLoud (s : State) (k : Nat) : Bool :=
  s.outUsed k && s.gateOn k && (s.fout k).cause == 0 && s.fld.accepted.isSome &&
    !decide (s.groupSt (k / 8) = .reversed)

/-- ON is to be applied. -/
def State.wantOn (s : State) (k : Nat) : Bool :=
  s.wantLoud k && (s.fld.silent.isNone || (s.outHold k && !(s.fout k).silOpen))

/-- Phase of an output whose switches are open (Table 2.2, R49, R230). -/
def State.offPhase (s : State) (k : Nat) : Phase :=
  let o := s.fout k
  if s.designated k && (o.cause == 0 || o.retest.isSome) && !s.groupDead (k / 8) then .source
  else .idle

end Sys2Proof.Machine
end

