-- ==== Sys2Proof/Machine/Timers.lean ====
section
/-! DEFINITION. The timebase and the timers (chapter 13). A command that arrives between two ticks is a
write applied after the step of the present tick (R282). -/

namespace Sys2Proof.Machine

def State.timer (s : State) (n : Nat) : Timer := Tab.get .unused s.tmr.timers n

def State.setTimer (s : State) (n : Nat) (t : Timer) : State :=
  { s with tmr := { s.tmr with timers := Tab.set .unused s.tmr.timers n t } }

def State.updTimer (s : State) (n : Nat) (f : Timer → Timer) : State := s.setTimer n (f (s.timer n))

def Timer.kind (t : Timer) : Nat := bf t.cfg 31 28
def Timer.owner (t : Timer) : Nat := bf t.cfg 27 18
def Timer.casc (t : Timer) : Bool := bitOf t.cfg 17
def Timer.freeze (t : Timer) : Bool := bitOf t.cfg 16
def Timer.presc (t : Timer) : Nat := bf t.cfg 15 0 + 1
def Timer.capKind (t : Timer) : Nat := bf t.src 31 29
def Timer.capEdge (t : Timer) : Nat := bf t.src 28 27
def Timer.capArg (t : Timer) : Nat := bf t.src 23 12

/-- Timer `n` + 1 is the upper timer of timer `n` (R286), both in shadow or neither (R292). -/
def State.linked (s : State) (n : Nat) : Bool :=
  (s.timer (n + 1)).casc && (s.timer (n + 1)).shadowed == (s.timer n).shadowed

/-- Lowest timer of the chain that holds timer `n`. -/
def State.chainLow (s : State) : Nat → Nat
  | 0 => 0
  | n + 1 => if s.linked n then s.chainLow n else n + 1

/-- Timers of the chain above `n`, `k` the timers that may still follow. -/
def State.chainAbove (s : State) (n : Nat) : Nat → List Nat
  | 0 => []
  | k + 1 => if s.linked n then (n + 1) :: s.chainAbove (n + 1) k else []

/-- The chain of timer `n`, lowest first (R286). -/
def State.chain (s : State) (n : Nat) : List Nat :=
  let l := s.chainLow n
  l :: s.chainAbove l (63 - l)

/-- Timer `n` has an upper timer. -/
def State.isLower (s : State) (n : Nat) : Bool := decide (n < 63) && s.linked n

/-- The engine on which an instance of the running or staged image runs: the one that carries it, or, until
its record has moved, the draining one (R128, R281). -/
def State.carrier (s : State) (st : Bool) (i : Nat) : Option Nat :=
  (Tab.get none s.eng.insts (if st then 1024 + i else i)).bind fun v =>
    match v.moving, v.from_ with
    | true, some e => if (Tab.get .start s.eng.engines e).st = .draining then some e else v.engine
    | _, _ => v.engine

/-- R281: the writer owns the timer; a staged instance owns none that runs for the running image (R292). -/
def Timer.owned (t : Timer) : Agent → Bool
  | .porch => t.kind == 3
  | .engine e => t.kind == 2 && t.owner % 8 == e.val
  | .inst st i => t.kind == 1 && t.owner == i.val && t.shadowed == st

/-- R290: the engine that owns the timer is attached and halted. -/
def State.frozen (s : State) (n : Nat) : Bool :=
  let t := s.timer n
  let e? := if t.kind = 1 then s.carrier t.shadowed t.owner else if t.kind = 2 then some (t.owner % 8) else none
  match e? with
  | none => false
  | some e =>
    t.freeze && decide (s.eng.attached = some e) && (Tab.get .start s.eng.engines e).halted

/-- Captures the count of the present tick, the tick of the end included (R289, Table 13.2). -/
def State.capture (s : State) (n : Nat) : State :=
  let t := s.timer n
  let counts := t.st == .running || (t.st == .done && t.endAt == some s.tb)
  if counts && !s.frozen n && !(t.capStamp == some s.tb) then
    if t.queue.length < 4
    then s.setTimer n { t with queue := t.queue ++ [t.count], capStamp := some s.tb }
    else (s.setTimer n { t with capovf := true, capStamp := some s.tb }).noteFlag (timerFlag n 4)
  else s

/-- Every timer whose capture source is the one given takes a capture (R289). -/
def State.captureFrom (s : State) (kind : Nat) (arg : Nat → Bool) (edge : Nat → Bool)
    (who : Timer → Bool := fun _ => true) : State :=
  s.tmr.timers.foldl (fun acc e =>
    if e.2.capKind == kind && arg e.2.capArg && edge e.2.capEdge && who e.2 then acc.capture e.1 else acc) s

/-- An edge code accepts a rise or a fall. -/
def edgeTakes (rise : Bool) (code : Nat) : Bool := code == 2 || (code == 0) == rise

/-- What fires in a running timer at the present tick: compares at or below the count, once in a run
(R284). -/
def Timer.due (t : Timer) : Timer :=
  if t.st = .running then
    let f0 := bitOf t.src 24 && !t.fired0 && decide (t.cmp0 ≤ t.count ∧ t.cmp0 ≤ t.period)
    let f1 := bitOf t.src 25 && !t.fired1 && decide (t.cmp1 ≤ t.count ∧ t.cmp1 ≤ t.period)
    { t with cmpDue0 := t.cmpDue0 || f0, cmpDue1 := t.cmpDue1 || f1,
             fired0 := t.fired0 || f0, fired1 := t.fired1 || f1 }
  else t

/-- A run begins with count 0. -/
def Timer.newRun (t : Timer) : Timer :=
  { t with count := 0, fired0 := false, fired1 := false, late := false, endAt := none }

/-- A lower timer wraps: its run has an end event, and the next one begins at count 0 (R287). -/
def Timer.wrap (t : Timer) (now : Nat) : Timer :=
  ({ t.due.newRun with endDue := true, endAt := some now }).due

/-- The top timer of a chain, or a timer alone, is at its end: it and every timer below enter DONE with the
count that they have, and its end event is raised (R283, R287). -/
def State.endStop (s : State) (n : Nat) : State :=
  ((s.chain n).foldl (fun acc j =>
    acc.updTimer j fun x => { x with st := .done, late := false, endAt := some s.tb }) s).updTimer n
      fun t => { t with endDue := true }

/-- Releases an ARMED timer or chain (R282, R283): its count is 0 on this tick. -/
def State.releaseTimer (s : State) (n : Nat) : State :=
  let l := s.chain n
  let s1 := l.foldl (fun acc j =>
    acc.updTimer j fun t => ({ t with st := .running, phase := 0, latched := false }.newRun).due) s
  let top := (l.getLast?).getD n
  if (s1.timer top).period = 0 then s1.endStop top else s1

/-- R282: to ARMED with count 0. -/
def Timer.arm (t : Timer) : Timer :=
  { t with st := .armed, count := 0, phase := 0, queue := [], endDue := false, cmpDue0 := false,
           cmpDue1 := false, late := false, fired0 := false, fired1 := false, endAt := none }

/-- R282: to IDLE. -/
def Timer.toIdle (t : Timer) : Timer :=
  { t with st := .idle, queue := [], endDue := false, cmpDue0 := false, cmpDue1 := false,
           late := false, latched := false }

/-- R281, R291, R292: to IDLE with flags and queue cleared. -/
def Timer.cleared (t : Timer) : Timer :=
  { t.toIdle with count := 0, terr := false, gomiss := false, capovf := false, cf0 := false,
                  cf1 := false, phase := 0 }

/-- A control bit reaches the chain through its lowest timer only (R287). -/
def State.onChain (s : State) (n : Nat) (f : Timer → Timer) : State :=
  if s.chainLow n = n then (s.chain n).foldl (fun acc j => acc.updTimer j f) s else s

def State.tmrPop (s : State) (w : Agent) (n : Nat) : State :=
  if (s.timer n).owned w then s.updTimer n fun t => { t with queue := t.queue.drop 1 } else s

def State.tmrCapsw (s : State) (w : Agent) (n : Nat) : State :=
  if (s.timer n).owned w then s.capture n else s

def State.tmrStop (s : State) (w : Agent) (n : Nat) : State :=
  if (s.timer n).owned w then s.onChain n Timer.toIdle else s

def State.tmrArm (s : State) (w : Agent) (n : Nat) : State :=
  if (s.timer n).owned w then s.onChain n Timer.arm else s

/-- R282, R285: a release of a timer that is not ARMED sets GOMISS. -/
def State.startOne (s : State) (n : Nat) : State :=
  if s.chainLow n ≠ n then s
  else if (s.timer n).st = .armed then s.releaseTimer n
  else (s.updTimer n fun t => { t with gomiss := true }).noteFlag (timerFlag n 5)

def State.tmrStart (s : State) (w : Agent) (n : Nat) : State :=
  if (s.timer n).owned w then s.startOne n else s

/-- R285: TMR_GO, both words on one tick. -/
def State.tmrGo (s : State) (w : Agent) (lo hi : Word) : State :=
  (List.range 64).foldl (fun acc n =>
    if (if n < 32 then lo.getLsbD n else hi.getLsbD (n - 32)) then acc.tmrStart w n else acc) s

/-- Index of a reader (R279, R288): 0 the porch, e + 1 engine e; an instance that no engine carries reads
nothing. -/
def State.reader (s : State) : Agent → Option Nat
  | .porch => some 0
  | .engine e => some (e.val + 1)
  | .inst st i => (s.carrier st i.val).map (· + 1)

def State.readerSt (s : State) (r : Nat) : TmrReader := Tab.get .fresh s.tmr.readers r

def State.setReader (s : State) (r : Nat) (v : TmrReader) : State :=
  { s with tmr := { s.tmr with readers := Tab.set .fresh s.tmr.readers r v } }

/-- R279: a read of TMR_TB_LO. -/
def State.tbRead (s : State) (w : Agent) : State :=
  match s.reader w with
  | none => s
  | some r => s.setReader r { s.readerSt r with tbHi := BitVec.ofNat 32 (s.tb / 2 ^ 32) }

/-- R288: TMR_SNAP, both words on one tick. -/
def State.tmrSnap (s : State) (w : Agent) (lo hi : Word) : State :=
  match s.reader w with
  | none => s
  | some r =>
  let v := s.readerSt r
  let sc := (List.range 64).foldl (fun acc n =>
    if (if n < 32 then lo.getLsbD n else hi.getLsbD (n - 32))
    then Tab.set 0#32 acc n (s.timer n).count else acc) v.scnt
  s.setReader r { v with snapTb := BitVec.ofNat 64 s.tb, scnt := sc }

/-- R283, R287: TMR_PERIOD written by the owner. -/
def State.periodWrite (s : State) (w : Agent) (n : Nat) (v : Word) : State :=
  if (s.timer n).owned w then
    s.updTimer n fun t =>
      { t with period := v, late := decide (t.st = .running) && decide (v ≤ t.count) }
  else s

/-- R284: a compare register written by the owner. -/
def State.compareWrite (s : State) (w : Agent) (n : Nat) (one : Bool) (v : Word) : State :=
  if (s.timer n).owned w then
    s.updTimer n fun t => if one then { t with cmp1 := v } else { t with cmp0 := v }
  else s

/-- TMR_STAT W1C flags, for the owner (R281, R294). -/
def State.statWrite (s : State) (w : Agent) (n : Nat) (v : Word) : State :=
  if (s.timer n).owned w then
    s.updTimer n fun t =>
      { t with terr := s.w1c (timerFlag n 6) t.terr (bitOf v 6),
               gomiss := s.w1c (timerFlag n 5) t.gomiss (bitOf v 5),
               capovf := s.w1c (timerFlag n 4) t.capovf (bitOf v 4),
               cf1 := s.w1c (timerFlag n 3) t.cf1 (bitOf v 3),
               cf0 := s.w1c (timerFlag n 2) t.cf0 (bitOf v 2) }
  else s

/-- R175, R176: a trigger reaches converter `c`: it releases the entry that waits, or sets TMISS. -/
def State.cnvTrigger (s : State) (c : Nat) : State :=
  let v := Tab.get .start s.cnv.convs c
  let img := s.fld.cfg.convs.find? fun x => x.conv == c
  let waits := match img with
    | none => false
    | some i => decide (bf i.cfg 1 0 = 2) && bitOf (nth i.list v.next 0) 4 && !v.release && !v.failed
  let v' := if waits then { v with release := true } else { v with tmiss := true }
  let s1 := { s with cnv := { s.cnv with convs := Tab.set .start s.cnv.convs c v' } }
  if waits then s1 else s1.noteFlag (tmissFlag c)

/-- Every converter that a source triggers (R175): 1 CNV_GO, 2 timer `n`. -/
def State.triggerAll (s : State) (src : Nat) (sel : ConvImg → Bool) : State :=
  s.fld.cfg.convs.foldl (fun acc i =>
    if decide (bf i.cfg 3 2 = src) && sel i then acc.cnvTrigger i.conv else acc) s

/-- One step of the running timer `n`, `k` the timers that may stand above it: a lower timer counts or
wraps, and its wrap is one count of its upper timer on the same tick; the top timer counts, and ends with the
chain (R283, R286, R287). -/
def State.count1 (s : State) (n : Nat) : Nat → State
  | 0 => s
  | k + 1 =>
    let t := s.timer n
    if s.isLower n then
      if t.late || !decide (t.count < t.period) then
        let s1 := s.setTimer n (t.wrap s.tb)
        if (s1.timer (n + 1)).st = .running then s1.count1 (n + 1) k else s1
      else s.setTimer n ({ t with count := t.count + 1 }).due
    else if t.late then (s.setTimer n t.due).endStop n
    else
      let t1 := { t with count := t.count + 1 }.due
      let s1 := s.setTimer n t1
      if t1.count = t1.period then s1.endStop n else s1

/-- The effects of the end event of timer `n`, taken: its owner is notified, and its captures and converters
follow; a timer in shadow reaches staged consumers only (R283, R289, R292). -/
def State.takeEnd (s : State) (n : Nat) : State :=
  let t := s.timer n
  let s1 := s.setTimer n { t with endDue := false, ends := t.ends + 1 }
  let s2 := s1.captureFrom 4 (fun a => a % 64 == n) (fun _ => true) (fun x => x.shadowed == t.shadowed)
  if t.shadowed then s2 else s2.triggerAll 2 (fun i => bf i.cfg 21 16 == n)

/-- R280: the two counters of a timer disagree. -/
def State.takeTerr (s : State) (n : Nat) : State :=
  let s1 := (s.chain n).foldl (fun acc j => acc.updTimer j Timer.toIdle) s
  ((s1.updTimer n fun t => { t with terr := true }).noteFlag (timerFlag n 6)).record 0x0D01 2
    [BitVec.ofNat 8 n]

/-- R284: a compare fires. -/
def State.takeCompare (s : State) (n : Nat) (one : Bool) : State :=
  (s.updTimer n fun t =>
    if one then { t with cf1 := true, cmpDue1 := false } else { t with cf0 := true, cmpDue0 := false }).noteFlag
      (timerFlag n (if one then 3 else 2))

/-- Takes what is due in timer `n` at the present tick; a frozen timer raises nothing (R290). -/
def State.takeDue (s : State) (n : Nat) : State :=
  if s.frozen n then s
  else
  let s1 := if (s.timer n).cmpDue0 then s.takeCompare n false else s
  let s2 := if (s1.timer n).cmpDue1 then s1.takeCompare n true else s1
  if (s2.timer n).endDue then s2.takeEnd n else s2

/-- Takes all that the step of the present tick has raised: it comes before every write and every read of
that tick (R282, R288, R293). -/
def State.takeDues (s : State) : State := (s.tmr.timers.map Prod.fst).foldl State.takeDue s

/-- One tick of one timer (R280, R282, R290). An upper timer counts with the timer below it; a period
written at or below the count ends it, or wraps it, at this tick. -/
def State.stepTimer (s : State) (n : Nat) : State :=
  let t := s.timer n
  let upper := decide (0 < n) && s.linked (n - 1)
  if t.latched then s.releaseTimer n
  else if t.st ≠ .running || s.frozen n then s
  else if t.late then (s.setTimer n { t with phase := 0 }).count1 n 64
  else if upper then s.setTimer n t.due
  else
    let ph := t.phase + 1
    if ph < t.presc then s.setTimer n { t with phase := ph }.due
    else (s.setTimer n { t with phase := 0 }).count1 n 64

/-- The timers' part of one tick: what is still due is taken, TB advances, each timer steps. -/
def State.tmrTick (s : State) : State :=
  let s1 := s.takeDues
  (s1.tmr.timers.map Prod.fst).foldl State.stepTimer { s1 with tb := s1.tb + 1 }

/-! ### The commands -/

def execTbRead (w : Agent) (s : State) : Host.Outcome State Fault Refusal :=
  .next (if s.alive then s.tbRead w else s)

def execTmrGo (w : Agent) (lo hi : Word) (s : State) : Host.Outcome State Fault Refusal :=
  .next (if s.alive then s.takeDues.tmrGo w lo hi else s)

def execTmrSnap (w : Agent) (lo hi : Word) (s : State) : Host.Outcome State Fault Refusal :=
  .next (if s.alive then s.takeDues.tmrSnap w lo hi else s)

def execPop (w : Agent) (n : Fin 64) (s : State) : Host.Outcome State Fault Refusal :=
  .next (if s.alive then s.takeDues.tmrPop w n.val else s)

def execCapsw (w : Agent) (n : Fin 64) (s : State) : Host.Outcome State Fault Refusal :=
  .next (if s.alive then s.takeDues.tmrCapsw w n.val else s)

def execStop (w : Agent) (n : Fin 64) (s : State) : Host.Outcome State Fault Refusal :=
  .next (if s.alive then s.takeDues.tmrStop w n.val else s)

def execArm (w : Agent) (n : Fin 64) (s : State) : Host.Outcome State Fault Refusal :=
  .next (if s.alive then s.takeDues.tmrArm w n.val else s)

def execStart (w : Agent) (n : Fin 64) (s : State) : Host.Outcome State Fault Refusal :=
  .next (if s.alive then s.takeDues.tmrStart w n.val else s)

def execPeriodWrite (w : Agent) (n : Fin 64) (v : Word) (s : State) :
    Host.Outcome State Fault Refusal :=
  .next (if s.alive then s.takeDues.periodWrite w n.val v else s)

def execCompareWrite (w : Agent) (n : Fin 64) (one : Bool) (v : Word) (s : State) :
    Host.Outcome State Fault Refusal :=
  .next (if s.alive then s.takeDues.compareWrite w n.val one v else s)

/-- END_EVENT: the end event that is due is taken, or the two counters of a running timer are found to
differ (R280, R283). -/
def execEndEvent (n : Fin 64) (differ : Bool) (s : State) : Host.Outcome State Fault Refusal :=
  .next <|
    if !s.alive || s.frozen n.val then s
    else if differ then
      (if (s.timer n.val).st = .running || (s.timer n.val).endAt == some s.tb then s.takeTerr n.val else s)
    else if (s.timer n.val).endDue then s.takeEnd n.val else s

/-- COMPARE: the compare that is due fires (R284). -/
def execCompare (n : Fin 64) (one : Bool) (s : State) : Host.Outcome State Fault Refusal :=
  .next <|
    if !s.alive || s.frozen n.val then s
    else if (if one then (s.timer n.val).cmpDue1 else (s.timer n.val).cmpDue0) then
      s.takeCompare n.val one
    else s

/-- A start latch of a running or staged room rises or falls (R291, R292). -/
def State.startLatch (s : State) (st : Bool) (room latch : Nat) (rise : Bool) : State :=
  s.tmr.timers.foldl (fun acc e =>
    let t := acc.timer e.1
    if t.kind = 4 && t.shadowed == st && bf t.src 11 6 == room && bf t.src 5 0 == latch then
      acc.onChain e.1 fun x =>
        if rise then { x.arm with latched := true } else { x.toIdle with cf0 := false, cf1 := false }
    else acc) s.takeDues

/-- R281: the timers of an instance that is shed or restored from its parameters, flags and queue cleared. -/
def State.dropTimers (s : State) (st : Bool) (i : Nat) : State :=
  s.tmr.timers.foldl (fun acc e =>
    let t := acc.timer e.1
    if t.kind = 1 && t.owner == i && t.shadowed == st then acc.setTimer e.1 t.cleared else acc) s.takeDues

/-- R281: the timers of an engine that is joined. -/
def State.idleTimers (s : State) (e : Nat) : State :=
  s.tmr.timers.foldl (fun acc x =>
    let t := acc.timer x.1
    if t.kind = 2 && t.owner % 8 == e then acc.setTimer x.1 t.toIdle else acc) s.takeDues

end Sys2Proof.Machine
end

