-- ==== Sys2Proof/Machine/Reads.lean ====
section
/-! DEFINITION. What the logic side reads: latches of the sea, outputs of instances, bits of consumed
connections, timers, formed inputs; the output matrix and its trip latches (R15 to R19, R82, R83,
R125). -/

namespace Sys2Proof.Machine

/-- The image of the running content, or the staged one. -/
def State.img (s : State) (st : Bool) : Option Image := if st then s.cfg.staged else s.cfg.image

def instKey (st : Bool) (i : Nat) : Nat := if st then 1024 + i else i
def roomKey (st : Bool) (i : Nat) : Nat := if st then 64 + i else i
def trigKey (st : Bool) (t : Nat) : Nat := if st then 32 + t else t
def consKey (st : Bool) (k : Nat) : Nat := if st then 512 + k else k

def State.inst (s : State) (st : Bool) (i : Nat) : Option Inst :=
  Tab.get none s.eng.insts (instKey st i)

def State.setInst (s : State) (st : Bool) (i : Nat) (v : Option Inst) : State :=
  { s with eng := { s.eng with insts := Tab.set none s.eng.insts (instKey st i) v } }

def State.instImg (s : State) (st : Bool) (i : Nat) : Option InstImg :=
  (s.img st).bind fun m => m.insts.find? fun x => x.num == i

def State.roomImg (s : State) (st : Bool) (i : Nat) : Option RoomImg :=
  (s.img st).bind fun m => m.rooms.find? fun x => x.iroom == i

def State.room (s : State) (r : Nat) : Room := Tab.get .start s.sea.rooms r

def State.setRoom (s : State) (r : Nat) (v : Room) : State :=
  { s with sea := { s.sea with rooms := Tab.set .start s.sea.rooms r v } }

def State.irm (s : State) (key : Nat) : IRoom := Tab.get .none s.sea.imap key

def State.setIrm (s : State) (key : Nat) (v : IRoom) : State :=
  { s with sea := { s.sea with imap := Tab.set .none s.sea.imap key v } }

def State.cons (s : State) (key : Nat) : Cons := Tab.get .start s.lnk.cons key

/-! ### Outputs of instances -/

/-- A function output as committed last; demand while the hold is lost or the instance is shed
(R127, R247). -/
def State.instOut (s : State) (st : Bool) (i o : Nat) : Bool :=
  match s.inst st i with
  | none => false
  | some v => !v.safe && v.st.outs.getLsbD o

/-- The same as committed before the present tick (R110). -/
def State.instOutBefore (s : State) (st : Bool) (i o : Nat) : Bool :=
  match s.inst st i with
  | none => false
  | some v => !v.safe && (if v.lastAt = s.tb then v.prevOuts else v.st.outs).getLsbD o

/-! ### Latches of the sea -/

/-- Demand value of a latch. -/
def RoomImg.latchDemand (m : RoomImg) (l : Nat) : Bool :=
  ((m.latches.find? fun x => x.latch == l).map LatchImg.demand).getD false

/-- What consumers see of a latch (R83, R92, R95); `before` asks for the value latched before the
present tick (R15). DESIGN CHOICE (log 81): a latch that the image does not define reads 0, and a room
may read its own latch. -/
def State.latchAs (s : State) (st : Bool) (ir l : Nat) (before : Bool) : Bool :=
  match s.roomImg st ir with
  | none => false
  | some m =>
    let v := s.irm (roomKey st ir)
    if before && v.wasAt == some s.tb then Tab.get false v.was l
    else if v.demand then m.latchDemand l
    else if v.failedAt.isSome then Tab.get false v.frozen l
    else
      match v.room with
      | none => m.latchDemand l
      | some r =>
        let c := (s.room r).cells
        if before && c.latchAt == s.tb then Tab.get false c.prev l
        else if c.committed then Tab.get false c.latches l else m.latchDemand l

def State.latch (s : State) (st : Bool) (ir l : Nat) : Bool := s.latchAs st ir l false

/-! ### Bits of consumed connections -/

/-- Bit `b` of a payload (Table 17.3). -/
def payloadBit (p : List Byte) (b : Nat) : Bool := (nth p (b / 8) 0#8).getLsbD (b % 8)

def State.connBit (s : State) (st : Bool) (k b : Nat) : Bool :=
  payloadBit (s.cons (consKey st k)).val b

def State.connBitBefore (s : State) (st : Bool) (k b : Nat) : Bool :=
  let c := s.cons (consKey st k)
  payloadBit (if c.valAt = s.tb then c.prev else c.val) b

def State.consImg (s : State) (st : Bool) (k : Nat) : Option ConsImg :=
  ((s.img st).bind Image.fabric).bind fun f => f.consumed[k]?

/-- The same as a P2 instance reads it: a connection of CLASS 1 gives it the control value (R375). -/
def State.connBitP2 (s : State) (st : Bool) (k b : Nat) : Bool :=
  let c := Tab.get Ctl.none s.lnk.control (consKey st k)
  if c.val.isEmpty || !((s.consImg st k).any ConsImg.control) then s.connBitBefore st k b
  else payloadBit (if c.valAt = s.tb then c.prev else c.val) b

/-! ### Formed inputs -/

/-- What was formed of input `n` last, or before the present tick (R16). -/
def State.form (s : State) (n : Nat) : InForm := Tab.get .start s.lgc.ins n

def State.formBefore (s : State) (n : Nat) : InForm :=
  Tab.get .start (if s.lgc.formedAt = s.tb then s.lgc.insWas else s.lgc.ins) n

/-- R70: the held value of an input INVALID for want of a supply, if the hold runs. -/
def InForm.held (f : InForm) (ride now began : Nat) : Option Bool :=
  match f.sagAt, f.lastAt with
  | some t, some l => if began ≤ l && now < t + ticksMs ride then some f.lastVal else none
  | _, _ => none

/-! ### Sea-owned timers at a port (R291) -/

/-- What a port of kind 5 reads; none while TERR is set. A timer in shadow does not reach the running image
(R292). -/
def State.timerBit (s : State) (st : Bool) (n e : Nat) : Option Bool :=
  let t := s.timer n
  if t.shadowed && !st then some false
  else if t.terr then none
  else
    match e with
    | 0 => some (decide (t.st = .done))
    | 1 => some t.cf0
    | _ => some t.cf1

/-! ### The output matrix (R19) -/

/-- Words of the output in an image: FLD_OCFG, FLD_OSRCA, FLD_OSRCB. -/
def Image.ow (m : Image) (k : Nat) : Word := nth m.ocfg k 0
def Image.oa (m : Image) (k : Nat) : Word := nth m.osrca k 0
def Image.ob (m : Image) (k : Nat) : Word := nth m.osrcb k 0

/-- The AND of an output's sources, trip latches apart. -/
def State.command (s : State) (st : Bool) (k : Nat) : Bool :=
  match s.img st with
  | none => false
  | some m =>
    let w := m.ow k
    let a := m.oa k
    let b := m.ob k
    bitOf w 31 && bf w 27 24 != 0 &&
      (!bitOf w 24 || s.latch st (bf a 31 26) (bf a 25 20)) &&
      (!bitOf w 25 || s.instOut st (bf b 25 16) (bf b 3 0)) &&
      (!bitOf w 26 || s.connBit st (bf a 16 9) (bf a 8 0))

def State.trips (s : State) : Side → List TripLatch
  | .a => s.lgc.tripA
  | .b => s.lgc.tripB

/-- The outputs of the running image that take the trip masks as a source (FLD_OCFG SRC bit 27, R19). -/
def State.tripSourced (s : State) (k : Nat) : Bool :=
  match s.img false with
  | some m => bitOf (m.ow k) 27
  | none => false

/-- The command of one matrix copy; OFF for every output until start-up starts the windows (R19, R268). -/
def State.matrix (s : State) (q : Side) (k : Nat) : Bool :=
  s.command false k && decide (9 ≤ s.pwr.step) &&
    !(s.tripSourced k && (s.trips q).any fun x => x.out == k)

/-- The half's ENG domain is powered and start-up has released its parts (Table 12.5). -/
def State.halfIn (s : State) (q : Side) : Bool :=
  s.powered (engDom q) && decide (5 ≤ s.pwr.step) && !([1, 2, 6].contains s.pwr.result)

/-- The matrix copy is in service. -/
def State.mx (s : State) (q : Side) : Bool := s.halfIn q && !s.lgc.mxOut.contains q

/-- The copy of the result memory is in service (R31, Table 12.4). -/
def State.memIn (s : State) (q : Side) : Bool := s.halfIn q && !s.cnv.memOut.contains q

/-- Both copies in service command the output OFF. -/
def State.bothOff (s : State) (k : Nat) : Bool :=
  [Side.a, Side.b].all fun q => !s.mx q || !s.matrix q k

/-- IMG of a downlink frame. -/
def State.image64 (s : State) (q : Side) : Long := mask64 (s.matrix q)

/-! ### Trip latches (R125) -/

def State.mask (s : State) (st : Bool) (t : Nat) : Mask := Tab.get .zero s.eng.masks (trigKey st t)

/-- The mask in force at a firing: a commit in the same tick adds its own. -/
def State.maskNow (s : State) (t : Nat) : Long :=
  let m := s.mask false t
  if m.tick = s.tb then m.mask ||| m.prev else m.mask

def addTrips (l : List TripLatch) (m : Long) (t : Nat) : List TripLatch :=
  (bits64 m).foldl (fun acc k =>
    if acc.contains { out := k, trig := t } then acc else acc ++ [{ out := k, trig := t }]) l

/-- Each copy in service latches every output that the mask names, and the firing is recorded with them (R125);
`matrix` says which of them the latch holds OFF (R19). A trigger whose mask is 0 is disarmed (R124). -/
def State.latchTrips (s : State) (t : Nat) (m : Long) : State :=
  if m = 0 then s
  else
    let s1 := { s with lgc := { s.lgc with
      tripA := if s.mx .a then addTrips s.lgc.tripA m t else s.lgc.tripA,
      tripB := if s.mx .b then addTrips s.lgc.tripB m t else s.lgc.tripB } }
    let owner := match s.img false with
      | some i => (i.trigs[t]?.map fun x => bf x.word 25 16).getD 0
      | none => 0
    s1.record 0x0704 3 ([BitVec.ofNat 8 t] ++ be16 owner ++ be64 m.toNat)

/-- A firing of trigger `t` reaches the logic side: the outputs of the mask in force are latched, and timers
capture it (R125). -/
def State.fire (s : State) (t : Nat) : State :=
  let s0 := s.captureFrom 3 (fun a => a % 32 == t) (fun _ => true)
  let masks := Tab.set .zero s0.eng.masks (trigKey false t) { s0.mask false t with fired := some s0.tb }
  ({ s0 with eng := { s0.eng with masks := masks } } : State).latchTrips t (s.maskNow t)

/-! ### Shadow comparison (R321) -/

/-- Outputs whose staged command differs from the running one now. -/
def State.differNow (s : State) : Long :=
  match s.cfg.staged with
  | none => 0
  | some _ => mask64 fun k => s.command true k != s.command false k

/-- CFG_DSEEN takes what differs now. -/
def State.seeDiffer (s : State) : State :=
  if s.cfg.staged.isSome then { s with cfg := { s.cfg with dseen := s.cfg.dseen ||| s.differNow } }
  else s

end Sys2Proof.Machine
end

