-- ==== Sys2Proof/Machine/ConvOps.lean ====
section
/-! DEFINITION. The converters on the field side and the result memory on the logic side
(chapter 7). -/

namespace Sys2Proof.Machine

def State.conv (s : State) (c : Nat) : Cnv1 := Tab.get .start s.cnv.convs c

def State.setConv (s : State) (c : Nat) (v : Cnv1) : State :=
  { s with cnv := { s.cnv with convs := Tab.set .start s.cnv.convs c v } }

def State.chan (s : State) (n : Nat) : Chan := Tab.get .start s.cnv.chans n

def State.setChan (s : State) (n : Nat) (v : Chan) : State :=
  { s with cnv := { s.cnv with chans := Tab.set .start s.cnv.chans n v } }

/-- Configuration of a converter, of a flat channel. -/
def State.convImg (s : State) (c : Nat) : Option ConvImg :=
  s.fld.cfg.convs.find? fun i => i.conv == c

def State.chImg (s : State) (n : Nat) : ChImg :=
  ((s.convImg (n / 8)).map fun i => nth i.chans (n % 8) { cfg := 0, band := 0, par := 0 }).getD
    { cfg := 0, band := 0, par := 0 }

def ChImg.confirm (c : ChImg) : Bool := bitOf c.cfg 28
def ChImg.maxage (c : ChImg) : Nat := bf c.cfg 13 0
def ChImg.hi (c : ChImg) : Int := sgn 16 (bf c.band 31 16)
def ChImg.lo (c : ChImg) : Int := sgn 16 (bf c.band 15 0)
def ChImg.owthr (c : ChImg) : Nat := bf c.par 31 16
def ChImg.hyst (c : ChImg) : Int := bf c.par 15 0

/-- R177: inside the band; back within the hysteresis. -/
def ChImg.inside (c : ChImg) (v : Int) : Bool := decide (c.lo ≤ v ∧ v ≤ c.hi)
def ChImg.backIn (c : ChImg) (v : Int) : Bool := decide (c.lo + c.hyst ≤ v ∧ v ≤ c.hi - c.hyst)

def convMode (i : ConvImg) : Nat := bf i.cfg 1 0
def convLen (i : ConvImg) : Nat := bf i.cfg 13 8

def patternLen (slices : Nat) : Nat := if slices = 3 then 9 else 3

/-- Table 9.7 code of the slices in service. -/
def slicesCode (n : Nat) : Nat := if 4 ≤ n then 2 else if n = 3 then 1 else 0

/-! ### What a converter measures (R170, R180) -/

/-- Resolution of a range in µV, or in nA for 0–20 mA, and the end of its measurable span (Table 7.1). -/
def resolution : Nat → Nat × Nat
  | 0 => (400, 13100000)
  | 1 => (800, 26200000)
  | _ => (40, 1310000)

/-- A signal beyond the measurable span of its range. -/
def saturated (x : Sample) (range : Nat) : Bool := decide ((resolution range).2 < x.sig.natAbs)

/-- The result of a signal: scaled by its range to the nearest count (DEDUCED, log 86), or a saturation
code. -/
def resultCode (x : Sample) (range : Nat) : Int :=
  let r := (resolution range).1
  if saturated x range then (if 0 ≤ x.sig then 32767 else -32768)
  else (2 * x.sig + r) / (2 * r)

def ChImg.range (c : ChImg) : Nat := bf c.cfg 31 30

/-- DIAG entries that start within 2 µs before their sample instant: their local channels, with the ticks
at which their pull-up and pull-down go on and off. `e` starts at `t`, at `phase` of the pattern. -/
def Cnv1.aim (v : Cnv1) (i : ConvImg) : Nat → Nat → Nat → Nat → List (Nat × Nat × Nat)
  | 0, _, _, _ => []
  | n + 1, e, t, phase =>
    let w := nth i.list e 0
    if convMode i = 2 ∧ bitOf w 4 = true then []
    else
      (if bitOf w 3 then [(bf w 2 0, t + 10 - ticksUs 2, t + 10)] else []) ++
        v.aim i n ((e + 1) % convLen i) (t + pattern v.slices phase) ((phase + 1) % patternLen v.slices)

/-- The pulls of a DIAG conversion that has started and not sampled; on since `old` had them on. -/
def Cnv1.pulling (v : Cnv1) (old : List (Nat × Nat × Nat)) (now : Nat) : List (Nat × Nat × Nat) :=
  (v.run.filter fun x => x.diag && decide (now < x.started + 10)).map fun x =>
    (x.ch % 8, ((old.find? fun p => p.1 == x.ch % 8).map fun p => min p.2.1 now).getD now, x.started + 10)

/-- What is switched on after a start. The pulls go on 2 µs before a sample instant that the pattern foresees; for
a start that it does not foresee (a trigger, the end of a hold-back, the first start) as soon as the start is
known (DESIGN CHOICE, log 98). -/
def Cnv1.aimed (v : Cnv1) (i : ConvImg) (now : Nat) : Cnv1 :=
  { v with pulls := v.pulling v.pulls now ++
      v.aim i 13 v.next (now + pattern v.slices v.phase) ((v.phase + 1) % patternLen v.slices) }

/-- The pulls of local channel `cut`, whose DIAG conversion an urgent one has aborted, are off until the urgent
one has sampled (Table 7.4). -/
def Cnv1.cutPull (v : Cnv1) (cut : Option Nat) (now : Nat) : Cnv1 :=
  { v with pulls := v.pulls.map fun p => if cut == some p.1 then (p.1, max p.2.1 (now + 10), p.2.2) else p }

/-! ### Blocks (R235, R236) -/

/-- Table 7.3. -/
def Entry.word (e : Entry) : Word :=
  mkWord [(e.ch, 27), (b2n e.ow, 26), (b2n e.oob, 25), (b2n e.urgent, 24), (e.seq % 256, 16),
    (twos 16 e.value, 0)]

/-- The entries that one block takes from those in formation: at most 8, up to one that changed its channel
to OUTSIDE, up to a broken interval; an urgent one alone. `n` are in the block already. -/
def cutBlock : Nat → List Entry → List Entry × List Entry
  | _, [] => ([], [])
  | n, e :: es =>
    if n = 8 ∨ (0 < n ∧ (e.brk = true ∨ e.urgent = true)) then ([], e :: es)
    else if e.fire || e.urgent then ([e], es)
    else ((e :: (cutBlock (n + 1) es).1), (cutBlock (n + 1) es).2)

/-- The first block of the entries in formation closes by what they are. -/
def ripe (l : List Entry) : Bool :=
  let h := (cutBlock 0 l).1
  !(cutBlock 0 l).2.isEmpty || decide (8 ≤ h.length) ||
    ((h.getLast?.map fun e => e.fire || e.urgent).getD false)

/-- The block of some entries. -/
def blockOf (l : List Entry) : Block :=
  { fire := (l.getLast?.map Entry.fire).getD false
    slices := (l.head?.map fun e => slicesCode e.slices).getD 0
    phase := (l.head?.map Entry.phase).getD 0
    entries := l }

/-- Bytes 0 to 4N + 3 of a block (Table 9.7). -/
def Block.body (b : Block) (c : Nat) : List Byte :=
  [BitVec.ofNat 8 (64 * c + 32 * b2n b.fire + 8 * b.slices + (b.entries.length - 1)),
   BitVec.ofNat 8 (16 * b.phase)] ++
    be16 ((b.entries.head?.map Entry.tick).getD 0 % 65536) ++
    b.entries.flatMap fun e => wordBytes e.word

/-- The whole block, with its CHECK. -/
def Block.bytes (b : Block) (c : Nat) : List Byte := b.body c ++ be16 (crcOf 1#2 (b.body c))

/-- The list stands at an entry that waits for the trigger. -/
def Cnv1.waits (v : Cnv1) (i : ConvImg) : Bool :=
  convMode i == 2 && bitOf (nth i.list v.next 0) 4 && !v.release

/-- The block goes to the uplinks of the sequencers in life. -/
def State.sendBlock (s : State) (c : Nat) (b : Block) (rest : List Entry) : State :=
  let fl : Flight := { conv := c, blk := b, begun := false }
  let a := s.lives .a
  let d := s.lives .b
  let s1 := s.setConv c { s.conv c with form := rest, waitA := a, waitB := d }
  { s1 with cnv := { s1.cnv with flyA := if a then s1.cnv.flyA ++ [fl] else s1.cnv.flyA,
                                 flyB := if d then s1.cnv.flyB ++ [fl] else s1.cnv.flyB } }

/-- A converter is held back: nothing starts, and no pull stays on for what does not start. -/
def Cnv1.hold (v : Cnv1) (now : Nat) : Cnv1 :=
  { v with heldBack := true, held := (v.held + 1) % 65536, pulls := v.pulling v.pulls now }

/-- The converter closes its block, or is held back while an earlier block waits. -/
def State.closeBlock (s : State) (c : Nat) : State :=
  let v := s.conv c
  if v.form.isEmpty then s
  else if v.waitA || v.waitB then
    if v.heldBack then s else s.setConv c (v.hold s.tb)
  else
    let cut := cutBlock 0 v.form
    let s1 := s.sendBlock c (blockOf cut.1) cut.2
    if ripe cut.2 then s1.setConv c ((s1.conv c).hold s1.tb) else s1

/-- Longest interval of the pattern. -/
def longest (slices : Nat) : Nat := if 4 ≤ slices then 34 else if slices = 3 then 45 else 67

/-- An entry joins the block in formation, which closes where the conversion after it broke the pattern or
gives no entry, or where none has started and the list waits for the trigger. -/
def State.addEntry (s : State) (c : Nat) (e : Entry) : State :=
  let v := s.conv c
  let apart := match v.form.getLast? with
    | some l => decide (l.tick + longest l.slices < e.tick)
    | none => false
  let form := v.form ++ [{ e with brk := e.brk || apart }]
  let s1 := s.setConv c { v with form := form }
  let waits := ((s.convImg c).map fun i => v.waits i).getD false
  let after := (v.run.head?.map fun x => x.brk || x.diag).getD waits
  if ripe form || after then s1.closeBlock c else s1

/-! ### Period counters of sin/cos pairs (R191) -/

/-- R191: a sign changes only 500 counts beyond zero in the new sense. -/
def newSign (old : Option Bool) (v : Int) : Bool :=
  match old with
  | none => decide (0 ≤ v)
  | some true => decide (-500 ≤ v)
  | some false => decide (500 < v)

def quadrant (sin cos : Bool) : Nat :=
  match sin, cos with
  | true, true => 0
  | true, false => 1
  | false, false => 2
  | false, true => 3

/-- The pair has given a result of each channel: its quadrant is judged, and counted against the one before.
Two quadrants apart set SCERR and count nothing. -/
def SeqSc.judge (c : SeqSc) (inv : Bool) (q : Nat) : SeqSc :=
  let c1 := { c with quad := some q, newSin := false, newCos := false }
  match c.quad with
  | none => { c1 with val := if inv then 0 - BitVec.ofNat 32 q else BitVec.ofNat 32 q }
  | some q0 =>
    let d := (q + 4 - q0) % 4
    if d = 1 ∨ d = 3 then { c1 with val := if (d == 1) ^^ inv then c.val + 1 else c.val - 1 }
    else { c1 with err := c.err || d == 2 }

/-- One result of a channel of the pair, as a sequencer counts it. A result of the pair is one of each
channel (DEDUCED, log 86). -/
def SeqSc.step (c : SeqSc) (isSin inv : Bool) (v : Int) : SeqSc :=
  let c1 := if isSin then { c with sin := some (newSign c.sin v), newSin := true }
    else { c with cos := some (newSign c.cos v), newCos := true }
  match c1.sin, c1.cos with
  | some a, some b => if c1.newSin && c1.newCos then c1.judge inv (quadrant a b) else c1
  | _, _ => c1

def State.scResult (s : State) (n : Nat) (v : Int) : State :=
  match s.fld.cfg.pairs.find? fun p => p.1 == n / 2 with
  | none => s
  | some p =>
    let f (t : Tab SeqSc) (q : Side) : Tab SeqSc :=
      if s.lives q then Tab.upd .start t (sideNat q * 16 + p.1) fun c => c.step (n % 2 == 0) p.2 v
      else t
    { s with fld := { s.fld with scs := f (f s.fld.scs .a) .b } }

/-! ### Calibration of a result (R185) -/

def State.calRec (s : State) (n : Nat) : CalRec := Tab.get .unity s.nv.cal n

/-- The CRC-32C over OFS and G of a record; its layout is the model's own (DESIGN CHOICE, log 86). -/
def CalRec.bytes (r : CalRec) : List Byte := be16 (twos 16 r.ofs) ++ be16 r.gain

def CalRec.sum (r : CalRec) : Nat := crc32c r.bytes

/-- A record as CAL_COMMIT writes it. -/
def CalRec.made (ofs : Int) (gain : Nat) : CalRec :=
  let r : CalRec := { ofs := ofs, gain := gain, crc := 0, good := true }
  { r with crc := r.sum }

/-- One record is loaded at start-up by unit `u`; `bad`: it has changed in the store. Where its CRC fails its
channel is marked CALBAD, and the failure is recorded (R185). -/
def State.loadRec (s : State) (u n : Nat) (r : CalRec) (bad : Bool) : State :=
  let r1 := if bad then { r with crc := r.crc ^^^ 1 } else r
  let c := s.checkWith u 3#2 r.bytes r1.crc
  let nv := { c.1.nv with cal := Tab.set .unity c.1.nv.cal n { r1 with good := c.2 } }
  let s1 := { c.1 with nv := nv }
  if c.2 then s1 else s1.record 0x0503 2 [BitVec.ofNat 8 n]

/-- The records of the channels are loaded at start-up; those of `bad` have changed in the store. -/
def State.loadCal (s : State) (bad : List Nat) : State :=
  s.nv.cal.foldl (fun acc e => acc.loadRec (procUnit acc.por.active) e.1 e.2 (bad.contains e.1)) s

/-- The record that an entry sampled at tick `t` takes (Table 7.4). -/
def State.calAt (s : State) (n t : Nat) : CalRec :=
  match Tab.get none s.cnv.calWas n with
  | some w => if t ≤ w.2 then w.1 else s.calRec n
  | none => s.calRec n

/-- (corrected result − OFS) × G, rounded to the nearest count and limited to the saturation codes. -/
def CalRec.apply (r : CalRec) (v : Int) (sat : Bool) : Int :=
  if sat then (if 0 ≤ v then 32767 else -32768)
  else max (-32768) (min 32767 ((2 * (v - r.ofs) * r.gain + 32768) / 65536))

/-! ### A result on the field side (R177, R178, R180) -/

/-- Removes a slice from service (R183). -/
def State.retireSlice (s : State) (c k : Nat) : State :=
  let v := s.conv c
  if v.retired.contains k then s
  else
    let v0 := { v with retired := v.retired ++ [k], brk := true }
    let v1 := ((s.convImg c).map fun i => v0.aimed i s.tb).getD v0
    let s1 := (s.setConv c v1).record 0x0501 2 [BitVec.ofNat 8 c, BitVec.ofNat 8 k, 0#8]
    if 2 ≤ v1.slices then s1
    else
      (s1.setConv c { v1 with failed := true, run := [], pulls := [] }).record 0x0501 2
        [BitVec.ofNat 8 c, BitVec.ofNat 8 k, 2#8]

/-- A conversion that does not end: the list resumes at its entry, released if its trigger has come; an
urgent one is repeated. -/
def Cnv1.repeat_ (v : Cnv1) (i : ConvImg) (x : Conv) : Cnv1 :=
  match x.kind with
  | .list e =>
    { v with next := e % convLen i, brk := true,
             release := v.release || (convMode i == 2 && bitOf (nth i.list e 0) 4) }
  | .urgent => { v with urgent := v.urgent.filter (·.2) ++ (x.ch % 8, false) :: v.urgent.filter (!·.2) }
  | .recheck => { v with urgent := (x.ch % 8, true) :: v.urgent }

/-- Coefficients within the limits of R183. -/
def coefOk (c : Int × Nat × Int) : Bool :=
  decide (c.1.natAbs ≤ 2560) && decide (8304722 ≤ c.2.1 ∧ c.2.1 ≤ 8472494) &&
    decide (c.2.2.natAbs ≤ 500)

/-- R180: the judgement of an open-wire test. No entry comes of it, so that the block in formation ends
here. -/
def State.diagResult (s : State) (c n : Nat) (x : Sample) : State :=
  let i := s.chImg n
  let ch := s.chan n
  let far := match ch.ordinary with
    | some o => decide (i.owthr < (resultCode x i.range - o).natAbs)
    | none => false
  (s.setChan n { ch with ow := saturated x i.range || far }).closeBlock c

/-- An ordinary or urgent result of flat channel `n`. A further outside result while the re-check is pending asks
for no second one and is not counted (DESIGN CHOICE, log 98). -/
def State.dataResult (s : State) (c n : Nat) (k : Conv) (x : Sample) : State :=
  let i := s.chImg n
  let r := s.calAt n (k.started + 10)
  let raw := resultCode x i.range
  let v := r.apply raw (saturated x i.range)
  let ch := s.chan n
  let out := !i.inside v
  let first := out && !ch.outside && i.confirm && k.kind != .recheck && !ch.unconf
  let confirmed := k.kind == .recheck && ch.unconf
  let fire := out && !ch.outside && (!i.confirm || confirmed)
  let ch1 := { ch with ordinary := some raw,
                       unconf := if first then true else if confirmed then false else ch.unconf,
                       outside := if fire then true
                                  else if ch.outside then !i.backIn v else false }
  let w := s.conv c
  let urgent := if first
    then w.urgent.filter (·.2) ++ (n % 8, true) :: w.urgent.filter (!·.2) else w.urgent
  let seq := (w.seq + 1) % 2 ^ 32
  let w1 := { w.ask urgent s.tb with
                     seq := seq
                     unconf := if confirmed && !out then (w.unconf + 1) % 256 else w.unconf }
  let e : Entry :=
    { ch := n, ow := ch1.ow || !r.good, oob := out,
      urgent := match k.kind with | .list _ => false | _ => true,
      value := v, seq := seq, tick := k.started + 10, raw := raw, sat := saturated x i.range, judged := ch1.ow,
      fire := fire, brk := k.brk, slices := k.slices, phase := k.phase }
  ((((s.setChan n ch1).setConv c w1).scResult n v).addEntry c e)

/-! ### The result memory (R14, R181) -/

def State.rbuf (s : State) (h : Side) (c : Nat) : RBuf :=
  match h with
  | .a => Tab.get .start s.cnv.bufA c
  | .b => Tab.get .start s.cnv.bufB c

def State.setRbuf (s : State) (h : Side) (c : Nat) (v : RBuf) : State :=
  match h with
  | .a => { s with cnv := { s.cnv with bufA := Tab.set .start s.cnv.bufA c v } }
  | .b => { s with cnv := { s.cnv with bufB := Tab.set .start s.cnv.bufB c v } }

/-- Writes one data entry, with the time marker where one falls due. -/
def RBuf.write (b : RBuf) (e : Entry) : RBuf :=
  let put (t : Tab Word) (k : Nat) (w : Word) : Tab Word := Tab.set 0#32 t k w
  let mark := b.ptr % 256 == 0
  let t1 := if mark then put b.entries b.ptr (BitVec.ofNat 32 (e.tick / 65536)) else b.entries
  let p1 := if mark then (b.ptr + 1) % 16384 else b.ptr
  { ptr := (p1 + 1) % 16384, seq := e.seq, count := b.count + 1, seqTb := e.tick,
    entries := put t1 p1 e.word }

/-- R186: an averaging takes the entry; `stale`: the channel was stale before it. The open-wire bit that a
failed calibration record forces is no judgement of the wire. -/
def Cal.take (k : Cal) (e : Entry) (stale : Bool) : Cal :=
  let on := match k.phase with
    | .zeroing => true
    | .filling => true
    | _ => false
  if on && k.chan == e.ch && decide (k.count < 1024) then
    { k with count := k.count + 1, sum := k.sum + e.raw, bad := k.bad || e.judged || e.sat || stale }
  else k

/-- A channel has no entry within MAXAGE (R182). -/
def State.isStale (s : State) (n : Nat) : Bool :=
  match (s.chan n).lastAt with
  | none => true
  | some t => decide (t + ticksUs (10 * (s.chImg n).maxage) < s.tb)

/-- R351: a stream of the converter takes the entry; one that the result memory no longer holds when
it would be read is dropped. -/
def Stream.take (x : Stream) (c : Nat) (e : Entry) (now : Nat) : Stream :=
  if x.conv ≠ c ∨ x.mask.testBit (e.ch % 8) = false then x
  else
    let n := (x.seen + 1) % x.dec
    if n ≠ 0 then { x with seen := n }
    else
      let q := x.queue ++ [{ word := e.word, seq := e.seq, tick := e.tick, wrote := now }]
      let excess := q.length - 16320
      { x with seen := n, queue := q.drop excess, dropped := (x.dropped + excess) % 2 ^ 32 }

def State.feedStreams (s : State) (c : Nat) (e : Entry) : State :=
  let l := Tab.mapVal none (fun x => x.map fun y => y.take c e s.tb) s.por.streams
  { s with por := { s.por with streams := l } }

/-- One accepted entry on the logic side; `fire`: it changed its channel to OUTSIDE (R177, R179). CNV_CHST.OW
shows the open-wire bit of the entry, one that a failed calibration record forces too (DESIGN CHOICE, log 98). -/
def State.takeEntry (s : State) (c : Nat) (e : Entry) (fire : Bool) : State :=
  let s1 := [Side.a, Side.b].foldl (fun acc h =>
    if acc.memIn h then acc.setRbuf h c ((acc.rbuf h c).write e) else acc) s
  let i := s1.chImg e.ch
  let ch := s1.chan e.ch
  let s2 := (s1.feedStreams c e).setChan e.ch
    { ch with last := e.value, lastAt := some e.tick, owL := e.ow, stale := false,
              wcf := ch.wcf || fire,
              outL := fire || (ch.outL && !i.backIn e.value) }
  let stale := s1.isStale e.ch
  let s3 := { s2 with cnv := { s2.cnv with cal := s2.cnv.cal.map fun k => k.take e stale } }
  if !fire then s3
  else
    (List.range 32).foldl (fun acc t =>
      match (acc.img false).bind fun m => m.trigs[t]? with
      | some x => if bf x.word 31 28 == 1 && bf x.word 7 0 == e.ch then acc.fire t else acc
      | none => acc) (s3.noteFlag (wcfFlag e.ch))

/-- A block accepted from whichever link delivers it first. -/
def State.takeBlock (s : State) (c : Nat) (b : Block) : State :=
  let s0 := if s.cnv.wroteAt = s.tb then s
    else { s with cnv := { s.cnv with wroteAt := s.tb, chansWas := s.cnv.chans } }
  let n := b.entries.length
  b.entries.zipIdx.foldl (fun acc e => acc.takeEntry c e.1 (b.fire && e.2 + 1 == n)) s0

/-- CNV_STAT.STATE. -/
def State.convState (s : State) (c : Nat) : CnvSt :=
  let v := s.conv c
  match s.convImg c with
  | none => .stopped
  | some i =>
    if v.failed then .failed
    else if convMode i = 0 || !s.fieldOn then .stopped
    else if v.waits i then .waiting
    else .running

end Sys2Proof.Machine
end

