-- ==== Sys2Proof/Machine/Inputs.lean ====
section
/-! DEFINITION. Inputs and counters as one field sequencer processes them: comparator, glitch filter,
judgement, debounce, INVALID, counters, field triggers (chapter 3). -/

namespace Sys2Proof.Machine

/-! ### Triggers detected in the field (R79, R123, R210) -/

/-- Sequencer `q` reports the triggers that `p` picks in its next frame. -/
def State.fireTrigs (s : State) (q : Side) (p : TrigImg → Bool) : State :=
  let m := s.fld.cfg.trigs.zipIdx.foldl
    (fun acc e => if p e.1 then acc ||| BitVec.ofNat 32 (1 <<< e.2) else acc) 0#32
  match q with
  | .a => { s with fld := { s.fld with trigA := s.fld.trigA ||| m } }
  | .b => { s with fld := { s.fld with trigB := s.fld.trigB ||| m } }

/-- An edge trigger of input `n` takes the edge of the filtered signal (R79; DEDUCED, log 52: Table 11.2
leaves no time for judgement or debounce). -/
def TrigImg.takesEdge (t : TrigImg) (n : Nat) (rise : Bool) : Bool :=
  bf t.word 31 28 == 3 && bf t.word 7 0 == n && (bf t.word 9 8 == 2 || (bf t.word 9 8 == 0) == rise)

/-- The condition of a counter trigger (R210). -/
def TrigImg.holds (t : TrigImg) (v : Word) : Bool :=
  let x := sgn 32 v.toNat
  let thr := sgn 32 t.thr.toNat
  match t.sense with
  | 0 => decide (thr ≤ x)
  | 1 => decide (x ≤ thr)
  | _ => decide (0 < v.toNat) && decide (v.toNat < t.thr.toNat) && !(v == 0xFFFFFFFF)

/-! ### The comparators (R56, R57) -/

/-- Switching points of a comparator in mV: OFF from 5 V, ON up to 11 V, 0.5 V apart or more. -/
def offMv (q : Side) (t : Nat) : Nat := 5000 + (Config.comparator q t).1 % 5501
def onMv (q : Side) (t : Nat) : Nat :=
  offMv q t + 500 + (Config.comparator q t).2 % (11001 - (offMv q t + 500))

/-- Output of the comparator at a terminal voltage. -/
def compare57 (q : Side) (t : Nat) (mV : Int) (now : Bool) : Bool :=
  if 11000 ≤ mV then true
  else if mV ≤ 5000 then false
  else if now then decide ((offMv q t : Int) < mV) else decide ((onMv q t : Int) ≤ mV)

/-- The filtered level of a terminal at an instant. -/
def State.levelAt (s : State) (q : Side) (t x : Nat) : Bool :=
  let v := s.term q t
  if x < v.filtAt then !v.filt else v.filt

/-! ### Debounced value and INVALID (R60, R64, R69, R71) -/

/-- A new debounced value. -/
def State.putDeb (s : State) (q : Side) (n : Nat) (v : Bool) : State :=
  let i := s.inp q n
  if i.deb == v then s else s.setInp q n { i with deb := v }

/-- Judges the input `v` (R60: a setting of 0 bypasses the debounce). -/
def State.judge (s : State) (q : Side) (n : Nat) (v : Bool) : State :=
  let i := s.inp q n
  if i.judged == v then s
  else
    let s1 := s.setInp q n { i with judged := v, judgedAt := s.tb }
    if s.debounceUs n = 0 then s1.putDeb q n v else s1

/-- The shown cause becomes `c`; leaving INVALID bypasses the debounce (R60). -/
def State.setCause (s : State) (q : Side) (n c : Nat) : State :=
  let i := s.inp q n
  if i.cause = c then s
  else
    let s1 := s.setInp q n { i with cause := c }
    if c = 0 then s1.putDeb q n i.judged else s1

/-- Causes 1 to 3 of Table 3.4 as they hold now, 0 for none. -/
def State.extCause (s : State) (n : Nat) : Nat :=
  match s.sourceOf n with
  | none => if s.groupDead (bf (s.icfg n) 29 27) then 1 else 0
  | some k => if s.groupDead (k / 8) then 2 else if (s.fout k).cause ≠ 0 then 3 else 0

/-- The input is judged by R62 to R65: no outside cause, no wait, no hold. -/
def SeqIn.open_ (i : SeqIn) : Bool := !i.hold && i.wait == 0 && (i.cause == 0 || 4 ≤ i.cause)

/-- The input follows what holds around it: entries into INVALID and the return of R71. -/
def State.refreshInp (s : State) (q : Side) (n : Nat) : State :=
  let i := s.inp q n
  let x := s.extCause n
  if x ≠ 0 then
    (s.setInp q n { i with wait := 0, dirty := true }).setCause q n x
  else if i.wait ≠ 0 then s.setCause q n i.wait
  else if 1 ≤ i.cause ∧ i.cause ≤ 3 then
    let level := (s.term q n).filt
    match s.sourceOf n with
    | none => (s.setInp q n { i with judged := level, judgedAt := s.tb }).setCause q n 0
    | some k =>
      if (s.fout k).phase = .source then s.setInp q n { i with wait := i.cause }
      else
        (s.setInp q n { i with judged := level, judgedAt := s.tb, hold := false,
                               judgeFrom := s.fld.frame + 1 }).setCause q n i.bad
  else s.setCause q n i.bad

/-- Both running sequencers follow, for the inputs that `p` picks. -/
def State.refreshInputs (s : State) (p : Nat → Bool) : State :=
  (s.inputsInUse.filter p).foldl (fun acc n =>
    let s1 := if acc.lives .a then acc.refreshInp .a n else acc
    if s1.lives .b then s1.refreshInp .b n else s1) s

/-- Inputs that expect source `k`. -/
def State.expects (s : State) (k n : Nat) : Bool := s.sourceOf n == some k

/-- R47: the inputs of source `k` hold; R47, R71: its return to LOAD ends holds and waits. A frame in
which the phase changes does not show the full pattern of R64. -/
def State.holdInputs (s : State) (k : Nat) (on : Bool) : State :=
  (s.inputsInUse.filter (s.expects k)).foldl (fun acc n =>
    [Side.a, Side.b].foldl (fun (a2 : State) q =>
      let i := a2.inp q n
      if on then a2.setInp q n { i with hold := true, dirty := true }
      else if i.wait ≠ 0 then
        (a2.setInp q n { i with hold := false, wait := 0, judged := (a2.term q n).filt,
                                judgedAt := a2.tb, judgeFrom := a2.fld.frame + 1 }).setCause q n i.bad
      else a2.setInp q n { i with hold := false, dirty := true }) acc) s

/-- R64: the pattern is broken: 5 MISSING or 4 FOREIGN with the slot. -/
def State.patternBad (s : State) (q : Side) (n code slot : Nat) : State :=
  let i := s.inp q n
  let bad := if i.bad = 4 then 4 else code
  (s.setInp q n { i with bad := bad, dirty := true, clean := 0,
                         fslot := if code = 4 then slot else i.fslot }).setCause q n bad

/-! ### Judging a filtered change (R61 to R65) -/

/-- A SOURCE input whose source `k` is in LOAD (R62). -/
def State.judgeLoad (s : State) (q : Side) (n k : Nat) (lev : Bool) (at_ : Nat) : State :=
  let c := s.fld.pulseCfg
  let even := c.evenAt k at_
  let z := c.zone k at_
  if lev then
    if even && decide (z = .win) then
      (if (s.inp q n).judgeFrom ≤ c.frameOf at_ then s.patternBad q n 5 0 else s)
    else if even && decide (z = .tail) then s
    else s.judge q n true
  else if even && !decide (z = .outside) then s
  else s.judge q n false

/-- A SOURCE input whose source `k` is in SOURCE (R63). -/
def State.judgeSource (s : State) (q : Side) (n k : Nat) (lev : Bool) (at_ : Nat) : State :=
  let c := s.fld.pulseCfg
  match c.zone k at_ with
  | .outside => if lev then s.patternBad q n 4 (c.slotOf at_) else s
  | .win => if lev then s else s.judge q n false
  | _ => s

/-- A fall at `at_` that the pattern of source `k` does not show at a closed contact: in LOAD phase
outside an even frame's window, in SOURCE phase inside the pulse (R64; DEDUCED, log 76). -/
def State.breaksPattern (s : State) (k at_ : Nat) : Bool :=
  let c := s.fld.pulseCfg
  match (s.fout k).phase with
  | .load => !c.evenAt k at_ || decide (c.zone k at_ = .outside)
  | .source => decide (c.zone k at_ = .win)
  | .idle => true

/-- A filtered change of input `n` at instant `at_`; the level before it began at `before`. -/
def State.judgeEdge (s : State) (q : Side) (n : Nat) (lev : Bool) (at_ before : Nat) : State :=
  match s.sourceOf n with
  | some k =>
    let i := s.inp q n
    let low := !lev && decide (s.fld.pulseCfg.zone k at_ = .win)
    let s1 := if !lev then s.setInp q n { i with winLow := i.winLow || low,
                                                 dirty := i.dirty || s.breaksPattern k at_ } else s
    if !(s1.inp q n).open_ then s1
    else
      match (s1.fout k).phase with
      | .load => s1.judgeLoad q n k lev at_
      | .source => s1.judgeSource q n k lev at_
      | .idle => s1
  | none =>
    if !(s.inp q n).open_ then s
    else if bf (s.icfg n) 31 30 = 2 then
      if lev then s.judge q n true
      else if before + ticksUs (bf (s.icfg n) 25 16) ≤ at_ then s
      else s.judge q n false
    else s.judge q n lev

/-! ### Counters (R74 to R76) -/

def State.ccfg (s : State) (m : Nat) : Word := nth s.fld.cfg.ccfg m 0
def State.cntMode (s : State) (m : Nat) : Nat := bf (s.ccfg m) 2 0

/-- A counter takes its next state; R210: threshold triggers fire on entering their condition. -/
def State.putCnt (s : State) (q : Side) (m : Nat) (c : SeqCnt) : State :=
  let old := (s.fcnt q m).val
  (s.setFcnt q m c).fireTrigs q fun t =>
    bf t.word 31 28 == 2 && bf t.word 7 0 == m && t.holds c.val && !t.holds old

/-- Adds a signed amount; `signed` tells the wrap of QUAD from that of EVENT (R76). -/
def SeqCnt.add (c : SeqCnt) (signed : Bool) (d : Int) : SeqCnt :=
  let v := if signed then sgn 32 c.val.toNat + d else (c.val.toNat : Int) + d
  let w := if signed then decide (v < -(2 ^ 31) ∨ 2 ^ 31 ≤ v) else decide (v < 0 ∨ 2 ^ 32 ≤ v)
  { c with val := BitVec.ofNat 32 (twos 32 v), wrap := c.wrap || w, wraps := c.wraps + (if w then 1 else 0),
           lastAdd := d }

/-- `d` has been counted at the tick `now` (R79). -/
def SeqCnt.counted (c : SeqCnt) (now : Nat) (d : Int) : SeqCnt :=
  { c with tickAt := some now, tickAdd := (if c.tickAt = some now then c.tickAdd else 0) + d }

/-- R79: the counter is cleared at the tick `now`; an edge counted in that tick is counted after it.
DESIGN CHOICE (log 79): a PERIOD counter keeps STOPPED and its last rising edge. -/
def SeqCnt.cleared (c : SeqCnt) (mode now : Nat) : SeqCnt :=
  let here := decide (c.tickAt = some now)
  let d := if here then c.tickAdd else 0
  { c with val := if mode = 4 then (if here then c.val else 0) else if mode = 3 then 0
                  else BitVec.ofNat 32 (twos 32 d)
           gate := d.toNat, gateAt := now, lastAdd := if here then c.lastAdd else 0 }

/-- Flags of a counter cleared in its sequencer (R79). -/
def SeqCnt.unflag (c : SeqCnt) (f : FlagClear) : SeqCnt :=
  { c with wrap := c.wrap && !f.wrap, qerr := c.qerr && !f.qerr, excess := c.excess && !f.excess,
           clears := c.clears + 1 }

/-- What an edge of a track counts: ×1 the edges of A while B is low, ×2 all edges of A, ×4 all. -/
def quadStep (mult : Nat) (inv onB a b : Bool) : Int :=
  let up := if onB then a == b else a != b
  let counts := if onB then mult == 2 else mult != 0 || !b
  if !counts then 0 else if up ^^ inv then 1 else -1

/-- An edge on a track of the quadrature counter `m`. -/
def State.countQuad (s : State) (q : Side) (m : Nat) (onB lev : Bool) (at_ : Nat) : State :=
  let c := s.fcnt q m
  let w := s.ccfg m
  let own := if onB then c.edgeB else c.edgeA
  let other := if onB then c.edgeA else c.edgeB
  let excess := match own with
    | some x => decide (at_ < x + 800)
    | none => false
  let close := match other with
    | some x => decide (at_ < x + 500)
    | none => false
  let c1 := if onB then { c with edgeB := some at_ } else { c with edgeA := some at_ }
  let c2 := { c1 with excess := c1.excess || excess }
  if close then
    s.putCnt q m { ((c2.add true (-c2.lastAdd)).counted s.tb (-c2.lastAdd)) with qerr := true, lastAdd := 0 }
  else
    let a := if onB then (s.term q m).filt else lev
    let b := if onB then lev else (s.term q (m + 1)).filt
    let d := quadStep (bf w 6 5) (bitOf w 7) onB a b
    s.putCnt q m ((c2.add true d).counted s.tb d)

/-- An edge of the filtered signal of terminal `m` (R74, R75). -/
def State.countEdge (s : State) (q : Side) (m : Nat) (lev : Bool) (at_ : Nat) : State :=
  if m % 2 = 1 ∧ s.cntMode (m - 1) = 2 then s.countQuad q (m - 1) true lev at_
  else if s.cntMode m = 2 then s.countQuad q m false lev at_
  else if s.cntMode m = 0 ∨ 4 < s.cntMode m then s
  else
    let c := s.fcnt q m
    let w := s.ccfg m
    let excess := match c.edgeA with
      | some x => decide (at_ < x + 800)
      | none => false
    let c1 := { c with edgeA := some at_, excess := c.excess || excess }
    match s.cntMode m with
    | 1 =>
      let takes := bf w 4 3 == 2 || (bf w 4 3 == 0) == lev
      s.putCnt q m (if takes then (c1.add false 1).counted s.tb 1 else c1)
    | 3 => s.putCnt q m (if lev then { c1.counted s.tb 1 with gate := c1.gate + 1 } else c1)
    | _ =>
      if !lev then s.putCnt q m c1
      else
        let c2 := match c1.riseAt with
          | some r => { c1 with val := BitVec.ofNat 32 (at_ - r), stopped := false }
          | none => c1
        s.putCnt q m { c2.counted s.tb 1 with riseAt := some at_ }

/-! ### Points of a source's pulse (R62, R63, R64) -/

/-- The inputs of source `k` at a point of its pulse whose instant is `x`; `pulsed` tells that the
pulse of the source's phase took place. -/
def State.pointInput (s : State) (q : Side) (n k : Nat) (pt : PulsePoint) (x : Nat) (pulsed : Bool) :
    State :=
  let ph := (s.fout k).phase
  let even := s.fld.pulseCfg.evenAt k x
  let level := s.levelAt q n x
  match pt with
  | .b => s
  | .b30 =>
    let i := s.inp q n
    let s1 := s.setInp q n { i with winLow := !level,
                                    dirty := i.dirty || (decide (ph = .source) && !level) }
    if !(s1.inp q n).open_ || !pulsed then s1
    else if ph = .load && even then
      (if level && decide ((s1.inp q n).judgeFrom ≤ s1.fld.pulseCfg.frameOf x)
       then s1.patternBad q n 5 0 else s1)
    else if ph = .source && !level then s1.judge q n false
    else s1
  | .e =>
    if !pulsed then s
    else
      let i := s.inp q n
      if ph = .source then
        let v := !i.winLow
        if i.wait ≠ 0 && s.extCause n == 0 then
          (s.setInp q n { i with wait := 0, hold := false, judged := v,
                                 judgedAt := s.tb }).setCause q n i.bad
        else if i.hold then (s.setInp q n { i with hold := false }).judge q n v
        else if i.open_ && v then s.judge q n true
        else s
      else if ph = .load && even then s.setInp q n { i with hold := false }
      else s
  | .e30 =>
    let i := s.inp q n
    let s1 := if ph = .load && even && !level then s.setInp q n { i with dirty := true } else s
    if !(s1.inp q n).open_ then s1
    else if ph = .load && even && pulsed then s1.judge q n level
    else if ph = .source && level then
      s1.patternBad q n 4 (s1.fld.pulseCfg.slotOf (s1.term q n).filtAt)
    else s1

def State.pointInputs (s : State) (k : Nat) (pt : PulsePoint) (x : Nat) (pulsed : Bool) : State :=
  (s.inputsInUse.filter (s.expects k)).foldl (fun acc n =>
    let s1 := if acc.lives .a then acc.pointInput .a n k pt x pulsed else acc
    if s1.lives .b then s1.pointInput .b n k pt x pulsed else s1) s

/-- The frame that ends has shown the full pattern of a closed contact (R64): nothing broke it, its
source gives a pattern, and the even frame of a LOAD source was judged. -/
def State.fullPattern (s : State) (q : Side) (n k : Nat) : Bool :=
  let i := s.inp q n
  !i.dirty && !i.hold && i.wait == 0 && s.extCause n == 0 &&
    match (s.fout k).phase with
    | .load => decide (i.judgeFrom < s.fld.frame)
    | .source => !i.winLow
    | .idle => false

/-- R64: at a frame boundary, inputs that met the pattern through two frames become valid. A wire that
is low at the boundary, in LOAD phase, breaks the pattern of the next frame, and so does a hold or a wait
that reaches into it. -/
def State.frameInput (s : State) (q : Side) (n : Nat) : State :=
  let i := s.inp q n
  match s.sourceOf n with
  | none => if i.dirty then s.setInp q n { i with dirty := false } else s
  | some k =>
    let next := (decide ((s.fout k).phase = .load) && !(s.term q n).filt) || i.hold || i.wait != 0
    if i.bad = 0 then (if i.dirty == next then s else s.setInp q n { i with dirty := next })
    else if !s.fullPattern q n k then s.setInp q n { i with dirty := next, clean := 0 }
    else if i.clean = 0 then s.setInp q n { i with dirty := next, clean := 1 }
    else (s.setInp q n { i with dirty := next, bad := 0, clean := 0 }).setCause q n 0

/-- R62: a low level that stands outside the window while the source is in LOAD is judged 0, once the
wire has had the 30 µs of R44 to follow a closure of the switch (DEDUCED, log 76). Each sequencer looks
as it forms a frame. -/
def State.standing (s : State) (q : Side) (n : Nat) : State :=
  match s.sourceOf n with
  | none => s
  | some k =>
    let i := s.inp q n
    let x := s.tb - 400
    let o := s.fout k
    if i.judged && i.open_ && !(s.term q n).filt && decide (o.phase = .load) &&
        decide (o.changed + 6400 ≤ s.tb) &&
        (decide (s.fld.pulseCfg.zone k x = .outside) || !s.fld.pulseCfg.evenAt k x)
    then s.judge q n false else s

def State.standingInputs (s : State) (q : Side) : State :=
  s.inputsInUse.foldl (fun acc n => acc.standing q n) s

/-! ### The commands -/

/-- DEBOUNCE (R60): counted in timebase microseconds. -/
def execDebounce (q : Side) (n : Fin 192) (s : State) : Host.Outcome State Fault Refusal :=
  .next <|
    let i := s.inp q n.val
    if s.lives q && s.inUse n.val && i.cause == 0 && i.judged != i.deb &&
        decide (s.debounceUs n.val ≤ s.tb / 200 - i.judgedAt / 200)
    then s.putDeb q n.val i.judged else s

/-- OFF_PULSE (R65): the low level outlasts the off-pulse width, measured on the filtered signal. -/
def execOffPulse (q : Side) (n : Fin 192) (s : State) : Host.Outcome State Fault Refusal :=
  .next <|
    let t := s.term q n.val
    let w := s.icfg n.val
    if s.lives q && s.inUse n.val && bf w 31 30 == 2 && (s.inp q n.val).open_ && !t.filt &&
        (s.inp q n.val).judged && decide (t.filtAt + 400 + ticksUs (bf w 25 16) ≤ s.tb)
    then s.judge q n.val false else s

/-- GATE_TIME (R74): a gate of a FREQ counter is complete. -/
def execGateTime (q : Side) (m : Fin 128) (s : State) : Host.Outcome State Fault Refusal :=
  .next <|
    let c := s.fcnt q m.val
    let len := ticksMs (bf (s.ccfg m.val) 31 16)
    if s.lives q && s.cntMode m.val == 3 && decide (c.gateAt + len ≤ s.tb) then
      s.putCnt q m.val { c with val := BitVec.ofNat 32 c.gate, gate := 0, gateAt := c.gateAt + len }
    else s

/-- PERIOD_TIMEOUT (R74): no rising edge of the filtered signal, which trails by 2 µs, within the timeout. -/
def execPeriodTimeout (q : Side) (m : Fin 128) (s : State) : Host.Outcome State Fault Refusal :=
  .next <|
    let c := s.fcnt q m.val
    if s.lives q && s.cntMode m.val == 4 &&
        decide (c.riseAt.getD c.gateAt + ticksMs (bf (s.ccfg m.val) 31 16) + 400 ≤ s.tb) then
      s.putCnt q m.val { c with val := 0xFFFFFFFF, stopped := true, riseAt := none }
    else s

end Sys2Proof.Machine
end

