-- ==== Sys2Proof/Machine/Outputs.lean ====
section
/-! DEFINITION. Outputs as the field side drives, reads back and judges them; group supplies, line
states, sequencer arbitration, silence (chapters 2, 3 and 9). -/

namespace Sys2Proof.Machine

/-! ### Phases -/

/-- The output takes a phase (R40, R47). -/
def State.setPhase (s : State) (k : Nat) (p : Phase) : State :=
  let o := s.fout k
  let moved := decide (o.phase = .load) != decide (p = .load)
  let s1 := s.setFout k
    { o with phase := p, pulse := .none, defer := false, silPend := false,
             changed := if moved then s.tb else o.changed,
             lineA := { SeqLine.start with mA := if p = .load then o.lineA.mA else 0, lastAt := o.lineA.lastAt },
             lineB := { SeqLine.start with mA := if p = .load then o.lineB.mA else 0, lastAt := o.lineB.lastAt } }
  match o.phase, p with
  | .load, .source => s1.holdInputs k true
  | .source, .load => s1.holdInputs k false
  | _, _ => s1

/-- The switches follow what applies now, with the deferral of R48 and of Table 9.4. -/
def State.refreshOut (s : State) (k : Nat) : State :=
  let o := s.fout k
  if s.wantOn k then
    if o.phase = .load then s
    else if o.pulse = .light then s.setFout k { o with defer := true }
    else s.setPhase k .load
  else if o.phase = .load then
    if s.wantLoud k && (o.pulse == .dark || o.pulse == .lsDark) then
      s.setFout k { o with silPend := true }
    else s.setPhase k (s.offPhase k)
  else
    let p := s.offPhase k
    let s1 := if o.defer then s.setFout k { o with defer := false } else s
    if p = o.phase then s1 else s1.setPhase k p

/-- The outputs: every one has a phase and is judged, in use or not (R40, R218). -/
def allOuts : List Nat := List.range 64

def State.refreshOuts (s : State) : State := allOuts.foldl State.refreshOut s

/-! ### FAULTED (R218 to R220) -/

def minCause (x y : Nat) : Nat := if x = 0 then y else if y = 0 then x else min x y

/-- A condition of Table 9.2 is met for output `k`; a re-test counts from its first complete frame, and
of two conditions in one tick the lower cause is stored (R231). -/
def State.faultOut (s : State) (k cause slot : Nat) : State :=
  if cause = 0 then s
  else
    let o0 := s.fout k
    let o := if cause = 3 then { o0 with fslot := slot } else o0
    match o.retest with
    | some r =>
      s.setFout k (if s.fld.frame ≤ r.frame then o
        else { o with retest := some { r with bad := minCause r.bad cause } })
    | none =>
      let lim := decide (2600 ≤ max o.lineA.mA o.lineB.mA)
      if o.cause ≠ 0 then
        s.setFout k (if o.faultAt = s.tb && cause < o.cause then { o with cause := cause } else o)
      else
        let s1 := s.setFout k { o with cause := cause, faultAt := s.tb, phaseWas := o.phase,
                                       pulseWas := o.pulse, changedWas := o.changed, limited := lim }
        (s1.refreshOut k).refreshInputs (s1.expects k)

/-- R219: a foreign level change in slot `j` on the readback of output `k`. -/
def State.foreign (s : State) (k j : Nat) : State := (s.faultOut j 3 j).faultOut k 3 j

/-- R229: silence opens an output; a dark pulse in progress completes first (Table 9.4), unless the
timebase stands still (Table 11.4). -/
def State.silenceOpen (s : State) (k : Nat) : State :=
  let o := s.fout k
  if o.phase ≠ .load then s.refreshOut k
  else if (o.pulse == .dark || o.pulse == .lsDark) && !s.pwr.osc.stopped then
    s.setFout k { o with silPend := true }
  else s.faultOut k 11 0

/-! ### Readback (Table 9.2)

Each judgement answers the code of the condition that is met, 0 for none. -/

/-- The output as the conditions of Table 9.2 see it: in the tick in which it became FAULTED, as it
stood before (R231). -/
def State.judgedAs (s : State) (k : Nat) : FOut :=
  let o := s.fout k
  if o.cause ≠ 0 ∧ o.retest = none ∧ o.faultAt = s.tb then
    { o with cause := 0, phase := o.phaseWas, pulse := o.pulseWas, changed := o.changedWas }
  else o

/-- Conditions 1 to 10 are judged: not FAULTED, or under re-test. -/
def FOut.judged (o : FOut) : Bool := o.cause == 0 || o.retest.isSome

/-- Conditions 4 to 7 are judged (R222). -/
def State.pulseJudged (s : State) (k : Nat) : Bool :=
  !s.groupDead (k / 8) && decide ((s.fout k).judgeFrom ≤ s.fld.frame)

/-- Time after a change of the switches from which the readback is judged. -/
def FOut.settle (o : FOut) : Nat := if o.phase = .load then 20000 else 6000

/-- The last change of the Q+ reading began in a foreign slot that is not over at `x`, so that it may
still prove FOREIGN. -/
def State.undecided (s : State) (q : Side) (k x : Nat) : Bool :=
  let c := s.fld.pulseCfg
  let a := (s.term q (192 + k)).filtAt
  let o := s.judgedAs k
  c.slotOf a != k && c.slotOf x == c.slotOf a && c.frameOf x == c.frameOf a &&
    decide (o.changed + o.settle ≤ a)

/-- Whether `x` lies in the output's own high-side pulse or in the time that the table allows after it:
100 µs after a dark pulse closed the switch again, 30 µs after a light pulse opened it. -/
def State.ownPulse (s : State) (k x : Nat) : Bool :=
  let c := s.fld.pulseCfg
  let p := (c.inFrame k x).2
  match (s.judgedAs k).phase with
  | .load => c.evenAt k x && decide (c.beginOff k ≤ p) && decide (p < c.endOff k + 20000)
  | .source => !decide (c.zone k x = .outside)
  | .idle => false

/-- Conditions 1 and 7 on the level of Q+ at instant `x`; neither holds of a high side that a gate-hold keeps
open while the output is ON. -/
def State.judgeQp (s : State) (k x : Nat) (level : Bool) : Nat :=
  let o := s.judgedAs k
  if !o.judged || s.ownPulse k x || decide (x < o.changed + o.settle) || (decide (o.phase = .load) && s.hiHeld k)
  then 0
  else if o.phase = .load then (if !level && s.pulseJudged k then 7 else 0)
  else if level then 1
  else 0

/-- Conditions 2 and 9 on the level of Q− at instant `x`; the high side is closed in a light pulse. -/
def State.judgeQm (s : State) (k x : Nat) (level : Bool) : Nat :=
  let o := s.judgedAs k
  let c := s.fld.pulseCfg
  let z := c.zone k x
  if !o.judged || s.single k || !level then 0
  else if s.sonly k then 9
  else if o.phase = .load then
    if s.loHeld k || !c.evenAt k x && (decide (z = .lead) || decide (z = .win)) then 0 else 2
  else if o.phase = .source ∧ z ≠ .outside then 0
  else if o.changed + 6000 ≤ x ∧ (!s.outLsense k || decide (z = .win)) then 2
  else 0

/-- Conditions on a steady level of Q+ and Q− at instant `x`. -/
def State.judgeSteady (s : State) (q : Side) (k x : Nat) : Nat :=
  minCause (if s.undecided q k x then 0 else s.judgeQp k x (s.levelAt q (192 + k) x))
    (s.judgeQm k x (s.levelAt q (128 + k) x))

/-- Conditions 4 to 6 at instant `x` inside the own window of output `k`. -/
def State.judgeWindow (s : State) (q : Side) (k x : Nat) : Nat :=
  let o := s.judgedAs k
  if !o.judged || !s.pulseJudged k then 0
  else
    match o.pulse with
    | .none => 0
    | .dark => if s.levelAt q (192 + k) x then 4 else 0
    | .light | .missed => if s.levelAt q (192 + k) x then 0 else 6
    | .lsDark => if s.levelAt q (128 + k) x then 0 else 5

/-- The lowest code that a running sequencer finds. -/
def State.found (s : State) (f : Side → Nat) : Nat :=
  minCause (if s.lives .a then f .a else 0) (if s.lives .b then f .b else 0)

/-- R218 DISAGREE: since which the two readings of a terminal differ. -/
def State.stampDiffer (s : State) (k : Nat) : State :=
  let o := s.fout k
  let f (t : Nat) (old : Option Nat) : Option Nat :=
    if s.lives .a && s.lives .b && (s.term .a t).filt != (s.term .b t).filt
    then some (old.getD s.tb) else none
  s.setFout k { o with disP := f (192 + k) o.disP,
                       disM := if s.single k then none else f (128 + k) o.disM }

/-- A filtered change on a readback terminal of output `k` at instant `at_`; the level before it began
at `before`. -/
def State.readEdge (s : State) (q : Side) (k : Nat) (minus : Bool) (at_ before : Nat) : State :=
  let c := s.fld.pulseCfg
  let o := s.judgedAs k
  let j := c.slotOf at_
  let s0 := s.stampDiffer k
  let s1 :=
    if minus then s0
    else if j != k && c.slotOf before == j && c.frameOf before == c.frameOf at_ &&
        decide (o.changed + o.settle ≤ before)
    then s0.foreign k j
    else s0.faultOut k (s0.judgeQp k (at_ - 1) (s0.levelAt q (192 + k) (at_ - 1))) 0
  let s2 := if c.zone k at_ = .win then s1.faultOut k (s1.judgeWindow q k at_) 0 else s1
  s2.faultOut k (s2.judgeSteady q k at_) 0

/-- Steady levels of every output, judged with each slot. -/
def State.steadyAll (s : State) (x : Nat) : State :=
  allOuts.foldl (fun acc k => acc.faultOut k (acc.found fun q => acc.judgeSteady q k x) 0) s

/-! ### Line states (R221) -/

/-- 0 OK, 1 OPEN, 2 SHORT, 3 NOTEST; OPEN whatever else holds without the supply (R222). -/
def State.lineOf (s : State) (q : Side) (k : Nat) : Nat :=
  let o := s.fout k
  let l := match q with | .a => o.lineA | .b => o.lineB
  let on := decide (o.phase = .load)
  let sense := s.outLsense k && !s.single k
  let openLoad := match l.lowAt with
    | some t => on && bf (s.ocfg k) 23 16 != 0 && decide (t + 4000000 ≤ s.tb)
    | none => false
  if s.groupDead (k / 8) then 1
  else if (!on && sense && decide (2 ≤ l.lo)) || o.cause == 8 || (o.cause == 7 && o.limited) then 2
  else if openLoad || (!on && sense && decide (2 ≤ l.hi)) then 1
  else if !on && (!sense || decide (o.phase = .source)) then 3
  else 0

/-- Order of the line states from best to worst. -/
def lineRank : Nat → Nat
  | 0 => 0
  | 3 => 1
  | 1 => 2
  | _ => 3

def worseLine (x y : Nat) : Nat := if lineRank x < lineRank y then y else x

/-- One measurement; a line-sense measurement is made every 10 µs. -/
def State.measureLine (s : State) (q : Side) (k : Nat) (m : LineMeas) : State :=
  let o := s.fout k
  let l := match q with | .a => o.lineA | .b => o.lineB
  let put (v : SeqLine) : State :=
    s.setFout k (match q with | .a => { o with lineA := v } | .b => { o with lineB := v })
  match m with
  | .sense mV =>
    let due := match l.lastAt with
      | some t => decide (t + 2000 ≤ s.tb)
      | none => true
    if o.phase = .idle && s.outLsense k && !s.single k && s.fld.pulseCfg.slotOf s.tb != k && due then
      put { l with lastAt := some s.tb
                   hi := if 9900 < mV then min 2 (l.hi + 1) else 0,
                   lo := if mV < 15 then min 2 (l.lo + 1) else 0 }
    else s
  | .current mA =>
    if o.phase = .load then
      put { l with mA := mA,
                   lowAt := if mA < 10 * bf (s.ocfg k) 23 16 then some (l.lowAt.getD s.tb) else none }
    else s

/-! ### Group supplies (R72, R73) -/

/-- One measurement of a group by one sequencer: Table 3.5. -/
def SeqGroup.measure (g : SeqGroup) (gthr : Word) (now : Nat) (mV : Int) (short : Bool) : SeqGroup :=
  let low : Int := 100 * bf gthr 15 8
  let abs : Int := 100 * bf gthr 7 0
  let run (c : Bool) (n : Nat) : Nat := if c then min 3 (n + 1) else 0
  let since (c : Bool) (t : Option Nat) : Option Nat := if c then some (t.getD now) else none
  let g1 := { g with volt := mV / 10, short := short, lastAt := some now,
                     runLow := run (decide (mV < low)) g.runLow,
                     runAbs := run (decide (mV < abs)) g.runAbs,
                     runRev := run (decide (mV < -2000)) g.runRev,
                     okLow := since (decide (low + 500 ≤ mV)) g.okLow,
                     okAbs := since (decide (abs + 500 ≤ mV)) g.okAbs,
                     okRev := since (decide (0 ≤ mV)) g.okRev }
  let held (t : Option Nat) : Bool := match t with
    | some t0 => decide (t0 + 200000 ≤ now)
    | none => false
  let bad : GroupSt :=
    if 3 ≤ g1.runRev then .reversed else if 3 ≤ g1.runAbs then .absent
    else if 3 ≤ g1.runLow then .low else .normal
  let leaveAbs : GroupSt :=
    if held g1.okAbs then (if held g1.okLow then .normal else .low) else .absent
  let left : GroupSt := match g1.st with
    | .normal => .normal
    | .low => if held g1.okLow then .normal else .low
    | .absent => leaveAbs
    | .reversed => if held g1.okRev then .absent else .reversed
  { g1 with st := left.worse bad }

/-- R38: the switch that feeds S1 and S2 takes a position; an open switch carries no current to limit. -/
def State.setSensorSwitch (s : State) (g : Nat) (isOpen : Bool) : State :=
  let s1 := { s with fld := { s.fld with sOpen := Tab.set false s.fld.sOpen g isOpen } }
  if isOpen then
    [Side.a, Side.b].foldl (fun acc q => acc.setGrp q g { acc.grp q g with short := false }) s1
  else s1

def State.sensorOpen (s : State) (g : Nat) : Bool := Tab.get false s.fld.sOpen g

/-- Effects of a group's change of state (R38, R49, R73, R222, Table 9.4). -/
def State.groupEffects (s : State) (g : Nat) (was : GroupSt) : State :=
  let now := s.groupSt g
  if now = was then s
  else
    let ks := allOuts.filter fun k => k / 8 == g
    let back := decide (2 ≤ was.code) && decide (now.code < 2)
    let s1 := ks.foldl (fun acc k =>
      let acc1 := acc.updFout k fun o =>
        { o with judgeFrom := if back then acc.fld.frame + 1 else o.judgeFrom,
                 retest := if now = .reversed then o.retest.map (fun r => { r with aborted := true })
                           else o.retest }
      acc1.refreshOut k) (s.setSensorSwitch g (decide (2 ≤ now.code)))
    s1.refreshInputs fun n =>
      match s1.sourceOf n with
      | some k => k / 8 == g
      | none => bf (s1.icfg n) 29 27 == g

/-! ### Sequencer arbitration (R225, R226) -/

/-- Everything that depends on which sequencers run is formed again. -/
def State.refreshField (s : State) : State :=
  s.refreshOuts.refreshInputs fun _ => true

/-- A sequencer's gate inputs become invalid. -/
def State.stopSeq (s : State) (q : Side) : State :=
  let s1 := s.setSeq q { s.seq q with st := .stopped s.tb, got := none }
  let s2 := allOuts.foldl (fun acc k =>
    acc.updFout k fun o =>
      { o with memHi := (decide (o.phase = .load) && o.pulse != .dark) || o.pulse == .light
               memLo := decide (o.phase = .load) && o.pulse != .lsDark
               holdOver := false }) s1
  ((List.range 8).foldl (fun acc g => acc.groupEffects g (s.groupSt g)) s2).refreshField

/-! ### The commands: terminals -/

/-- INPUT_CHANGE: the voltage at a terminal as both comparators see it (R57). -/
def execInputChange (t : Fin 256) (mV : Int) (s : State) : Host.Outcome State Fault Refusal :=
  .next <|
    if !s.fieldOn then s
    else
      [Side.a, Side.b].foldl (fun acc q =>
        let v := acc.term q t.val
        let l := compare57 q t.val mV v.level
        if l == v.level then acc else acc.setTerm q t.val { v with level := l, since := acc.tb }) s

/-- GLITCH_FILTER (R59): a new level has held for 2 µs. -/
def execGlitchFilter (q : Side) (t : Fin 256) (s : State) : Host.Outcome State Fault Refusal :=
  .next <|
    let v := s.term q t.val
    if !s.lives q || v.level == v.filt || decide (s.tb < v.since + 400) then s
    else
      let s0 := s.setTerm q t.val { v with filt := v.level, filtAt := v.since }
      let s1 := s0.fireTrigs q fun g => g.takesEdge t.val v.level
      let s2 := if t.val < 128 then s1.countEdge q t.val v.level v.since else s1
      if s2.inUse t.val && decide (t.val < 192) then s2.judgeEdge q t.val v.level v.since v.filtAt
      else if 192 ≤ t.val then s2.readEdge q (t.val - 192) false v.since v.filtAt
      else if 128 ≤ t.val then s2.readEdge q (t.val - 128) true v.since v.filtAt
      else s2

/-! ### The commands: pulses -/

/-- R53: an input that expects no source any more is judged from its standing level, without the holds
and the pattern of the source that it had. -/
def State.unsource (s : State) (q : Side) (n : Nat) : State :=
  let i := s.inp q n
  let c := if 2 ≤ i.cause then 0 else i.cause
  (s.setInp q n { SeqIn.start with judged := (s.term q n).filt, judgedAt := s.tb, deb := i.deb
                                   cause := i.cause, fslot := i.fslot }).setCause q n c

/-- A frame number of the old period in the numbers of the new one, whose present frame is `f`: a frame
that had begun has begun, and one that had not is the present one. -/
def reframe (old f n : Nat) : Nat := if n ≤ old then 0 else f

/-- What outputs and inputs wait for in frames keeps its place where the frame period changes (R53, R71,
R222, R230). -/
def State.reframed (s : State) (old f : Nat) : State :=
  let outs := allOuts.foldl (fun (acc : State) k =>
    acc.updFout k fun o =>
      { o with judgeFrom := reframe old f o.judgeFrom
               retest := o.retest.map fun r => { r with frame := f - 1 - (old - r.frame) } }) s
  outs.inputsInUse.foldl (fun acc n =>
    [Side.a, Side.b].foldl (fun (a2 : State) q =>
      a2.setInp q n { a2.inp q n with judgeFrom := reframe old f (a2.inp q n).judgeFrom }) acc) outs

/-- PULSE_FRAME (R42, R53): a frame begins; pulse-frame items of a new bank come into force at the
first boundary of the new frame period. -/
def execPulseFrame (s : State) : Host.Outcome State Fault Refusal :=
  .next <|
    if !s.fieldOn then s
    else
      let new := s.fld.cfg
      let start := s.tb / new.period * new.period
      let take := decide (s.fld.pulseCfg ≠ new) && decide (s.fld.bankAt ≤ start)
      let c := if take then new else s.fld.pulseCfg
      let f := s.tb / c.period
      if !take && f == s.fld.frame then s
      else
        let mode (n : Nat) : Nat := bf (nth new.icfg n 0) 31 30
        let moved := s.inputsInUse.filter fun n =>
          take && mode n == 1 && s.sourceOf n != some (bf (nth new.icfg n 0) 21 16)
        let freed := s.inputsInUse.filter fun n => take && mode n != 1 && (s.sourceOf n).isSome
        let s0 := if c.period = s.fld.pulseCfg.period then s else s.reframed s.fld.frame f
        let s1 := { s0 with fld := { s0.fld with pulseCfg := c, frame := f } }
        let s2 := s1.inputsInUse.foldl (fun acc n =>
          [Side.a, Side.b].foldl (fun (a2 : State) q =>
            let a3 := a2.frameInput q n
            if moved.contains n then a3.setInp q n { a3.inp q n with hold := true, dirty := true }
            else if freed.contains n then a3.unsource q n else a3) acc) s1
        if take then s2.refreshField else s2

/-- Begin of the output's pulse: which pulse its phase gives (R42, R50, R51). -/
def State.pulseBegin (s : State) (k f : Nat) : State :=
  s.updFout k fun o =>
    { o with pulse := match o.phase with
        | .load => if f % 2 = 0 then .dark
                   else if s.single k || s.sonly k then .none else .lsDark
        | .source => if s.canClose then .light else .missed
        | .idle => .none }

/-- End of the output's pulse: what waited for it (R48, Table 9.4). -/
def State.pulseEnd (s : State) (k : Nat) : State :=
  let o := s.fout k
  let s1 := s.setFout k { o with pulse := .none, defer := false, silPend := false }
  if o.silPend && s.fld.silent.isSome && !(s.outHold k && !o.silOpen) then s1.silenceOpen k
  else s1.refreshOut k

/-- One point of the output's slot, whose instant is `x`. -/
def State.pulsePoint (s : State) (k : Nat) (pt : PulsePoint) (x : Nat) : State :=
  let o := s.fout k
  let begun := x + s.fld.pulseCfg.beginOff k - s.fld.pulseCfg.pointOff k pt
  let given := o.pulse == .dark || o.pulse == .light
  match pt with
  | .b => (s.pulseBegin k (s.fld.pulseCfg.frameOf x)).steadyAll x
  | .b30 =>
    let s1 := s.pointInputs k pt x (given || o.pulse == .missed)
    s1.faultOut k (s1.found fun q => minCause (s1.judgeWindow q k x) (s1.judgeSteady q k x)) 0
  | .e => (s.pointInputs k pt x given).pulseEnd k
  | .e30 =>
    let s1 := s.pointInputs k pt x (decide (o.changed ≤ begun))
    s1.faultOut k (s1.found fun q => s1.judgeSteady q k x) 0

/-- PULSE (R41, R62, R63, R218): the newest instant of a point of output `k`'s slot that has passed;
b + 30 µs and e + 30 µs are judged from the filtered signal 2 µs later (R59). A pulse in progress ends
also where the timebase stands still. -/
def execPulse (k : Fin 64) (pt : PulsePoint) (s : State) : Host.Outcome State Fault Refusal :=
  .next <|
    let c := s.fld.pulseCfg
    let late := match pt with
      | .b => 0
      | .b30 => 400
      | .e => 0
      | .e30 => 400
    let x0 := s.fld.frame * c.period + c.pointOff k.val pt
    let x := if s.tb < x0 + late ∧ c.period ≤ x0 then x0 - c.period else x0
    let ends := s.pwr.osc.stopped && decide (pt = .e) && decide ((s.fout k.val).pulse ≠ .none)
    if !(s.lives .a || s.lives .b) ||
        (!ends && (decide (s.tb < x + late) || decide (x ≤ (s.fout k.val).lastPt)))
    then s
    else (s.updFout k.val fun o => { o with lastPt := x }).pulsePoint k.val pt x

/-! ### The commands: faults and measurements -/

/-- OVERLOAD (R218): a switch has stayed in current limit for 10 ms. -/
def execOverload (k : Fin 64) (low : Bool) (s : State) : Host.Outcome State Fault Refusal :=
  .next <| if s.fieldOn && !(low && s.single k.val) then s.faultOut k.val 8 0 else s

/-- THERMAL_SHUTDOWN (R214): a switch shuts down, with cause OVERLOAD. -/
def execThermalShutdown (k : Fin 64) (low : Bool) (s : State) : Host.Outcome State Fault Refusal :=
  .next <| if s.fieldOn && !(low && s.single k.val) then s.faultOut k.val 8 0 else s

/-- READBACK_DISAGREE (R218): the two readings have differed for 20 ms. -/
def execReadbackDisagree (k : Fin 64) (minus : Bool) (s : State) :
    Host.Outcome State Fault Refusal :=
  .next <|
    let o := s.fout k.val
    match if minus then o.disM else o.disP with
    | some t => if s.lives .a && s.lives .b && o.judged && decide (t + 4000000 ≤ s.tb)
                then s.faultOut k.val 10 0 else s
    | none => s

/-- LINE_SENSE (R221). -/
def execLineSense (q : Side) (k : Fin 64) (m : LineMeas) (s : State) :
    Host.Outcome State Fault Refusal :=
  .next <| if s.lives q then s.measureLine q k.val m else s

/-- GROUP_SUPPLY (R38, R72): one measurement, every 10 µs. -/
def execGroupSupply (q : Side) (g : Fin 8) (mV : Int) (short : Bool) (s : State) :
    Host.Outcome State Fault Refusal :=
  .next <|
    let v := s.grp q g.val
    let due := match v.lastAt with
      | some t => decide (t + 2000 ≤ s.tb)
      | none => true
    if !s.lives q || !due then s
    else
      let was := s.groupSt g.val
      let now := v.measure s.fld.cfg.gthr s.tb mV (short && !s.sensorOpen g.val)
      (s.setGrp q g.val now).groupEffects g.val was

/-- OVERSUM (R223): the sum of the group's high-side currents as now measured, in 10 mA. -/
def execOversum (g : Fin 8) (sum : Nat) (s : State) : Host.Outcome State Fault Refusal :=
  .next <|
    if !(s.lives .a || s.lives .b) then s
    else
      let v := Tab.get .start s.fld.sums g.val
      let beyond := decide (600 < sum)
      let v1 : GSum :=
        if beyond == v.excess then { v with sum := sum, since := none }
        else
          let t := v.since.getD s.tb
          if t + 20000000 ≤ s.tb then { sum := sum, excess := beyond, since := none }
          else { v with sum := sum, since := some t }
      { s with fld := { s.fld with sums := Tab.set .start s.fld.sums g.val v1 } }

/-! ### The commands: arbitration and silence -/

/-- SEQUENCER_STOP (R225, R226): a sequencer stops; one that found a fault in itself reports it in one
more frame first. -/
def execSequencerStop (q : Side) (selfFault : Bool) (s : State) : Host.Outcome State Fault Refusal :=
  .next <|
    if !s.lives q then s
    else if selfFault then s.setSeq q { s.seq q with selfFault := true }
    else s.stopSeq q

/-- PEER_DEAD (R226): no heartbeat of the partner for 10 µs, or its self-fault report. -/
def execPeerDead (q : Side) (s : State) : Host.Outcome State Fault Refusal :=
  .next <|
    if !s.lives q then s
    else
      let p := s.seq (otherSide q)
      let dead := p.selfFault || match p.st with
        | .alive => false
        | .stopped t => decide (t + 2000 ≤ s.tb)
        | .off => true
      if dead then s.setSeq q { s.seq q with peerDead := true } else s

/-- GATE_HOLD (R225): 100 µs after a sequencer stopped, without SOLO. -/
def execGateHold (k : Fin 64) (s : State) : Host.Outcome State Fault Refusal :=
  .next <|
    let excess (q : Side) : Bool := match (s.seq q).st with
      | .stopped t => decide (t + 20000 ≤ s.tb) && s.lives (otherSide q) && !(s.seq (otherSide q)).solo
      | _ => false
    if excess .a || excess .b then
      (s.updFout k.val fun o =>
        { o with holdOver := true, pulse := if o.pulse = .light then .missed else o.pulse }).refreshOut k.val
    else s

/-- Silence time in ticks (R227). -/
def State.silenceTicks (s : State) : Nat := ticksUs (bf s.fld.cfg.silence 16 0)

/-- SILENCE (R227): the silence time is exceeded, or the timebase stands still (R267). -/
def execSilence (s : State) : Host.Outcome State Fault Refusal :=
  .next <|
    match s.fld.accepted, s.fld.silent with
    | some a, none =>
      if (s.lives .a || s.lives .b) && (s.pwr.osc.stopped || decide (a + s.silenceTicks < s.tb)) then
        let s1 := { s with fld := { s.fld with silent := some s.tb, silSeq := none } }
        (allOuts.filter fun k => !s1.outHold k).foldl State.silenceOpen s1
      else s
    | _, _ => s

/-- HOLD_TIME (R227): the hold time of an output during silence ends. -/
def execHoldTime (k : Fin 64) (s : State) : Host.Outcome State Fault Refusal :=
  .next <|
    match s.fld.silent with
    | some t =>
      if s.outHold k.val && !(s.fout k.val).silOpen && (s.lives .a || s.lives .b) &&
          (s.pwr.osc.stopped || decide (t + ticksMs (10 * bf (s.ocfg k.val) 9 0) ≤ s.tb))
      then (s.updFout k.val fun o => { o with silOpen := true }).silenceOpen k.val
      else s
    | none => s

end Sys2Proof.Machine
end

