-- ==== Sys2Proof/Machine/LinkOps.lean ====
section
/-! DEFINITION. The isolation links: frames, their acceptance at both ends, forming of inputs,
counters, outputs and groups on the logic side (chapters 3 and 9). -/

namespace Sys2Proof.Machine

def State.link (s : State) : Side → Link
  | .a => s.lgc.linkA
  | .b => s.lgc.linkB

def State.setLink (s : State) (l : Side) (v : Link) : State :=
  match l with
  | .a => { s with lgc := { s.lgc with linkA := v } }
  | .b => { s with lgc := { s.lgc with linkB := v } }

/-- The link's newest due frame was accepted and is not ignored (Table 3.3). -/
def State.delivers (s : State) (l : Side) : Bool :=
  let v := s.link l
  decide (v.st = .valid) && !v.retired && v.last.isSome && s.mx l

def State.lastUp (s : State) (l : Side) : Option Up := if s.delivers l then (s.link l).last else none

/-! ### FLD_OSTAT and FLD_LNKERR -/

def Link.code (l : Link) : Nat :=
  match l.st with
  | .valid => 0
  | .silent => 1
  | .faulty => 2

def State.ostat (s : State) : Word :=
  mkWord [(s.lgc.fsA, 24), (s.lgc.fsB, 20), (s.lgc.linkA.code, 16), (s.lgc.linkB.code, 12),
    (s.lgc.solo, 8), (b2n s.lgc.silseen, 1), (b2n s.fld.bank, 0)]

/-! ### FAULTY and retirement (R237, R241, R426) -/

def State.linkRecord (s : State) (l : Side) (code : Nat) : State :=
  let v := s.link l
  s.record 0x0406 2 ([BitVec.ofNat 8 (sideNat l), BitVec.ofNat 8 code] ++ be16 v.missing ++
    be16 v.crcerr)

/-- A link is judged FAULTY; the third judgement within 24 operating hours retires it. -/
def State.judgeFaulty (s : State) (l : Side) : State :=
  let v := s.link l
  if v.st = .faulty then s
  else
    let fs := s.pwr.opsec :: within24h v.faults s.pwr.opsec
    let s1 := s.setLink l { v with st := .faulty, good := 0, faults := fs, last := none }
    let s2 := s1.linkRecord l 2
    if fs.length < 3 then s2
    else
      let s3 := s2.setLink l { s2.link l with retired := true }
      (s3.retireBit (10 + sideNat l)).linkRecord l 3

/-- More than ten stamps within the last second. -/
def tooMany (stamps : List Nat) (now : Nat) : Bool :=
  decide (10 < (stamps.filter fun t => decide (now < t + 200000000)).length)

/-- Counts a missing frame, or a failed check. -/
def State.countLink (s : State) (l : Side) (crc : Bool) : State :=
  let v := s.link l
  let v1 := if crc
    then { v with crcerr := satAdd 0xFFFF v.crcerr 1, crcAt := (s.tb :: v.crcAt).take 11, good := 0 }
    else { v with missing := satAdd 0xFFFF v.missing 1, missAt := (s.tb :: v.missAt).take 11,
                  good := 0 }
  let s1 := s.setLink l v1
  if tooMany (if crc then v1.crcAt else v1.missAt) s.tb then s1.judgeFaulty l else s1

/-! ### Death of a sequencer (R226) -/

def State.fsCode (s : State) : Side → Nat
  | .a => s.lgc.fsA
  | .b => s.lgc.fsB

/-- Declares sequencer `q` dead where both grounds hold. -/
def State.judgeDead (s : State) (q : Side) : State :=
  let v := s.link q
  let own := decide (2 ≤ v.missRun) || ((s.lastUp q).map Up.selfFault).getD false
  let peer := ((s.lastUp (otherSide q)).map Up.peerDead).getD false
  if own && peer && s.fsCode q == 0 && s.fsCode (otherSide q) == 0 then
    let lgc := match q with
      | .a => { s.lgc with fsA := 1, solo := 2 }
      | .b => { s.lgc with fsB := 1, solo := 1 }
    let s1 := ({ s with lgc := lgc }).retireBit (12 + sideNat q)
    s1.record 0x0405 2 (wordBytes s1.ostat)
  else s

/-! ### Forming inputs (R67 to R70) -/

/-- Cause of an INVALID reading: supply and output states of the same frame first, then FOREIGN with the
slot that the frame carries; otherwise SOURCE_SUPPLY or SOURCE_FAULTED where that code was the last one
carried, and MISSING. DESIGN CHOICE (log 92): Table 9.6 has no field for the slot and rotates the codes. -/
def State.causeIn (s : State) (l : Side) (f : Up) (n : Nat) : Nat × Nat :=
  let w := match s.img false with
    | some m => nth m.icfg n 0
    | none => 0
  let rot := Tab.get 0 (s.link l).causes n
  let slot := f.fslots.find? fun e => e.1 == n
  let dead (g : Nat) : Bool := decide (2 ≤ ((f.groups[g]?).map GroupRep.st).getD 0)
  let out (k : Nat) : OutRep := nth f.outs k
    { cause := 0, line := 3, phase := 0, fslot := 0, faultAt := 0, qp := false, qm := false }
  if bf w 31 30 ≠ 1 then (1, 0)
  else
    let k := bf w 21 16
    if dead (k / 8) then (2, 0)
    else if (out k).cause ≠ 0 then (3, 0)
    else
      match slot with
      | some e => (4, e.2)
      | none => if rot = 2 ∨ rot = 3 then (rot, 0) else (5, 0)

/-- One link's reading: value, INVALID cause (0 for valid) and foreign slot. -/
def State.readingOf (s : State) (l : Side) (n : Nat) : Option (Bool × Nat × Nat) :=
  (s.lastUp l).map fun f =>
    if f.inv.getLsbD n then
      let c := s.causeIn l f n
      (false, c.1, c.2)
    else (f.rd.getLsbD n, 0, 0)

/-- Table 3.3: value, cause of INVALID and slot, and whether two readings differ or agree. DESIGN CHOICE
(log 77): two INVALID readings agree for the times of R68. -/
def State.table33 (s : State) (n : Nat) : Bool × Nat × Nat × Option Bool :=
  match s.readingOf .a n, s.readingOf .b n with
  | none, none => (false, 7, 0, none)
  | some x, none => (x.1, x.2.1, x.2.2, none)
  | none, some y => (y.1, y.2.1, y.2.2, none)
  | some x, some y =>
    if x.2.1 = 0 ∧ y.2.1 = 0 then (x.1 && y.1, 0, 0, some (x.1 == y.1))
    else if x.2.1 ≠ 0 ∧ y.2.1 ≠ 0 then
      (false, min x.2.1 y.2.1, if x.2.1 ≤ y.2.1 then x.2.2 else y.2.2, some true)
    else (false, 0, 0, some false)

def inputRec (n cause slot ev : Nat) : List Byte :=
  be16 n ++ [BitVec.ofNat 8 cause, BitVec.ofNat 8 slot, BitVec.ofNat 8 ev]

/-- One of the two readings of an input is INVALID and the other is valid. -/
def State.oneInvalid (s : State) (n : Nat) : Bool :=
  match s.readingOf .a n, s.readingOf .b n with
  | some x, some y => (x.2.1 == 0) != (y.2.1 == 0)
  | _, _ => false

/-- Forms input `n` again, with its diagnostics, its records and what captures its edges (R67 to R70,
R289). An input whose readings have not been formed yet begins here: INVALID counts as an entry (R69). The 0
that one INVALID reading makes is not the last valid value that R70 holds (DEDUCED, log 77). An edge is a
change between one valid value and the next (R293; DESIGN CHOICE, log 93). -/
def State.formInput (s : State) (n : Nat) : State :=
  let o := s.form n
  let first := !o.formed
  let (v, c0, slot, cmp) := s.table33 n
  let c := if o.disagree || s.lgc.inBad.contains n then (if c0 = 0 then 6 else min c0 6) else c0
  let bad := c != 0
  let val := v && !bad
  let enter := bad && (!o.invalid || first)
  let half := decide (cmp = some false) && c0 == 0 && s.oneInvalid n
  let f : InForm :=
    { v := val, invalid := bad, cause := c,
      entries := if enter && s.lgc.any then satAdd 0xFFFF o.entries 1 else o.entries,
      fslot := if c = 4 then slot else o.fslot,
      diffAt := if cmp = some false then some (o.diffAt.getD s.tb) else none,
      agreeAt := if cmp = some true then some (o.agreeAt.getD s.tb) else none,
      disagree := o.disagree,
      lastVal := if bad || half then o.lastVal else val,
      lastAt := if bad || half then o.lastAt else some s.tb,
      sagAt := if c = 1 ∨ c = 2 then
          (if !o.invalid || o.sagAt.isSome then some (o.sagAt.getD s.tb) else none)
        else none
      formed := s.lgc.any }
  let s1 := { s with lgc := { s.lgc with ins := Tab.set .start s.lgc.ins n f } }
  let s2 := if bad || half || o.lastAt.isNone || o.lastVal == val then s1
    else s1.captureFrom 1 (fun a => a % 256 == n) (edgeTakes val)
  if !s.lgc.any then s2
  else if enter then s2.record 0x0301 3 (inputRec n c (if c = 4 then slot else 0) 1)
  else if bad && c != o.cause then s2.record 0x0301 1 (inputRec n c (if c = 4 then slot else 0) 2)
  else if !bad && o.invalid && !first then
    s2.record 0x0301 1 (inputRec n o.cause (if o.cause = 4 then o.fslot else 0) 0)
  else s2

/-- Inputs of the running image. -/
def State.inputsOf (s : State) : List Nat :=
  match s.img false with
  | none => []
  | some m => (List.range m.icfg.length).filter fun n => decide (n < 128) || m.pole.getLsbD (n - 128)

def State.formInputs (s : State) : State := s.inputsOf.foldl State.formInput s

/-- R16: what stood before the present tick is kept for the snapshots of this tick. -/
def State.keepFormed (s : State) : State :=
  if s.lgc.formedAt = s.tb then s
  else
    { s with lgc := { s.lgc with formedAt := s.tb, insWas := s.lgc.ins, cntsWas := s.lgc.cnts,
                                 outsWas := s.lgc.outs } }

/-! ### Forming counters (R78) -/

/-- Mode of a counter in the running image; pairs, from 128 on, count as QUAD (R191). -/
def State.cntModeL (s : State) (m : Nat) : Nat :=
  match s.img false with
  | none => 0
  | some i => if m < 128 then bf (nth i.ccfg m 0) 2 0 else 2

def withinTol (mode : Nat) (x y : Word) : Bool :=
  let d := sgn 32 (x - y).toNat
  if mode = 4 then (x == 0xFFFFFFFF) == (y == 0xFFFFFFFF) && decide (d.natAbs ≤ 4)
  else decide (d.natAbs ≤ 2)

def State.cform (s : State) (m : Nat) : CntForm := Tab.get .start s.lgc.cnts m

/-- The value presented is FS-B's: only its link is valid (R78). -/
def State.showsB (s : State) : Bool := !s.delivers .a && s.delivers .b

/-- FLD_CSTAT bits [5:0]; STOPPED is that of the value presented. -/
def State.cntStat (s : State) (c : CntForm) : Nat :=
  b2n c.wrap + 2 * b2n c.qerr + 4 * b2n c.diff + 8 * b2n c.invalid +
    16 * b2n (if s.showsB then c.stoppedB else c.stoppedA) + 32 * b2n c.excess

def State.counterRecord (s : State) (m : Nat) : State :=
  let c := s.cform m
  s.record 0x0304 2 ([BitVec.ofNat 8 m, BitVec.ofNat 8 (s.cntStat c)] ++ wordBytes c.va ++ wordBytes c.vb)

/-- R210: link `l` delivers a value of a counter; a trigger whose condition it does not meet is left. -/
def State.leaveTrigs (s : State) (l : Side) (num : Nat) (v : Word) : State :=
  match s.img false with
  | none => s
  | some m =>
    let out (t : Nat) : Bool := match m.trigs[t]? with
      | some x => bf x.word 31 28 == 2 && bf x.word 7 0 == num && !x.holds v
      | none => false
    let keep := maskWord fun t => !out t
    match l with
    | .a => { s with lgc := { s.lgc with entA := s.lgc.entA &&& keep } }
    | .b => { s with lgc := { s.lgc with entB := s.lgc.entB &&& keep } }

/-- R210: link `l` reports trigger `t` fired; a counter trigger that the other sequencer has already
entered, and not left, has fired. Answers whether it fires, and what is known then. -/
def State.reportTrig (s : State) (l : Side) (t : Nat) : Bool × State :=
  let kind := match (s.img false).bind fun m => m.trigs[t]? with
    | some x => bf x.word 31 28
    | none => 0
  if kind ≠ 2 then (true, s)
  else
    let bit := BitVec.ofNat 32 (1 <<< t)
    match l with
    | .a => (!(s.lgc.entB.getLsbD t && !s.lgc.entA.getLsbD t && s.delivers .b),
             { s with lgc := { s.lgc with entA := s.lgc.entA ||| bit } })
    | .b => (!(s.lgc.entA.getLsbD t && !s.lgc.entB.getLsbD t && s.delivers .a),
             { s with lgc := { s.lgc with entB := s.lgc.entB ||| bit } })

/-- What a link has delivered of a counter; after a restart of the field side, nothing. -/
def CntForm.seen (c : CntForm) (l : Side) (epoch : Nat) : FlagsIn :=
  if c.epoch ≠ epoch then .start else match l with | .a => c.seenA | .b => c.seenB

/-- Flags that a refresh brings anew: a flag that stood in the last one is not new unless a clear has been
taken between the two. -/
def FlagsIn.news (f : FlagsIn) (r : CntRep) : FlagsIn :=
  let open_ := r.clears != f.clears
  { wrap := r.wrap && (open_ || !f.wrap), qerr := r.qerr && (open_ || !f.qerr),
    excess := r.excess && (open_ || !f.excess), wraps := r.wraps, clears := r.clears }

/-- One refresh of a counter by link `l`; `both` tells that the other link's refresh of the same
launch tick is in place. -/
def State.formCnt (s : State) (l : Side) (tick : Nat) (both : Bool) (r : CntRep) : State :=
  let o := s.cform r.num
  let o1 := match l with
    | .a => { o with va := r.val, stoppedA := r.stopped }
    | .b => { o with vb := r.val, stoppedB := r.stopped }
  let ok := withinTol (s.cntModeL r.num) o1.va o1.vb
  let bad := if !both then o1.badRun else if ok then 0 else min 2 (o1.badRun + 1)
  let good := if !both then o1.goodRun else if ok then min 10 (o1.goodRun + 1) else 0
  let inv := if 2 ≤ bad then true else if 10 ≤ good then false else o1.invalid
  let e := s.fld.epoch
  let new := (o.seen l e).news r
  let known := max (o.seen .a e).wraps (o.seen .b e).wraps
  let now : FlagsIn := { wrap := r.wrap, qerr := r.qerr, excess := r.excess, wraps := r.wraps, clears := r.clears }
  let f := { o1 with badRun := bad, goodRun := good, invalid := inv, diff := inv, tick := tick,
                     epoch := s.fld.epoch,
                     wraps := o1.wraps + (r.wraps - known),
                     wrap := o1.wrap || new.wrap,
                     qerr := o1.qerr || new.qerr,
                     excess := o1.excess || new.excess,
                     seenA := if l = .a then now else o.seen .a e,
                     seenB := if l = .b then now else o.seen .b e }
  let news := (f.wrap && !o.wrap) || (f.qerr && !o.qerr) || (f.excess && !o.excess) ||
    (f.diff && !o.diff)
  let s0 := ({ s with lgc := { s.lgc with cnts := Tab.set .start s.lgc.cnts r.num f } } :
    State).leaveTrigs l r.num r.val
  let s1 := [(new.wrap, 0), (new.qerr, 1), (new.excess, 5)].foldl
    (fun (acc : State) e => if e.1 then acc.noteFlag (counterFlag r.num e.2) else acc) s0
  if news && decide (r.num < 128) then s1.counterRecord r.num else s1

/-- Value presented of a counter or pair, none while INVALID (R78); `c` as now or as before this
tick. DESIGN CHOICE (log 94): a counter INVALID by DIFF stays INVALID where one link alone is valid, and after
one refresh beyond tolerance FS-A's value is presented. -/
def State.presented (s : State) (c : CntForm) : Option Word :=
  if c.invalid then none else if s.showsB then some c.vb else some c.va

/-! ### Outputs and groups on the logic side -/

def State.oform (s : State) (k : Nat) : OutForm := Tab.get .start s.lgc.outs k

def State.formOut (s : State) (l : Side) (k : Nat) (r : OutRep) : State :=
  let o := s.oform k
  let other := ((s.lastUp (otherSide l)).bind fun f => f.outs[k]?).map OutRep.line
  let line := worseLine r.line (other.getD r.line)
  let enter := r.cause != 0 && o.cause == 0
  let f : OutForm :=
    { cause := r.cause, line := line, phase := r.phase,
      fslot := if r.fslot ≠ o.fslot && r.cause != 0 then r.fslot else o.fslot,
      entries := if enter then satAdd 0xFFFF o.entries 1 else o.entries }
  let s1 := { s with lgc := { s.lgc with outs := Tab.set .start s.lgc.outs k f } }
  let s2 := if enter then
      s1.record 0x0401 4 [BitVec.ofNat 8 k, BitVec.ofNat 8 r.cause,
        BitVec.ofNat 8 (if r.cause = 3 then r.fslot else 0)] false (some r.faultAt)
    else s1
  if line = o.line then s2
  else s2.record 0x0403 2 [BitVec.ofNat 8 k, BitVec.ofNat 8 o.line, BitVec.ofNat 8 line]

def State.gform (s : State) (g : Nat) : GroupRep := Tab.get .start s.lgc.groups g

def State.formGroup (s : State) (g : Nat) (r : GroupRep) : State :=
  let o := s.gform g
  let s1 := { s with lgc := { s.lgc with groups := Tab.set .start s.lgc.groups g r } }
  let s2 := if r.st = o.st then s1
    else s1.record 0x0303 2 ([BitVec.ofNat 8 g, BitVec.ofNat 8 o.st, BitVec.ofNat 8 r.st] ++
      be16 (twos 16 r.volt))
  if r.excess == o.excess then s2
  else s2.record 0x0404 2 ([BitVec.ofNat 8 g, BitVec.ofNat 8 (b2n r.excess)] ++ be16 r.sum)

/-! ### Uplink frames (R234) -/

/-- OST byte of an output as sequencer `q` reports it. -/
def State.outRep (s : State) (q : Side) (k : Nat) : OutRep :=
  let o := s.fout k
  { cause := o.cause, line := s.lineOf q k, phase := o.phase.code,
    fslot := o.fslot, faultAt := o.faultAt, qp := (s.term q (192 + k)).filt,
    qm := (s.term q (128 + k)).filt }

def State.cntRep (s : State) (q : Side) (m : Nat) : CntRep :=
  let c := s.fcnt q m
  { num := m, val := c.val, wrap := c.wrap, qerr := c.qerr, excess := c.excess, stopped := c.stopped,
    wraps := c.wraps, clears := c.clears }

/-- The frame that sequencer `q` launches at the present tick. -/
def State.mkUp (s : State) (q : Side) : Up :=
  let useq := s.tb / 2000 % 65536
  let r := useq % 8
  let used := s.inputsInUse
  let bits (p : Nat → Bool) : BitVec 192 :=
    used.foldl (fun acc n => if p n then acc ||| BitVec.ofNat 192 (1 <<< n) else acc) 0#192
  let promo := (List.range s.fld.cfg.ccfg.length).filter fun m => bitOf (s.ccfg m) 8
  let own := s.seq q
  { tick := s.tb, useq := useq, peerDead := own.peerDead, selfFault := own.selfFault,
    inSolo := own.solo, silent := s.fld.silent.isSome, bank := s.fld.bank, dlast := s.fld.dlast,
    rd := bits fun n => (s.inp q n).deb && (s.inp q n).cause == 0,
    inv := bits fun n => (s.inp q n).cause != 0,
    causes := (List.range 24).map fun i =>
      let n := 24 * r + i
      (n, if s.inUse n then (s.inp q n).cause else 0),
    fslots := (used.filter fun n => (s.inp q n).cause == 4).map fun n => (n, (s.inp q n).fslot),
    outs := (List.range 64).map (s.outRep q),
    groups := (List.range 8).map fun g =>
      { st := (s.groupSt g).code, short := (s.grp q g).short,
        excess := (Tab.get .start s.fld.sums g).excess, volt := (s.grp q g).volt,
        sum := (Tab.get .start s.fld.sums g).sum },
    cnts := ((List.range 16).map fun i => s.cntRep q (16 * r + i)) ++ promo.map (s.cntRep q),
    sc := s.fld.cfg.pairs.map fun p =>
      let c := Tab.get .start s.fld.scs (sideNat q * 16 + p.1)
      (p.1, c.val, c.err, c.clears),
    trig := match q with | .a => s.fld.trigA | .b => s.fld.trigB }

/-- A list of bits, first bit most significant, as bytes. -/
def bitBytes (n : Nat) (l : List (Nat × Nat)) : List Byte :=
  beBytes n (l.foldl (fun acc e => acc * 2 ^ e.1 + e.2 % 2 ^ e.1) 0)

def CntRep.flags (c : CntRep) : Nat :=
  8 * b2n c.wrap + 4 * b2n c.qerr + 2 * b2n c.excess + b2n c.stopped

/-- Bytes 0 to 383 of the frame (Table 9.6). -/
def Up.bytes (f : Up) (q : Side) : List Byte :=
  let b1 := 128 * sideNat q + 64 * b2n f.peerDead + 32 * b2n f.selfFault + 16 * b2n f.inSolo +
    8 * b2n f.silent + 4 * b2n f.bank
  let outBits (p : OutRep → Bool) : List Byte :=
    be64 (f.outs.zipIdx.foldl (fun acc e => if p e.1 then acc + 2 ^ e.2 else acc) 0)
  let rot := f.cnts.take 16
  let pro := f.cnts.drop 16
  let val (m : Nat) : Nat := ((f.sc.find? fun e => e.1 == m).map fun e => e.2.1.toNat).getD 0
  let err (m : Nat) : Bool := ((f.sc.find? fun e => e.1 == m).map fun e => e.2.2.1).getD false
  [2#8, BitVec.ofNat 8 b1] ++ be16 f.useq ++ be16 f.dlast ++ beBytes 24 f.rd.toNat ++
    beBytes 24 f.inv.toNat ++ bitBytes 9 (f.causes.map fun e => (3, e.2)) ++ [0#8] ++
    outBits OutRep.qp ++ outBits OutRep.qm ++
    f.outs.map (fun o => BitVec.ofNat 8 (o.cause * 16 + o.line * 4 + o.phase)) ++
    f.groups.flatMap (fun g =>
      beBytes 3 (g.st * 2 ^ 22 + b2n g.short * 2 ^ 21 + b2n g.excess * 2 ^ 20 + twos 16 g.volt)) ++
    rot.flatMap (fun c => wordBytes c.val) ++ bitBytes 8 (rot.map fun c => (4, c.flags)) ++
    ((pro.flatMap (fun c => wordBytes c.val)) ++ List.replicate 64 0#8).take 64 ++
    (bitBytes 8 ((pro.map fun c => (4, c.flags)) ++ List.replicate (16 - pro.length) (4, 0))) ++
    (List.range 16).flatMap (fun m => be32 (val m)) ++
    be16 ((List.range 16).foldl (fun acc m => if err m then acc + 2 ^ m else acc) 0) ++
    wordBytes f.trig ++ be16 0

/-- R237: a frame that is due at link `l` is missing. -/
def State.missLink (s : State) (l : Side) : State :=
  let v := s.link l
  let counted := s.mx l && s.lives l && s.fsCode l == 0 && !s.pwr.osc.stopped && !v.retired
  let s1 := s.setLink l { v with st := if v.st = .faulty then .faulty else .silent, up := none,
                                 due := none, last := none, missRun := v.missRun + 1,
                                 good := 0 }
  let s1 := if v.st = .valid ∧ v.retired = false then s1.linkRecord l 1 else s1
  let s2 := if counted then s1.countLink l false else s1
  ((s2.keepFormed.formInputs).judgeDead .a).judgeDead .b

/-- What the logic side takes from an accepted frame. -/
def State.takeUp (s : State) (l : Side) (f : Up) : State :=
  let both := ((s.lastUp (otherSide l)).map fun x => x.tick == f.tick).getD false
  let twin := ((s.lastUp (otherSide l)).map fun x => if x.tick = f.tick then x.trig else 0).getD 0
  let v := s.link l
  let causes := f.causes.foldl (fun acc e => Tab.set 0 acc e.1 e.2) v.causes
  let s0 := (s.setLink l { v with last := some f, causes := causes }).keepFormed
  let s1 := ({ s0 with lgc := { s0.lgc with any := true } } : State).formInputs
  let s2 := { s1 with lgc := { s1.lgc with silseen := s1.lgc.silseen || f.silent } }
  let rot := f.cnts.take 16
  let promo := (f.cnts.drop 16).filter fun r => !rot.any fun x => x.num == r.num
  let s3 := (rot ++ promo).foldl (fun acc r => acc.formCnt l f.tick both r) s2
  let s4 := f.sc.foldl (fun acc e => acc.formCnt l f.tick both
    { num := 128 + e.1, val := e.2.1, wrap := false, qerr := e.2.2.1, excess := false,
      stopped := false, wraps := 0, clears := e.2.2.2 }) s3
  let s5 := f.outs.zipIdx.foldl (fun acc e => acc.formOut l e.2 e.1) s4
  let s6 := f.groups.zipIdx.foldl (fun acc e => acc.formGroup e.2 e.1) s5
  let s7 := (List.range 32).foldl (fun acc t =>
    if f.trig.getLsbD t then
      let (fires, acc1) := acc.reportTrig l t
      if fires && !twin.getLsbD t then acc1.fire t else acc1
    else acc) s6
  (s7.judgeDead .a).judgeDead .b

/-- R237: a due frame of link `l` arrives with a valid check, in time. -/
def State.goodUp (s : State) (l : Side) (f : Up) : State :=
  let v := s.link l
  let v1 := { v with up := none, due := none, missRun := 0 }
  if v.retired then s.setLink l v1
  else if v.st = .faulty then
    let out := (s.unit (12 + 2 * sideNat l)).failed || (s.unit (13 + 2 * sideNat l)).failed
    if v.good + 1 < 1000 ∨ out = true then
      s.setLink l { v1 with good := v.good + 1 }
    else
      let s1 := s.setLink l { v1 with st := .valid, good := 0 }
      (s1.linkRecord l 0).takeUp l f
  else
    let s1 := s.setLink l { v1 with st := .valid }
    (if v.st = .silent then s1.linkRecord l 0 else s1).takeUp l f

/-- A check-value unit of link `l` that has failed makes the link FAULTY (Table 14.4). -/
def State.chargeLink (s : State) (l : Side) : State :=
  let n := 12 + 2 * sideNat l
  if (s.unit n).due || (s.unit (n + 1)).due then ((s.charged n).charged (n + 1)).judgeFaulty l else s

/-- The receiving check-value unit of link `l` judges a frame (Table 14.3): whether it passes. -/
def State.upCheck (s : State) (l : Side) (f : Up) (bad : Bool) : State × Bool :=
  let n := 13 + 2 * sideNat l
  let s1 := s.runUnit n fun c => c.aliveCheck false f.useq (f.bytes l)
  let u := s1.unit n
  if bad || u.fault then
    let u1 := { u with reg := (Config.freeWord s1.free).toNat, cmpd := true, match_ := false,
                       bad := satAdd 0xFFFF u.bad 1 }
    ((s1.setUnit n u1).takeFree, false)
  else (s1.setUnit n (u.expect u.result), true)

/-! ### Downlink frames (R224, R233) -/

/-- The frame that matrix copy `l` launches at the present tick. -/
def State.mkDown (s : State) (l : Side) : Down :=
  { solo := s.lgc.solo, bank := s.lgc.bank, dseq := s.tb / 2000 % 65536, tb := s.tb,
    img := s.image64 l, orst := mask64 fun k => Tab.get [] s.lgc.orst k != [], cclr := s.lgc.cclr,
    fclr := s.lgc.fclr, spoiled := false,
    urg := (List.range 4).map fun c =>
      ((s.lgc.urg.find? fun e => e.conv == c).map UrgAsk.ch) }

/-- Bytes 0 to 51 (Table 9.5). -/
def Down.bytes (d : Down) : List Byte :=
  [1#8, BitVec.ofNat 8 (d.solo * 64 + b2n d.bank * 32)] ++ be16 d.dseq ++ be64 d.tb ++
    be64 d.img.toNat ++ be64 d.orst.toNat ++ beBytes 16 d.cclr.toNat ++
    d.urg.map (fun u => match u with
      | some ch => BitVec.ofNat 8 (128 + ch)
      | none => 0#8) ++ be32 0

/-- The first request for each converter has been carried. -/
def dropFirst (c : Nat) : List UrgAsk → List UrgAsk
  | [] => []
  | e :: es => if e.conv = c then es else e :: dropFirst c es

/-- Counters clear on both sequencers (R79). -/
def State.clearCounter (s : State) (m : Nat) : State :=
  [Side.a, Side.b].foldl (fun acc q =>
    acc.putCnt q m ((acc.fcnt q m).cleared (acc.cntMode m) acc.tb)) s

/-- Flags clear on both sequencers (R79). -/
def State.unflag (s : State) (f : FlagClear) : State :=
  [Side.a, Side.b].foldl (fun acc q =>
    if f.num < 128 then acc.setFcnt q f.num ((acc.fcnt q f.num).unflag f)
    else
      let scs := Tab.upd .start acc.fld.scs (sideNat q * 16 + (f.num - 128)) fun x =>
        { x with err := x.err && !f.qerr, clears := x.clears + 1 }
      { acc with fld := { acc.fld with scs := scs } }) s

/-- A converter whose configuration changes begins its list again: nothing of it is at or past the new LEN
(R171; DESIGN CHOICE, log 86). -/
def State.restartList (s : State) (c : Nat) : State :=
  let v := Tab.get .start s.cnv.convs c
  let v1 := { v with next := 0, release := false, brk := true,
                     run := v.run.filter fun x => match x.kind with | .list _ => false | _ => true }
  { s with cnv := { s.cnv with convs := Tab.set .start s.cnv.convs c v1 } }

/-- The bank changes with the first frame that carries the new value (R53, R324). -/
def State.changeBank (s : State) (b : Bool) : State :=
  if s.fld.bank == b || !((s.lives .a && (s.seq .a).loaded) || (s.lives .b && (s.seq .b).loaded))
  then s
  else
    let new := s.fld.other
    let old := s.fld.cfg
    let qa := { s.fld.seqA with loaded := false }
    let qb := { s.fld.seqB with loaded := false }
    let s1 := { s with fld := { s.fld with cfg := new, other := old, bank := b, bankAt := s.tb,
                                           seqA := qa, seqB := qb } }
    let s2 := (List.range 128).foldl (fun acc m =>
      if nth new.ccfg m 0 = nth old.ccfg m 0 then acc
      else [Side.a, Side.b].foldl (fun (a2 : State) q =>
        let c := a2.fcnt q m
        a2.putCnt q m { SeqCnt.start with gateAt := a2.tb, wraps := c.wraps, clears := c.clears + 1 }) acc) s1
    let s3 := new.pairs.foldl (fun acc p =>
      if old.pairs.contains p then acc
      else
        let t := Tab.set .start (Tab.set .start acc.fld.scs p.1 .start) (16 + p.1) .start
        { acc with fld := { acc.fld with scs := t } }) s2
    let s3b := (List.range 4).foldl (fun (acc : State) c =>
      if (new.convs.find? fun x => x.conv == c) = (old.convs.find? fun x => x.conv == c) then acc
      else acc.restartList c) s3
    let s4 := (List.range 192).foldl (fun acc n =>
      if acc.inUse n then acc
      else [Side.a, Side.b].foldl (fun (a2 : State) q => a2.setInp q n .start) acc) s3b
    s4.refreshField

/-- The requests that wait for the reset of output `k` get their result (R230 step 4). -/
def State.endOutReset (s : State) (k status : Nat) : State :=
  let ops := Tab.get [] s.lgc.orst k
  let s1 := { s with lgc := { s.lgc with orst := Tab.set [] s.lgc.orst k [] } }
  ops.foldl (fun acc op => acc.finish op status) s1

/-- R230 step 3: the re-test of an output begins. -/
def State.startRetest (s : State) (k : Nat) : State :=
  let o := s.fout k
  if o.retest.isSome then s
  else if o.cause = 0 then s.endOutReset k stOk
  else
    let r : Retest := { frame := s.fld.frame, bad := 0, aborted := decide (s.groupSt (k / 8) = .reversed) }
    (s.setFout k { o with retest := some r }).refreshOut k

/-- What a frame asks for once, whichever link delivers it first. -/
def State.downCommands (s : State) (d : Down) : State :=
  if s.fld.cmdSeq = some d.tb then s
  else
    let fresh := (bits64 d.orst).filter fun k =>
      !s.fld.orst.getLsbD k || Tab.get [] s.lgc.orst k != []
    let s0 := { s with fld := { s.fld with cmdSeq := some d.tb, orst := d.orst } }
    let s1 := s0.changeBank d.bank
    let s2 := (List.range 128).foldl (fun acc m =>
      if d.cclr.getLsbD m then acc.clearCounter m else acc) (d.fclr.foldl State.unflag s1)
    let s3 := d.urg.zipIdx.foldl (fun acc e =>
      match e.1 with
      | none => acc
      | some ch =>
        let c := Tab.get .start acc.cnv.convs e.2
        let t := Tab.set .start acc.cnv.convs e.2 (Cnv1.ask c (c.urgent ++ [(ch, false)]) acc.tb)
        { acc with cnv := { acc.cnv with convs := t } }) s2
    fresh.foldl State.startRetest s3

/-- SOLO begins: a gate that was held open closes now, and every gate follows the survivor (Table 9.3). -/
def State.endHolds (s old : State) : State :=
  (allOuts.foldl (fun acc k =>
    if decide ((old.fout k).phase = .load) && (old.hiHeld k || old.loHeld k)
    then acc.updFout k fun o => { o with changed := acc.tb } else acc) s).refreshOuts

/-- SOLO as the frame names it (R226, R425); the gates then follow the survivor (Table 9.3). -/
def State.takeSolo (s : State) (d : Down) : State :=
  (fun t : State => if t.fld.seqA.solo == s.fld.seqA.solo && t.fld.seqB.solo == s.fld.seqB.solo then t
    else t.endHolds s) <| [Side.a, Side.b].foldl (fun acc q =>
    let v := acc.seq q
    let named := decide (d.solo = 1 + sideNat q)
    let agrees := v.peerDead || decide ((acc.seq (otherSide q)).st ≠ .alive)
    if acc.lives q && named && agrees && !v.solo then acc.setSeq q { v with solo := true }
    else acc) s

/-- The image that the newest accepted frames give (R224). -/
def State.newImage (s : State) : Long :=
  match s.fld.seqA.got, s.fld.seqB.got with
  | some x, some y =>
    if x.1 = y.1 then x.2 &&& y.2 else if x.1 < y.1 then y.2 else x.2
  | some x, none => x.2
  | none, some y => y.2
  | none, none => 0

/-- The outputs follow the image. -/
def State.applyImage (s : State) : State :=
  let m := s.newImage
  allOuts.foldl (fun acc k =>
    (acc.updFout k fun o => { o with img := m.getLsbD k }).refreshOut k) s

/-- R229: silence ends with the second frame in a row. -/
def State.endSilence (s : State) (d : Down) : State :=
  match s.fld.silent with
  | none => s
  | some _ =>
    match s.fld.silSeq with
    | some x =>
      if d.tb = x + 2000 then
        let s1 := { s with fld := { s.fld with silent := none, silSeq := none } }
        allOuts.foldl (fun acc k => acc.updFout k fun o => { o with silOpen := false }) s1
      else { s with fld := { s.fld with silSeq := some d.tb } }
    | none => { s with fld := { s.fld with silSeq := some d.tb } }

/-- A difference between the two links is counted for each, and handled as a link fault: more than ten
within 1 s make a link FAULTY as its other faults do (R14, R231; DEDUCED, log 86). -/
def State.linkDiffer (s : State) : State :=
  [Side.a, Side.b].foldl (fun acc l =>
    let v := acc.link l
    let v1 := { v with diffs := v.diffs + 1, diffAt := (acc.tb :: v.diffAt).take 11 }
    let acc1 := acc.setLink l v1
    if tooMany v1.diffAt acc.tb then acc1.judgeFaulty l else acc1) s

/-- The two newest accepted frames carry one number and different images. -/
def State.imagesDiffer (s : State) : Bool :=
  match s.fld.seqA.got, s.fld.seqB.got with
  | some x, some y => x.1 == y.1 && x.2 != y.2
  | _, _ => false

/-- A frame accepted by sequencer `q` (R224, R237). -/
def State.goodDown (s : State) (q : Side) (d : Down) : State :=
  let s00 := s.setSeq q { s.seq q with got := some (d.tb, d.img) }
  let s0 := if s00.imagesDiffer then s00.linkDiffer else s00
  let s1 := { s0 with fld := { s0.fld with accepted := some s0.tb, dlast := d.dseq } }
  let s2 := ((s1.takeSolo d).downCommands d).endSilence d
  if s2.fld.silent.isSome then s2 else s2.applyImage

/-! ### Configuration of the field side (R324) -/

def Image.fieldCfg (m : Image) : FieldCfg :=
  { frameCfg := m.frameCfg, gthr := m.gthr, silence := m.silence, icfg := m.icfg, src := m.src,
    pole := m.pole, sonly := m.sonly, ocfg := m.ocfg, ccfg := m.ccfg, convs := m.convs,
    trigs := m.trigs,
    pairs := ((m.axes.flatMap fun a => [a.src1, a.src2]).filterMap fun b =>
      if b.kind = 1 then some (b.index, b.dirinv) else none).eraseDupsBy fun x y => x.1 == y.1 }

end Sys2Proof.Machine
end

