-- ==== Sys2Proof/Machine/Converters.lean ====
section
/-! DEFINITION. The commands of the converters (chapter 7, R235, R236). -/

namespace Sys2Proof.Machine

/-- What starts next (R173, R174, R176): the triggered entry, then urgent requests, then the list. -/
def Cnv1.pick (v : Cnv1) (i : ConvImg) : Option ConvKind :=
  let waits := convMode i == 2 && bitOf (nth i.list v.next 0) 4
  if v.heldBack then none
  else if waits && v.release then some (.list v.next)
  else match v.urgent with
    | (_, true) :: _ => some .recheck
    | (_, false) :: _ => some .urgent
    | [] => if waits then none else some (.list v.next)

/-- The list conversion that has started and not sampled, if any (R174). -/
def Cnv1.abortable (v : Cnv1) (now : Nat) : Option Conv :=
  v.run.find? fun x => decide (now < x.started + 10) &&
    (match x.kind with | .list _ => true | _ => false)

/-- R174: an urgent conversion aborts the list conversion that has not sampled yet. -/
def Cnv1.abortFor (v : Cnv1) (i : ConvImg) (now : Nat) : Cnv1 :=
  match v.abortable now with
  | none => v
  | some x => { (v.repeat_ i x) with run := v.run.filter fun y => y != x }

/-- A conversion starts on slice `k`; `cut`: the local channel of a DIAG conversion that it aborted. After an
urgent start, and after a trigger's start for the requests that wait, the next urgent one waits for the next start
tick (R174, R176). -/
def Cnv1.start_ (v : Cnv1) (i : ConvImg) (c k now : Nat) (kind : ConvKind) (cut : Option Nat) : Cnv1 :=
  let gap := match v.startAt with
    | some t => now - t
    | none => 0
  let steady := !v.brk && v.startAt.isSome && gap == pattern v.slices v.phase
  match kind with
  | .list e =>
    let w := nth i.list e 0
    let ph := if steady then (v.phase + 1) % patternLen v.slices else 0
    let x : Conv := { slice := k, ch := 8 * c + bf w 2 0, diag := bitOf w 3, kind := kind,
                      started := now, brk := !steady, slices := v.slices, phase := ph }
    let trig := convMode i == 2 && bitOf w 4
    ({ v with run := v.run ++ [x], next := (e + 1) % convLen i, release := false,
              startAt := some now, brk := false, phase := ph,
              trigAt := if trig then some now else v.trigAt,
              urgFrom := if trig && !v.urgent.isEmpty then now + pattern v.slices ph
                         else v.urgFrom } : Cnv1).aimed i now
  | _ =>
    let ch := (v.urgent.head?.map Prod.fst).getD 0
    let x : Conv := { slice := k, ch := 8 * c + ch, diag := false, kind := kind, started := now,
                      brk := true, slices := v.slices, phase := 0 }
    (({ v with run := v.run ++ [x], urgent := v.urgent.drop 1, startAt := some now, brk := true, phase := 0,
               urgFrom := now + pattern v.slices 0,
               recheck := if kind = .recheck then (v.recheck + 1) % 256 else v.recheck,
               engine := if kind = .urgent then (v.engine + 1) % 65536 else v.engine } : Cnv1).aimed i now).cutPull
                 cut now

/-- What starts at the present tick, if anything: the kind, the slice, the channel of an aborted DIAG conversion,
and the converter before the start. The first urgent conversion needs no place in the pattern of Table 7.2, and
takes the slice of the one it aborts; while the converter waits for its trigger, one slice stays free (R172,
R174). -/
def Cnv1.starts (v : Cnv1) (i : ConvImg) (slice now : Nat) : Option (ConvKind × Nat × Option Nat × Cnv1) :=
  match v.pick i with
  | none => none
  | some kind =>
    let urgent := match kind with | .list _ => false | _ => true
    let v1 := if urgent then v.abortFor i now else v
    let gone := if urgent then v.abortable now else none
    let k := (gone.map Conv.slice).getD slice
    let cut := (gone.filter Conv.diag).map fun x => x.ch % 8
    let free := !(v1.run.any fun x => x.slice == k)
    let room := !(urgent && v1.waits i) || decide (v1.run.length + 1 < v1.slices)
    let due :=
      if urgent then decide (v.urgFrom ≤ now) && v.startAt != some now
      else v.release || match v.startAt with
        | some t => decide (t + pattern v.slices v.phase ≤ now)
        | none => true
    if free && room && due then some (kind, k, cut, v1) else none

/-- CONVERSION_START (R172, R174, R176): a start tick of converter `c`, on a free slice. A start that breaks
the pattern closes the block whose entries are complete (R235). -/
def execConversionStart (c : Fin 4) (slice : Fin 4) (s : State) : Host.Outcome State Fault Refusal :=
  .next <|
    match s.convImg c.val with
    | none => s
    | some i =>
      let v := s.conv c.val
      if !s.fieldOn || v.failed || decide (convMode i = 0) || v.retired.contains slice.val then s
      else
        match v.starts i slice.val s.tb with
        | none => s
        | some (kind, k, cut, v1) =>
          let v2 := v1.start_ i c.val k s.tb kind cut
          let s1 := s.setConv c.val v2
          if v1.run.isEmpty && (v2.run.any fun x => x.brk) then s1.closeBlock c.val else s1

/-- CONVERSION_RESULT (R172, R177, R178, R180, R183): the oldest conversion has sampled and
completes. -/
def execConversionResult (c : Fin 4) (x : Sample) (s : State) : Host.Outcome State Fault Refusal :=
  .next <|
    let v := s.conv c.val
    match v.run with
    | [] => s
    | k :: rest =>
      if !s.fieldOn || v.failed || decide (s.tb < k.started + 10) then s
      else
        let coefs := match x.coef with
          | some q => Tab.set .unity v.coefs k.slice { sofs := q.1, sgain := q.2.1, sskew := q.2.2 }
          | none => v.coefs
        let v1 := { v with run := rest, coefs := coefs }
        let i := (s.convImg c.val).getD { conv := c.val, cfg := 0, list := [], chans := [] }
        if !((x.coef.map coefOk).getD true) then
          (s.setConv c.val (v1.repeat_ i k)).retireSlice c.val k.slice
        else
          let s1 := s.setConv c.val v1
          if k.diag then s1.diagResult c.val k.ch x
          else s1.dataResult c.val k.ch k x

/-- BLOCK_CLOSE (R235): 1.5 µs after the sample instant of the first entry. -/
def execBlockClose (c : Fin 4) (s : State) : Host.Outcome State Fault Refusal :=
  .next <|
    match (s.conv c.val).form.head? with
    | none => s
    | some e => if s.fieldOn && decide (e.tick + 300 ≤ s.tb) then s.closeBlock c.val else s

def State.flights (s : State) : Side → List Flight
  | .a => s.cnv.flyA
  | .b => s.cnv.flyB

/-- The converter whose block a sequencer's uplink completes next (R236): the one that has begun, else the
first with FIRE, else the oldest. -/
def nextBlock (q : List Flight) : Option Nat :=
  ((q.find? Flight.begun).or ((q.find? fun f => f.blk.fire).or q.head?)).map Flight.conv

/-- Nothing on link `l` keeps converter `c` waiting: no block of its own waits there, or it is the one that the
sequencer sends next, or the sequencer is dead. -/
def State.mayBegin (s : State) (c : Nat) (l : Side) (waits : Bool) : Bool :=
  !waits || !s.lives l || nextBlock (s.flights l) == some c

/-- The blocks of converter `c` have begun transmission. -/
def begin_ (c : Nat) (l : List Flight) : List Flight :=
  l.map fun f => if f.conv = c then { f with begun := true } else f

/-- HOLD_BACK_END (R236): the earlier block has begun transmission on both links, in the order of their precedence;
the converter resumes. -/
def execHoldBackEnd (c : Fin 4) (s : State) : Host.Outcome State Fault Refusal :=
  .next <|
    let v := s.conv c.val
    if !s.fieldOn || !(v.waitA || v.waitB || v.heldBack) || !s.mayBegin c.val .a v.waitA ||
        !s.mayBegin c.val .b v.waitB then s
    else
      let s0 := { s with cnv := { s.cnv with flyA := begin_ c.val s.cnv.flyA,
                                             flyB := begin_ c.val s.cnv.flyB } }
      let v1 := { v with waitA := false, waitB := false, heldBack := false }
      let v2 := if v.heldBack then ((s.convImg c.val).map fun i => v1.aimed i s.tb).getD v1 else v1
      let s1 := s0.setConv c.val v2
      if v.heldBack then s1.closeBlock c.val else s1

/-- REFERENCE_CHECK (R183): the difference from the second reference, in 0.01 %. -/
def execReferenceCheck (c : Fin 4) (diff : Nat) (s : State) : Host.Outcome State Fault Refusal :=
  .next <|
    let v := s.conv c.val
    let due := match v.refAt with
      | some t => decide (t + 200000 ≤ s.tb)
      | none => true
    if !s.fieldOn || !due then s
    else
      let v1 := { v with refAt := some s.tb }
      if diff ≤ 20 ∨ v.failed = true then s.setConv c.val v1
      else
        (s.setConv c.val { v1 with reffail := true, failed := true, run := [], pulls := [] }).record 0x0501 2
          [BitVec.ofNat 8 c.val, 0xFF#8, 1#8]

/-- STALE (R182). -/
def execStale (ch : Fin 32) (s : State) : Host.Outcome State Fault Refusal :=
  .next (if s.isStale ch.val then s.setChan ch.val { s.chan ch.val with stale := true } else s)

/-- Removes the first flight of converter `c`. -/
def takeFlight (c : Nat) : List Flight → Option (Flight × List Flight)
  | [] => none
  | f :: fs =>
    if f.conv = c then some (f, fs) else (takeFlight c fs).map fun p => (p.1, f :: p.2)

/-- The oldest flight of a converter on link `l` has arrived; `rest` still flies. -/
def State.landed (s : State) (l : Side) (c : Nat) (rest : List Flight) : State :=
  let v := s.conv c
  match l with
  | .a =>
    let s1 := s.setConv c { v with waitA := false }
    { s1 with cnv := { s1.cnv with flyA := rest } }
  | .b =>
    let s1 := s.setConv c { v with waitB := false }
    { s1 with cnv := { s1.cnv with flyB := rest } }

def Held.of (h : Held) (f : Flight) : Bool := h.conv == f.conv && h.blk == f.blk

/-- Blocks that the other link has delivered first and `l` has still to deliver. -/
def State.heldFor (s : State) : Side → List Held
  | .a => s.cnv.heldB
  | .b => s.cnv.heldA

/-- The second copy of a block has come, or never will. -/
def State.dropHeld (s : State) (l : Side) (f : Flight) : State :=
  let keep (q : List Held) : List Held := q.filter fun h => !h.of f
  match l with
  | .a => { s with cnv := { s.cnv with heldB := keep s.cnv.heldB } }
  | .b => { s with cnv := { s.cnv with heldA := keep s.cnv.heldA } }

/-- The first copy of a block has come by link `l`; the other link may still deliver it. -/
def State.holdBlock (s : State) (l : Side) (f : Flight) (got : Block) : State :=
  let h : Held := { conv := f.conv, blk := f.blk, got := got }
  let flies (q : List Flight) : Bool := q.any h.of
  match l with
  | .a => if flies s.cnv.flyB then { s with cnv := { s.cnv with heldA := s.cnv.heldA ++ [h] } } else s
  | .b => if flies s.cnv.flyA then { s with cnv := { s.cnv with heldB := s.cnv.heldB ++ [h] } } else s

/-! ### A block as received (R14, R235) -/

/-- TB [15:0] extended from the logic side's own TB, which lies less than 2¹⁶ ticks past it. -/
def extendTb (now low : Nat) : Nat :=
  if now / 65536 * 65536 + low ≤ now then now / 65536 * 65536 + low else now / 65536 * 65536 + low - 65536

/-- Sample instants of `n` entries from the first one's, by the pattern. -/
def instants (slices : Nat) : Nat → Nat → Nat → List Nat
  | 0, _, _ => []
  | n + 1, phase, t => t :: instants slices n ((phase + 1) % patternLen slices) (t + pattern slices phase)

/-- A disturbance of the bytes of a block, bit by bit. -/
def disturb (bs flip : List Byte) : List Byte := bs.zipIdx.map fun x => x.1 ^^^ nth flip x.2 0#8

/-- An entry as its word reads; what the word does not carry stays. -/
def Entry.asWord (e : Entry) (w : Word) (t : Nat) : Entry :=
  { e with ch := bf w 31 27, ow := bitOf w 26, oob := bitOf w 25, urgent := bitOf w 24,
           seq := e.seq / 256 * 256 + bf w 23 16, value := sgn 16 (bf w 15 0), tick := t }

/-- The block that disturbed bytes spell, where their COUNT and their CHECK hold. -/
def Flight.spelled (f : Flight) (now : Nat) (flip : List Byte) : Option Block :=
  let bs := disturb (f.blk.bytes f.conv) flip
  let n := f.blk.entries.length
  let b0 := (nth bs 0 0#8).toNat
  if b0 % 8 + 1 ≠ n ∨ b0 / 64 ≠ f.conv ∨ numAt bs (4 * n + 4) 2 ≠ crcOf 1#2 (bs.take (4 * n + 4)) then none
  else
    let code := b0 / 8 % 4
    let phase := (nth bs 1 0#8).toNat / 16
    let ts := instants (2 + code) n phase (extendTb now (numAt bs 2 2))
    some { fire := b0.testBit 5, slices := code, phase := phase,
           entries := f.blk.entries.zipIdx.map fun x =>
             x.1.asWord (BitVec.ofNat 32 (numAt bs (4 + 4 * x.2) 4)) (nth ts x.2 0) }

/-- The block as a link delivers it: none where its check fails. -/
def Flight.got (f : Flight) (now : Nat) (flip : List Byte) : Option Block :=
  if flip.all fun x => x == 0#8 then some f.blk else f.spelled now flip

/-- A block that has arrived on link `l` is taken, dropped, compared or counted (R14, R237). Two valid
copies that differ are counted against both links. -/
def State.arrive (s : State) (l : Side) (f : Flight) (flip : List Byte) : State :=
  if !s.mx l || (s.link l).retired || decide ((s.link l).st = .faulty) then s.dropHeld l f
  else
    match f.got s.tb flip with
    | none => (s.countLink l true).dropHeld l f
    | some b =>
      match (s.heldFor l).find? fun h => h.of f with
      | some h => if h.got = b then s.dropHeld l f else s.linkDiffer.dropHeld l f
      | none => (s.takeBlock f.conv b).holdBlock l f b

/-- RESULT_BLOCK (R14, R235, R236): the block of converter `c` arrives on link `l`, where it is the one the
uplink sends next; `flip`: the bits of it that are disturbed on the way. A dead sequencer sends nothing. -/
def execResultBlock (l : Side) (c : Fin 4) (flip : List Byte) (s : State) :
    Host.Outcome State Fault Refusal :=
  .next <|
    if nextBlock (s.flights l) ≠ some c.val then s
    else
      match takeFlight c.val (s.flights l) with
      | none => s
      | some (f, rest) =>
        let t := s.landed l c.val rest
        if s.lives l then t.arrive l f flip else t.dropHeld l f

/-- CNV_GO (R175): every converter of the access whose trigger source it is. -/
def State.cnvGo (s : State) (v : BitVec 4) : State :=
  s.triggerAll 1 fun i => v.getLsbD i.conv

def execCnvGo (_ : Agent) (v : BitVec 4) (s : State) : Host.Outcome State Fault Refusal :=
  .next (if s.alive then s.cnvGo v else s)

/-- CNV_SNAP (R188): pointer, sequence and instant of the named converters, from copy A where it is in
service. -/
def State.cnvSnap (s : State) (v : BitVec 4) : State :=
  let h : Side := if s.memIn .a then .a else .b
  let sn := (List.range 4).foldl (fun acc c =>
    if v.getLsbD c then
      Tab.set (0, 0, 0) acc c ((s.rbuf h c).ptr, (s.rbuf h c).seq, (s.rbuf h c).seqTb)
    else acc) s.cnv.snaps
  { s with cnv := { s.cnv with snaps := sn } }

def execCnvSnap (_ : Agent) (v : BitVec 4) (s : State) : Host.Outcome State Fault Refusal :=
  .next (if s.alive then s.cnvSnap v else s)

end Sys2Proof.Machine
end

