-- ==== Sys2Proof/Machine/Crypto.lean ====
section
/-! DEFINITION. The cryptographic functions that the manual names: SHA-256 and HMAC-SHA-256 (R314,
R336), and pure Ed25519 of RFC 8032 with SHA-512 (R314, R349). -/

namespace Sys2Proof.Machine

/-! ### Padding and blocks -/

/-- The message with its padding to a multiple of `blk` bytes, its bit length in the last `lenBytes`. -/
def shaPad (blk lenBytes : Nat) (msg : List Byte) : List Byte :=
  let used := (msg.length + 1 + lenBytes) % blk
  let zeros := if used = 0 then 0 else blk - used
  msg ++ [0x80#8] ++ List.replicate zeros 0#8 ++ beBytes lenBytes (8 * msg.length)

/-- `n` chunks of `k` bytes. -/
def chunks (k : Nat) : Nat → List Byte → List (List Byte)
  | 0, _ => []
  | n + 1, l => l.take k :: chunks k n (l.drop k)

/-- `n` words of `w` bits from big-endian bytes. -/
def bigWords (w : Nat) : Nat → List Byte → List (BitVec w)
  | 0, _ => []
  | n + 1, l => BitVec.ofNat w (beNat (l.take (w / 8))) :: bigWords w n (l.drop (w / 8))

/-- The constants by which SHA-256 and SHA-512 differ. -/
structure ShaAlg where
  w    : Nat
  blk  : Nat
  lenB : Nat
  k    : List (BitVec w)
  h0   : List (BitVec w)
  /-- rotations of the two sums, and rotations and shifts of the schedule -/
  big0 : Nat × Nat × Nat
  big1 : Nat × Nat × Nat
  sm0  : Nat × Nat × Nat
  sm1  : Nat × Nat × Nat

def rot3 {w : Nat} (r : Nat × Nat × Nat) (x : BitVec w) : BitVec w :=
  x.rotateRight r.1 ^^^ x.rotateRight r.2.1 ^^^ x.rotateRight r.2.2

def rot2s {w : Nat} (r : Nat × Nat × Nat) (x : BitVec w) : BitVec w :=
  x.rotateRight r.1 ^^^ x.rotateRight r.2.1 ^^^ (x >>> r.2.2)

/-- Extends the schedule, newest word first, by `n` words. -/
def shaSchedule (g : ShaAlg) : Nat → List (BitVec g.w) → List (BitVec g.w)
  | 0, l => l
  | n + 1, l =>
    let x := rot2s g.sm1 (l.getD 1 0) + l.getD 6 0 + rot2s g.sm0 (l.getD 14 0) + l.getD 15 0
    shaSchedule g n (x :: l)

/-- One round on the eight working words. -/
def shaRound (g : ShaAlg) (v : List (BitVec g.w)) (kw : BitVec g.w × BitVec g.w) :
    List (BitVec g.w) :=
  let a := v.getD 0 0
  let b := v.getD 1 0
  let c := v.getD 2 0
  let d := v.getD 3 0
  let e := v.getD 4 0
  let f := v.getD 5 0
  let h := v.getD 7 0
  let t1 := h + rot3 g.big1 e + ((e &&& f) ^^^ (~~~e &&& v.getD 6 0)) + kw.1 + kw.2
  let t2 := rot3 g.big0 a + ((a &&& b) ^^^ (a &&& c) ^^^ (b &&& c))
  [t1 + t2, a, b, c, d + t1, e, f, v.getD 6 0]

def shaBlock (g : ShaAlg) (h : List (BitVec g.w)) (blk : List Byte) : List (BitVec g.w) :=
  let w := (shaSchedule g (g.k.length - 16) (bigWords g.w 16 blk).reverse).reverse
  List.zipWith (· + ·) h ((g.k.zip w).foldl (shaRound g) h)

def shaDigest (g : ShaAlg) (msg : List Byte) : List Byte :=
  let p := shaPad g.blk g.lenB msg
  let h := (chunks g.blk (p.length / g.blk) p).foldl (shaBlock g) g.h0
  h.flatMap fun x => beBytes (g.w / 8) x.toNat

/-! ### Constants

The fractions of square and cube roots of the first primes, to 64 binary places; SHA-256 takes their
first 32. Each numeral below holds several, most significant first. -/

/-- `n` numbers of 64 bits out of one numeral. -/
def unpack64 (n v : Nat) : List (BitVec 64) :=
  (List.range n).map fun i => BitVec.ofNat 64 (v >>> (64 * (n - 1 - i)))

/-- First halves. -/
def halves (l : List (BitVec 64)) : List (BitVec 32) := l.map fun x => x.extractLsb' 32 32

/-- Cube roots of the first 80 primes. -/
def cubeRoots : List (BitVec 64) :=
  ([0x428a2f98d728ae227137449123ef65cdb5c0fbcfec4d3b2fe9b5dba58189dbbc3956c25bf348b538,
    0x59f111f1b605d019923f82a4af194f9bab1c5ed5da6d8118d807aa98a303024212835b0145706fbe,
    0x243185be4ee4b28c550c7dc3d5ffb4e272be5d74f27b896f80deb1fe3b1696b19bdc06a725c71235,
    0xc19bf174cf692694e49b69c19ef14ad2efbe4786384f25e30fc19dc68b8cd5b5240ca1cc77ac9c65,
    0x2de92c6f592b02754a7484aa6ea6e4835cb0a9dcbd41fbd476f988da831153b5983e5152ee66dfab,
    0xa831c66d2db43210b00327c898fb213fbf597fc7beef0ee4c6e00bf33da88fc2d5a79147930aa725,
    0x06ca6351e003826f142929670a0e6e7027b70a8546d22ffc2e1b21385c26c9264d2c6dfc5ac42aed] ++
   [0x53380d139d95b3df650a73548baf63de766a0abb3c77b2a881c2c92e47edaee692722c851482353b,
    0xa2bfe8a14cf10364a81a664bbc423001c24b8b70d0f89791c76c51a30654be30d192e819d6ef5218,
    0xd69906245565a910f40e35855771202a106aa07032bbd1b819a4c116b8d2d0c81e376c085141ab53,
    0x2748774cdf8eeb9934b0bcb5e19b48a8391c0cb3c5c95a634ed8aa4ae3418acb5b9cca4f7763e373,
    0x682e6ff3d6b2b8a3748f82ee5defb2fc78a5636f43172f6084c87814a1f0ab728cc702081a6439ec,
    0x90befffa23631e28a4506cebde82bde9bef9a3f7b2c67915c67178f2e372532bca273eceea26619c,
    0xd186b8c721c0c207eada7dd6cde0eb1ef57d4f7fee6ed17806f067aa72176fba0a637dc5a2c898a6,
    0x113f9804bef90dae1b710b35131c471b28db77f523047d8432caab7b40c724933c9ebe0a15c9bebc,
    0x431d67c49c100d4c4cc5d4becb3e42b6597f299cfc657e2a5fcb6fab3ad6faec6c44198c4a475817]).flatMap
    (unpack64 5)

/-- Square roots of the first 8 primes. -/
def squareRoots : List (BitVec 64) :=
  unpack64 4 0x6a09e667f3bcc908bb67ae8584caa73b3c6ef372fe94f82ba54ff53a5f1d36f1 ++
    unpack64 4 0x510e527fade682d19b05688c2b3e6c1f1f83d9abfb41bd6b5be0cd19137e2179

/-! ### SHA-256 and HMAC -/

def sha256Alg : ShaAlg :=
  { w := 32, blk := 64, lenB := 8, k := (halves cubeRoots).take 64, h0 := halves squareRoots,
    big0 := (2, 13, 22), big1 := (6, 11, 25), sm0 := (7, 18, 3), sm1 := (17, 19, 10) }

def sha256 (msg : List Byte) : List Byte := shaDigest sha256Alg msg

/-- HMAC-SHA-256. -/
def hmac256 (key msg : List Byte) : List Byte :=
  let k0 := if key.length ≤ 64 then key else sha256 key
  let k := k0 ++ List.replicate (64 - k0.length) 0#8
  sha256 (k.map (· ^^^ 0x5C#8) ++ sha256 (k.map (· ^^^ 0x36#8) ++ msg))

/-! ### SHA-512 -/

def sha512Alg : ShaAlg :=
  { w := 64, blk := 128, lenB := 16, k := cubeRoots, h0 := squareRoots, big0 := (28, 34, 39),
    big1 := (14, 18, 41), sm0 := (1, 8, 7), sm1 := (19, 61, 6) }

def sha512 (msg : List Byte) : List Byte := shaDigest sha512Alg msg

/-! ### Ed25519 -/

def edP : Nat := 2 ^ 255 - 19
def edL : Nat := 2 ^ 252 + 27742317777372353535851937790883648493

def powGo (m : Nat) : Nat → Nat → Nat → Nat → Nat
  | 0, _, _, acc => acc
  | n + 1, b, e, acc => powGo m n (b * b % m) (e / 2) (if e % 2 = 1 then acc * b % m else acc)

/-- b to the e modulo m, for e below 2^256. -/
def powMod (b e m : Nat) : Nat := powGo m 256 (b % m) e 1

def edInv (x : Nat) : Nat := powMod x (edP - 2) edP
def edD : Nat := (edP - 121665) * edInv 121666 % edP
def edSub (a b : Nat) : Nat := (a + edP - b % edP) % edP

/-- A point in extended coordinates: X, Y, Z, T. -/
structure EdPoint where
  x : Nat
  y : Nat
  z : Nat
  t : Nat
  deriving DecidableEq, Repr

def EdPoint.zero : EdPoint := { x := 0, y := 1, z := 1, t := 0 }

def EdPoint.add (p q : EdPoint) : EdPoint :=
  let a := edSub p.y p.x * edSub q.y q.x % edP
  let b := (p.y + p.x) * (q.y + q.x) % edP
  let c := 2 * p.t * q.t % edP * edD % edP
  let d := 2 * p.z * q.z % edP
  let e := edSub b a
  let f := edSub d c
  let g := (d + c) % edP
  let h := (b + a) % edP
  { x := e * f % edP, y := g * h % edP, z := f * g % edP, t := e * h % edP }

def edMulGo : Nat → Nat → EdPoint → EdPoint → EdPoint
  | 0, _, _, acc => acc
  | n + 1, k, p, acc => edMulGo n (k / 2) (p.add p) (if k % 2 = 1 then acc.add p else acc)

/-- k times a point, for k below 2^256. -/
def EdPoint.mul (p : EdPoint) (k : Nat) : EdPoint := edMulGo 256 k p .zero

def EdPoint.same (p q : EdPoint) : Bool :=
  p.x * q.z % edP == q.x * p.z % edP && p.y * q.z % edP == q.y * p.z % edP

/-- The number that a byte string spells, least significant byte first. -/
def leNat (bs : List Byte) : Nat := beNat bs.reverse

/-- The x coordinate with the given low bit of the point with this y, if there is one. -/
def edX (y sign : Nat) : Option Nat :=
  if edP ≤ y then none
  else
    let u := edSub (y * y % edP) 1
    let v := (edD * (y * y % edP) + 1) % edP
    let x2 := u * edInv v % edP
    if x2 = 0 then (if sign = 1 then none else some 0)
    else
      let r := powMod x2 ((edP + 3) / 8) edP
      let x := if r * r % edP = x2 then r else r * powMod 2 ((edP - 1) / 4) edP % edP
      if x * x % edP ≠ x2 then none
      else some (if x % 2 = sign then x else edP - x)

def edDecode (bs : List Byte) : Option EdPoint :=
  let n := leNat bs
  let y := n % 2 ^ 255
  (edX y (n / 2 ^ 255)).map fun x => { x := x, y := y, z := 1, t := x * y % edP }

def edBase : Option EdPoint :=
  let y := 4 * edInv 5 % edP
  (edX y 0).map fun x => { x := x, y := y, z := 1, t := x * y % edP }

/-- Verification of a 64-byte signature by RFC 8032: [8][S]B = [8]R + [8][k]A. -/
def edVerify (key sig msg : List Byte) : Bool :=
  match edBase, edDecode key, edDecode (sig.take 32) with
  | some b, some a, some r =>
    let sc := leNat (sig.drop 32)
    if edL ≤ sc then false
    else
      let k := leNat (sha512 (sig.take 32 ++ key ++ msg)) % edL
      ((b.mul sc).mul 8).same ((r.add (a.mul k)).mul 8)
  | _, _, _ => false

end Sys2Proof.Machine
end

