-- ==== Sys2Proof/Machine/PorchOps.lean ====
section
/-! DEFINITION. Mailboxes: the order in which a request is judged, sessions, the result cache and
responses (R331 to R339, R343). -/

namespace Sys2Proof.Machine

/-! ### The porch -/

def State.proc (s : State) : Side → Proc
  | .a => s.por.procA
  | .b => s.por.procB

def State.setProc (s : State) (q : Side) (v : Proc) : State :=
  match q with
  | .a => { s with por := { s.por with procA := v } }
  | .b => { s with por := { s.por with procB := v } }

/-- A processor answers the host: the active one runs firmware or the loader. -/
def State.porchUp (s : State) : Bool :=
  s.alive && s.powered 1 &&
    match (s.proc s.por.active).st with
    | .active => true
    | .loader => true
    | _ => false

def State.inLoader (s : State) : Bool := decide ((s.proc s.por.active).st = .loader)

/-! ### Sessions -/

def State.session (s : State) (k : Nat) : Option Session := Tab.get none s.por.sessions k

def State.setSession (s : State) (k : Nat) (v : Option Session) : State :=
  { s with por := { s.por with sessions := Tab.set none s.por.sessions k v } }

/-- Session `k` is open: its challenge is answered. -/
def State.isOpen (s : State) (k : Nat) : Bool :=
  match s.session k with
  | some v => v.challenge.isNone
  | none => false

/-! ### Responses (R331) -/

/-- The 16 header bytes of a response (Table 16.2). -/
def respHeader (h : Hdr) (opcode status epoch len : Nat) : List Byte :=
  be16 opcode ++ [BitVec.ofNat 8 status, BitVec.ofNat 8 (128 + 64 * b2n h.staged), h.session,
    BitVec.ofNat 8 epoch] ++ be32 h.tag.toNat ++ be32 h.seq.toNat ++ be16 len

/-- Bytes inside a service-port frame: 0x7E and 0x7D are escaped (R330). -/
def stuff : List Byte → List Byte
  | [] => []
  | b :: l => if b = 0x7E#8 ∨ b = 0x7D#8 then 0x7D#8 :: (b ^^^ 0x20#8) :: stuff l else b :: stuff l

/-- What leaves on the wire to `o`: a datagram as it is, or a service-port frame on channel `chan`, 0 for a
mailbox and 1 for a stream packet (R330). -/
def onWire (o : Origin) (chan : Byte) (bytes : List Byte) : List Byte :=
  match o with
  | .udp _ _ => bytes
  | .usb => [0x7E#8] ++ stuff (chan :: bytes) ++ [0x7E#8]

/-- UDP ports of the mailboxes and of the streams (R328). -/
def mailboxPort : Nat := 39500
def streamPort : Nat := 39501

/-- A frame leaves; on a PRP pair with its trailer (R328). -/
def State.post (s : State) (x : Sent) : State :=
  if s.por.prp && x.onHost then
    { s with sent := s.sent ++ [x, .trailer s.por.prpSeq], por := { s.por with prpSeq := (s.por.prpSeq + 1) % 65536 } }
  else { s with sent := s.sent ++ [x] }

/-- A response mailbox, and the state once its check value is computed. -/
def State.response (s : State) (h : Hdr) (opcode status : Nat) (body : List Byte) : State × Sent :=
  let bytes := respHeader h opcode status s.por.epoch body.length ++ body
  let n := procUnit s.por.active
  let s1 := s.runUnit n fun c => c.payload 3#2 bytes
  (s1, .mailbox h.origin (onWire h.origin 0 (bytes ++ be32 (s1.unit n).result)))

/-- The responses that wait leave their mailboxes (R334). -/
def State.sendBoxes (s : State) : State :=
  s.por.boxes.foldl (fun acc b => acc.post b.out) { s with por := { s.por with boxes := [] } }

/-- A response is formed in its request's mailbox: it leaves behind those that wait, or waits itself. -/
def State.respond (s : State) (h : Hdr) (opcode status : Nat) (body : List Byte) : State :=
  let r := s.response h opcode status body
  if r.1.por.hold then
    { r.1 with por := { r.1.por with boxes := r.1.por.boxes ++ [{ session := h.session.toNat, out := r.2 }] } }
  else r.1.sendBoxes.post r.2

/-- A response formed without a mailbox (R333). -/
def State.respondBare (s : State) (h : Hdr) (opcode status : Nat) (body : List Byte) : State :=
  let r := s.response h opcode status body
  r.1.post r.2

/-- No mailbox is free for a request of a session: all 16 are occupied, or 8 by that session (R333, R334). -/
def State.noBox (s : State) (session : Byte) : Bool :=
  decide (16 ≤ s.por.boxes.length) || (session != 0#8 &&
    decide (8 ≤ (s.por.boxes.filter fun b => b.session == session.toNat).length))

/-! ### Judging a request (R333) -/

/-- The newest 32 commands with a new one, the oldest ended one dropped where there is no room; none
where every entry still runs (R339). -/
def cacheWith (l : List CacheEntry) (e : CacheEntry) : Option (List CacheEntry) :=
  if l.length < 32 then some (e :: l)
  else
    match l.reverse.find? fun x => x.done.isSome with
    | some x => some (e :: l.erase x)
    | none => none

/-- What a request of a session's own binding meets in the cache (R338). -/
inductive Seen where
  | poll (status : Nat) (body : List Byte)
  | lost
  | full
  | fresh (v : Session)
  deriving DecidableEq, Repr

def Session.meet (v : Session) (h : Hdr) (opcode op now : Nat) : Seen :=
  match v.cache.find? fun e => e.tag == h.tag && e.seq == h.seq with
  | some e =>
    if e.opcode ≠ opcode then .poll stArg []
    else match e.done with
      | some r => .poll r.1 r.2
      | none => .poll stAccepted []
  | none =>
    if (v.highest.map fun x => decide (h.seq.toNat ≤ x)).getD false then .lost
    else
      match cacheWith v.cache { tag := h.tag, seq := h.seq, opcode := opcode, done := none, op := op } with
      | none => .full
      | some l => .fresh { v with highest := some h.seq.toNat, cache := l, lastAt := now }

/-- Session `k` had a request. -/
def State.touch (s : State) (k : Nat) : State :=
  match s.session k with
  | some v => s.setSession k (some { v with lastAt := s.tb })
  | none => s

/-- Levels of the commands (R335). -/
inductive Level where
  | observe
  | operate
  | engineer
  deriving DecidableEq, Repr

/-- How a command is judged before its own rules. -/
structure Kind where
  opcode : Nat
  level  : Level
  /-- the maintenance loader serves it (R343) -/
  loader : Bool
  /-- SESSION_OPEN: judged against the binding of the challenge (R337) -/
  opens  : Bool
  deriving DecidableEq, Repr

/-- The answer of a command's own rules: the state, the status and the body. -/
abbrev Answer := State × Nat × List Byte

/-- Without a timebase the porch answers at OBSERVE only (R271). -/
def State.observeOnly (s : State) (l : Level) : Bool := decide (s.pwr.result = 6) && l != .observe

/-- Steps 5 to 7 of R333, and the response. `op` is the handle of the operation, 0 outside a session. -/
def State.serve (s : State) (h : Hdr) (k : Kind) (shaped : Bool) (op : Nat) (eff : State → Nat → Answer) :
    State :=
  let r : Answer :=
    if k.level = .engineer ∧ s.cfg.sealNow ≠ 0 then (s, stSeal, [])
    else if !shaped then (s, stArg, [])
    else if (s.inLoader && !k.loader) || s.observeOnly k.level then
      (s, stState, [])
    else eff s op
  let s1 := if r.2.1 = stAccepted then r.1 else r.1.finish op r.2.1 r.2.2
  s1.respond h k.opcode r.2.1 r.2.2

/-- The session is open for the request, and it comes from the session's binding (R337). -/
def Session.takes (v : Session) (h : Hdr) (k : Kind) : Bool :=
  decide (v.origin = h.origin) && (v.challenge.isNone || k.opens)

/-- Session `k` had a request of its own. -/
def State.heard (s : State) (k : Nat) (own : Bool) : State := if own then s.touch k else s

/-- A request that names a session: tag and sequence, then the session (R333 steps 3 and 4, R337, R338). -/
def State.inSession (s : State) (h : Hdr) (k : Kind) (shaped : Bool) (eff : State → Nat → Answer) : State :=
  let n := h.session.toNat
  match s.session n with
  | none => s.respond h k.opcode stLevel []
  | some v =>
    let op := s.por.nextOp + 1
    let own := v.takes h k
    match v.meet h k.opcode op s.tb with
    | .lost => (s.heard n own).respond h k.opcode stLost []
    | .full => (s.heard n own).respond h k.opcode stBusy []
    | .poll st b =>
      if own then (s.touch n).respond h k.opcode st b else s.respond h k.opcode stLevel []
    | .fresh v1 =>
      if own then
        (({ s with por := { s.por with nextOp := op } } : State).setSession n (some v1)).serve h k shaped op eff
      else s.respond h k.opcode stLevel []

/-- R333 for a request whose frame is sound. `shaped`: its body has the layout and values that its
command takes. -/
def State.request (s : State) (h : Hdr) (k : Kind) (shaped : Bool) (eff : State → Nat → Answer) :
    State :=
  if !s.porchUp then s
  else if s.noBox h.session then s.respondBare h k.opcode stBusy []
  else if h.session = 0 then
    if k.level ≠ .observe then s.respond h k.opcode stLevel [] else s.serve h k shaped 0 eff
  else s.inSession h k shaped eff

/-- Kinds of Table 16.4. -/
def observe (opcode : Nat) (loader : Bool) : Kind :=
  { opcode := opcode, level := .observe, loader := loader, opens := false }
def operate (opcode : Nat) : Kind :=
  { opcode := opcode, level := .operate, loader := false, opens := false }
def engineer (opcode : Nat) : Kind :=
  { opcode := opcode, level := .engineer, loader := false, opens := false }

/-- IPv4 address of a requester, 0 for the service port. -/
def originIp : Origin → Nat
  | .udp ip _ => ip.toNat
  | .usb => 0

end Sys2Proof.Machine
end

