-- ==== Sys2Proof/Machine/Calibration.lean ====
section
/-! DEFINITION. System calibration of the analogue channels (R185, R186). -/

namespace Sys2Proof.Machine

/-- RANGE of a channel that the running image sets (Table 7.1). -/
def State.rangeOf (s : State) (n : Nat) : Option Nat :=
  (s.img false).bind fun m => (m.convs.find? fun i => i.conv == n / 8).bind fun i =>
    let r := bf (nth i.chans (n % 8) { cfg := 0, band := 0, par := 0 }).cfg 31 30
    if r < 3 then some r else none

/-- Full scale in µV or nA, and counts per V or mA, of a range. -/
def rangeScale : Nat → Nat × Nat
  | 0 => (10000000, 2500)
  | 1 => (20000000, 1250)
  | _ => (1200000, 25000)

/-- The calibration session of a mailbox session on a channel. -/
def State.calOf (s : State) (session chan : Nat) : Option Cal :=
  s.cnv.cal.filter fun k => k.session == session && k.chan == chan

def State.setCal (s : State) (k : Option Cal) : State := { s with cnv := { s.cnv with cal := k } }

def State.calZero (s : State) (session chan op : Nat) : Answer :=
  if 32 ≤ chan || (s.rangeOf chan).isNone then (s, stArg, [])
  else if s.cnv.cal.isSome then (s, stBusy, [])
  else
    let k : Cal :=
      { session := session, chan := chan, phase := .zeroing, count := 0, sum := 0, bad := false,
        since := s.tb, zero := 0, full := 0, applied := 0, op := op, lastCmd := s.tb }
    (s.setCal (some k), stAccepted, [])

/-- 50 % to 105 % of full scale in magnitude. -/
def appliedOk (range : Nat) (v : Int) : Bool :=
  let fs := (rangeScale range).1
  decide (50 * fs ≤ 100 * v.natAbs ∧ 100 * v.natAbs ≤ 105 * fs)

def State.calFull (s : State) (session chan : Nat) (v : Int) (op : Nat) : Answer :=
  match (if 32 ≤ chan then none else s.rangeOf chan) with
  | none => (s, stArg, [])
  | some r =>
    if !appliedOk r v then (s, stArg, [])
    else
      match s.calOf session chan with
      | none => (s, stState, [])
      | some k =>
        let next : Cal :=
          { k with phase := .filling, count := 0, sum := 0, bad := false, since := s.tb,
                   applied := v * (rangeScale r).2, op := op, lastCmd := s.tb }
        let go : Answer := (s.setCal (some next), stAccepted, [])
        match k.phase with
        | .zeroed => go
        | .filled => go
        | .filling => (s.setCal (some { k with lastCmd := s.tb }), stBusy, [])
        | _ => (s.setCal (some { k with lastCmd := s.tb }), stState, [])

/-- CNV_CAL. -/
def CalRec.word (r : CalRec) : Word := mkWord [(r.gain, 16), (twos 16 r.ofs, 0)]

/-- OFS and G of a completed session, where R186 takes them. -/
def Cal.record (k : Cal) : Option CalRec :=
  let d := 1000000 * (k.full - k.zero)
  let n := if d < 0 then -(1024 * k.applied) else 1024 * k.applied
  let d' : Int := d.natAbs
  if d = 0 ∨ 500 * 1024 < k.zero.natAbs ∨ 100 * n < 95 * d' ∨ 105 * d' < 100 * n then none
  else some (.made ((2 * k.zero + 1024) / 2048) ((65536 * n + d') / (2 * d')).toNat)

def State.calCommit (s : State) (session chan : Nat) : Answer :=
  if 32 ≤ chan then (s, stArg, [])
  else
    match s.calOf session chan with
    | none => (s, stState, [])
    | some k =>
      if k.phase ≠ .filled then (s.setCal (some { k with lastCmd := s.tb }), stState, [])
      else
        match k.record with
        | none => (s.setCal (some { k with lastCmd := s.tb }), stArg, [])
        | some r =>
          let old := s.calRec chan
          let was := Tab.set none s.cnv.calWas chan (some (old, s.tb))
          let t := s.runUnit (procUnit s.por.active) fun c => c.payload 3#2 r.bytes
          let kept := { r with crc := (t.unit (procUnit s.por.active)).result }
          let s1 := { t with nv := { t.nv with cal := Tab.set .unity t.nv.cal chan kept },
                             cnv := { t.cnv with cal := none, calWas := was } }
          (s1.record 0x0502 1 ([BitVec.ofNat 8 chan] ++ wordBytes old.word ++ wordBytes r.word), stOk,
            wordBytes r.word)

def State.calDiscard (s : State) (session chan : Nat) : Answer :=
  if 32 ≤ chan then (s, stArg, [])
  else if (s.calOf session chan).isNone then (s, stState, [])
  else (s.setCal none, stOk, [])

/-- CAL_ZERO. -/
def execCalZero (h : Hdr) (body : List Byte) (s : State) : Host.Outcome State Fault Refusal :=
  .next (s.request h (operate 0x50) (body.length == 1) fun t op =>
    t.calZero h.session.toNat (numAt body 0 1) op)

/-- CAL_FULL. -/
def execCalFull (h : Hdr) (body : List Byte) (s : State) : Host.Outcome State Fault Refusal :=
  .next (s.request h (operate 0x51) (body.length == 8) fun t op =>
    t.calFull h.session.toNat (numAt body 0 1) (sgn 32 (numAt body 4 4)) op)

/-- CAL_COMMIT. -/
def execCalCommit (h : Hdr) (body : List Byte) (s : State) : Host.Outcome State Fault Refusal :=
  .next (s.request h (operate 0x52) (body.length == 1) fun t _ =>
    t.calCommit h.session.toNat (numAt body 0 1))

/-- CAL_DISCARD. -/
def execCalDiscard (h : Hdr) (body : List Byte) (s : State) : Host.Outcome State Fault Refusal :=
  .next (s.request h (operate 0x53) (body.length == 1) fun t _ =>
    t.calDiscard h.session.toNat (numAt body 0 1))

/-- The averaging in progress ends: whether it did well. -/
def Cal.ends (k : Cal) (stale : Bool) (now : Nat) : Option Bool :=
  if k.bad || stale then some false
  else if 1024 ≤ k.count then some true
  else if k.since + 2000000000 ≤ now then some false
  else none

/-- CAL_AVERAGE_END: 1,024 entries are averaged, or the averaging fails. -/
def execCalAverageEnd (s : State) : Host.Outcome State Fault Refusal :=
  .next <|
    match s.cnv.cal with
    | none => s
    | some k =>
      match k.phase, k.ends (s.isStale k.chan) s.tb with
      | .zeroing, some true =>
        (s.setCal (some { k with phase := .zeroed, zero := k.sum })).finish k.op stOk
      | .zeroing, some false => (s.setCal (some { k with phase := .spoiled })).finish k.op stFault
      | .filling, some true =>
        (s.setCal (some { k with phase := .filled, full := k.sum })).finish k.op stOk
      | .filling, some false => (s.setCal (some { k with phase := .zeroed })).finish k.op stFault
      | _, _ => s

/-- CALIBRATION_TIMEOUT: no calibration command for 600 s. -/
def execCalibrationTimeout (s : State) : Host.Outcome State Fault Refusal :=
  .next <|
    match s.cnv.cal with
    | none => s
    | some k => if s.alive && decide (k.lastCmd + 120000000000 ≤ s.tb) then s.setCal none else s

end Sys2Proof.Machine
end

