-- ==== Sys2Proof/Machine/RecorderOps.lean ====
section
/-! DEFINITION. The recorder's store, reading, clearing and flushing (chapter 19). -/

namespace Sys2Proof.Machine

/-- A record of the foundation: sequences 1 to 4,096 (R392). -/
def Rec.founding (r : Rec) : Bool := decide (r.seq ≤ 4096)

/-- Records of the foundation, those pending included (R391, R400). -/
def State.foundAll (s : State) : List Rec := s.nv.found ++ s.rcd.buf.filter Rec.founding

/-- Records of the circulating area, those pending included (R391, R400). A pending record overwrites nothing before
it is written. -/
def State.circAll (s : State) : List Rec := s.nv.circ ++ s.rcd.buf.filter fun r => !r.founding

/-- The part of a history that begins with its last CLEAR record (R402). -/
def fromClear : List Rec → List Rec
  | [] => []
  | r :: rs => if rs.any (fun x => x.code == 1) then fromClear rs else r :: rs

/-- Readable records of the circulating area (R400 to R402). A CLEAR that the buffer of a failed recorder has lost
still hides what is older. -/
def State.circRead (s : State) : List Rec :=
  fromClear ((if s.rcd.hidden then [] else s.nv.circ) ++ s.rcd.buf.filter fun r => !r.founding)

/-- REC_OLDEST and REC_NEWEST. -/
def State.oldestSeq (s : State) : Nat := (s.circRead.head?.map Rec.seq).getD 0
def State.newestSeq (s : State) : Nat := (s.circRead.getLast?.map Rec.seq).getD 0

/-- The newest record of all (R402). -/
def State.newestRec (s : State) : Option Rec := (s.foundAll ++ s.circAll).getLast?

/-- The sequence of the CLEAR record that has entered since `old`; 0 where none could (R398). -/
def State.clearedSince (s old : State) : State × Nat :=
  match s.rcd.buf.find? fun r => r.code == 1 && !(old.rcd.buf.any fun x => x.seq == r.seq) with
  | some r => ({ s with nv := { s.nv with lastClr := r.seq } }, r.seq)
  | none => (s, 0)

/-- R402: REC_CLEAR. The sequence answered. -/
def State.recClear (s : State) (session : Nat) (ip : Nat) : State × Nat :=
  match s.newestRec with
  | some r =>
    if r.code == 1 then (s, r.seq)
    else
      let pay := be32 s.oldestSeq ++ be32 s.newestSeq ++ [BitVec.ofNat 8 session] ++ be32 ip
      (s.record 0x0001 2 pay).clearedSince s
  | none => (s.record 0x0001 2 (be32 0 ++ be32 0 ++ [BitVec.ofNat 8 session] ++ be32 ip)).clearedSince s

/-- A sequence is newer than every record: it lies ahead of the next one to be given (R392). -/
def State.isNewer (s : State) (q : Nat) : Bool :=
  if q ≤ 4096 then decide (s.rcd.next ≤ q) && decide (s.nv.found.length < 4096)
  else if s.rcd.next ≤ 4096 then true
  else decide ((q + (2 ^ 32 - 4097) - s.rcd.next) % (2 ^ 32 - 4097) < 2 ^ 31)

/-- Consecutive records from the first one, at most `n`. -/
def runFrom : List Rec → Nat → List Rec
  | _, 0 => []
  | [], _ => []
  | r :: rs, n + 1 =>
    match rs with
    | [] => [r]
    | x :: _ => if x.seq = nextSeq r.seq then r :: runFrom rs n else [r]

/-- R401: the records that REC_READ returns. -/
def State.recRead (s : State) (q count : Nat) : List Rec :=
  let all := s.foundAll ++ s.circRead
  match all.dropWhile (fun r => !(r.seq == q)) with
  | [] => if s.isNewer q then [] else runFrom s.circRead count
  | l => runFrom l count

/-- The 64 bytes of a record as stored. -/
def Rec.stored (r : Rec) : List Byte := r.bytes ++ be32 r.crc

/-- R401: failures of the check value among records read from the store are counted. -/
def State.countRead (s : State) (rs : List Rec) : State :=
  let bad := rs.filter fun r =>
    (s.nv.found.contains r || s.nv.circ.contains r) && !(r.crc == crc32c r.bytes)
  { s with rcd := { s.rcd with readErr := satAdd 0xFFFF s.rcd.readErr bad.length } }

/-- Body of REC_INFO (R400). -/
def State.recInfo (s : State) : List Byte :=
  be32 s.nv.found.length ++ be32 s.oldestSeq ++ be32 s.newestSeq ++ be32 s.nv.lastClr ++
    be32 s.rcd.buf.length

/-- A stored record whose check value fails, one without a check value apart. -/
def Rec.broken (r : Rec) : Bool := !r.flags.testBit 5 && r.crc != crc32c r.bytes

/-- Records added to an area: the next one takes the place of a last one that was left incomplete (R399). -/
def putArea (area new : List Rec) : List Rec :=
  match new with
  | [] => area
  | _ => (if (area.getLast?.map Rec.broken).getD false then area.dropLast else area) ++ new

/-- The oldest `n` pending records reach the store; the circulating area keeps its newest 61,440 (R391, R397). -/
def State.storeRecs (s : State) (n : Nat) : State :=
  let l := s.rcd.buf.take n
  let c := putArea (if s.rcd.hidden && l.any (fun r => r.code == 1) then [] else s.nv.circ)
    (l.filter fun r => !r.founding)
  { s with nv := { s.nv with found := putArea s.nv.found (l.filter Rec.founding)
                             circ := c.drop (c.length - 61440) }
           rcd := { s.rcd with buf := s.rcd.buf.drop n
                               hidden := s.rcd.hidden && !l.any fun r => r.code == 1 } }

/-- The flush ends with no record pending (R397). -/
def State.writeStore (s : State) : State :=
  let t := s.storeRecs s.rcd.buf.length
  { t with rcd := { t.rcd with flushing := false, flushed := s.tb } }

/-- R263 step 3: a power-fail sequence persists the operating seconds. -/
def State.persistSeconds (s : State) : State :=
  if s.pwr.pfail then { s with nv := { s.nv with opsec := s.pwr.opsec } } else s

/-- R263 steps 2 and 3: the end of a power-fail sequence's flush. -/
def State.persistAtFail (s : State) : State :=
  if s.pwr.pfail then
    { s with pwr := { s.pwr with pflushed := true }, nv := { s.nv with opsec := s.pwr.opsec } }
  else s

/-- Records wait in the buffer until the end of step 3 of start-up (R399), unless a power-fail sequence flushes it
(R263). -/
def State.storeWaits (s : State) : Bool := decide (1 ≤ s.pwr.step ∧ s.pwr.step ≤ 3) && !s.pwr.pfail

/-- FLUSH_END: the flush has written every pending record, each verified, or has failed on one after it had stored
those before it (R397, R403). -/
def execFlushEnd (o : FlushOutcome) (s : State) : Host.Outcome State Fault Refusal :=
  .next <|
    if !s.rcd.flushing || !s.alive || s.storeWaits then s
    else
      let s1 := { s with rcd := { s.rcd with verify := satAdd 0xFFFF s.rcd.verify o.fails.val } }
      if o.fails.val = 2 then ((s1.storeRecs (min o.stored (s1.rcd.buf.length - 1))).recFail .store).persistSeconds
      else s1.writeStore.persistAtFail

/-- FLUSH_INTERVAL: 10 s of operating time have passed since the last flush ended (R397). -/
def execFlushInterval (s : State) : Host.Outcome State Fault Refusal :=
  .next <|
    if s.alive && decide (s.rcd.flushed + 2000000000 ≤ s.tb) then s.flushIf true else s

end Sys2Proof.Machine
end

