-- ==== Sys2Proof/Machine/AnCode.lean ====
section
/-! DEFINITION. The AN code of pass B (R112, R113): native values are 32-bit two's complement, coded ones
their products with 65,521 in 48-bit arithmetic. -/

namespace Sys2Proof.Machine

/-- A coded value. -/
abbrev Coded := BitVec 48

/-- The constant of the code. -/
def anMod : Int := 65521

/-- Native to coded: v × 65,521. -/
def anEncode (v : Word) : Coded := BitVec.ofInt 48 (v.toInt * anMod)

/-- The residue that the engine checks after every arithmetic operation. -/
def anResidue (c : Coded) : Int := c.toInt % anMod

/-- The checked decode: none with a non-zero residue, a code fault. -/
def anDecode (c : Coded) : Option Word :=
  if anResidue c = 0 then some (BitVec.ofInt 32 (c.toInt / anMod)) else none

/-- Addition, subtraction, negation and comparison act on coded values directly. -/
def anAdd (x y : Coded) : Coded := x + y
def anSub (x y : Coded) : Coded := x - y
def anNeg (x : Coded) : Coded := -x
def anLess (x y : Coded) : Bool := x.slt y

/-- A product with a native constant stays coded. -/
def anScale (k : Word) (x : Coded) : Coded := BitVec.ofInt 48 (k.toInt * x.toInt)

/-- An operation on two coded values that needs the checked decode and the re-encode. -/
def anNative (f : Word → Word → Word) (x y : Coded) : Option Coded :=
  match anDecode x, anDecode y with
  | some a, some b => some (anEncode (f a b))
  | _, _ => none

/-- A product, and a quotient, of two coded values. -/
def anMul (x y : Coded) : Option Coded := anNative (· * ·) x y
def anDiv (x y : Coded) : Option Coded := anNative BitVec.sdiv x y

/-- A snapshot value as native data: one word, or two where it is wider (DESIGN CHOICE, log 49). -/
def native (v : Int) : List Word :=
  if -(2 ^ 31 : Int) ≤ v ∧ v < (2 ^ 31 : Int) then [BitVec.ofInt 32 v]
  else [BitVec.ofInt 32 (v / 2 ^ 32), BitVec.ofInt 32 v]

/-- The check after an arithmetic operation: none where the residue of the result is not 0. -/
def anChecked (c : Coded) : Option Coded := if anResidue c = 0 then some c else none

/-- What pass B computes on the coded values of its snapshot; none once a residue is not 0 (R112, R113). A
value beyond the snapshot reads 0. -/
def evalB (snap : List Coded) : PassB → Option Coded
  | .snap n => some (snap[n]?.getD 0)
  | .native v => some (anEncode v)
  | .raw c => some c
  | .neg x => (evalB snap x).bind fun a => anChecked (anNeg a)
  | .add x y => (evalB snap x).bind fun a => (evalB snap y).bind fun b => anChecked (anAdd a b)
  | .sub x y => (evalB snap x).bind fun a => (evalB snap y).bind fun b => anChecked (anSub a b)
  | .less x y => (evalB snap x).bind fun a => (evalB snap y).bind fun b =>
      some (anEncode (if anLess a b then 1 else 0))
  | .scale k x => (evalB snap x).bind fun a => anChecked (anScale k a)
  | .mul x y => (evalB snap x).bind fun a => (evalB snap y).bind fun b => (anMul a b).bind anChecked
  | .div x y => (evalB snap x).bind fun a => (evalB snap y).bind fun b => (anDiv a b).bind anChecked
  | .branch c x y => (evalB snap c).bind fun a => (anDecode a).bind fun v =>
      if v = 0 then evalB snap y else evalB snap x

/-- The writes of pass B, computed on coded values and decoded as they enter the signature; none where a
residue is not 0. -/
def decodeWrites (snap : List Coded) : List (Word × PassB) → Option (List (Word × Word))
  | [] => some []
  | e :: es =>
    match (evalB snap e.2).bind anDecode, decodeWrites snap es with
    | some v, some r => some ((e.1, v) :: r)
    | _, _ => none

end Sys2Proof.Machine
end

