-- ==== Sys2Proof/Machine/Motion.lean ====
section
/-! DEFINITION. Motion monitoring: axes, cross-checks and the motion function types (chapter 8,
R189 to R212). Positions and speeds are exact rationals in axis increments and increments per
second: DEDUCED (log 49), the chapter states no rounding before a comparison. -/

namespace Sys2Proof.Machine

def ratAbs (r : Rat) : Rat := if r < 0 then -r else r

/-- A difference reduced to the interval −M/2 to M/2 − 1 of a modular axis (R193). -/
def modDiff (ax : AxisImg) (d : Rat) : Rat :=
  if ax.modular && ax.modulus != 0 then
    let m : Rat := ax.modulus
    let k : Rat := ((d + m / 2) / m).floor
    d - k * m
  else d

/-- Whether a source kind has a position (Table 8.1). -/
def hasPos (k : Nat) : Bool := k == 1 || k == 2 || k == 4

/-- Whether a source kind is relative (Table 8.1). -/
def isRel (k : Nat) : Bool := k == 1 || k == 2

/-- Range of one turn of the raw reading: a QUAD counter wraps modulo 2^32, the interpolated pair
modulo 2^40 (R191, R192). -/
def rawWrap (k : Nat) : Nat := if k = 1 then 40 else 32

/-- The scaled difference of two raw readings in axis increments. -/
def scaleSrc (b : SrcBlk) (raw : Int) : Rat :=
  (raw : Rat) * (b.num : Rat) / (if b.den = 0 then 1 else (b.den : Rat))

/-- Follows one source through a snapshot (R192, R195, R197, R212). -/
def srcStep (ax : AxisImg) (b : SrcBlk) (v : SrcVal) (st : SrcSt) : SrcSt :=
  if b.kind = 0 then st
  else
    let restarted := st.epoch != v.epoch
    let good := if v.bad then 0 else min 8 (st.good + 1)
    let hist0 := if restarted then [] else st.hist
    let delta : Int :=
      if isRel b.kind then sgn (rawWrap b.kind) (twos (rawWrap b.kind) (v.raw - st.last))
      else v.raw - st.last
    let hist := match hist0 with
      | [] => [(v.raw, v.tick)]
      | (r, t) :: hs => ((r + delta, v.tick) :: (r, t) :: hs).take (ax.filt + 1)
    { hist := if v.bad then hist0 else hist
      last := if v.bad then st.last else v.raw
      offset := if isRel b.kind && st.refd then st.offset else (b.offset : Rat)
      refd := st.refd && !restarted && !(v.bad && v.lostRef)
      good := good
      failed := v.bad || (st.failed && decide (good < 8))
      epoch := v.epoch }

/-- Speed of a source in increments per second (R192). A PROX source gives a magnitude. The manual states
no speed where the history has one sample instant only: the value is free. -/
def srcSpeed (ax : AxisImg) (b : SrcBlk) (v : SrcVal) (st : SrcSt) : Rat :=
  if b.kind = 3 then
    if v.period = 0 then 0
    else ratAbs (scaleSrc b 1) * 200000000 / (v.period : Rat)
  else
    match st.hist with
    | [] => 0
    | (r, t) :: hs =>
      match hs.getLast? with
      | none => Config.firstSpeed r t
      | some (r0, t0) =>
        if t ≤ t0 then Config.firstSpeed r t
        else modDiff ax (scaleSrc b (r - r0)) * 200000000 / ((t - t0 : Nat) : Rat)

/-- Position of a source carried forward to the window start (R192). -/
def srcPos (b : SrcBlk) (st : SrcSt) (speed : Rat) (now : Nat) : Rat :=
  match st.hist with
  | [] => st.offset
  | (r, t) :: _ => scaleSrc b r + st.offset + speed * ((now - t : Nat) : Rat) / 200000000

/-- What an instance knows of its axis at a window start. -/
structure AxisView where
  /-- the source is present and sound (R195) -/
  ok1  : Bool
  ok2  : Bool
  v1   : Rat
  v2   : Rat
  p1   : Rat
  p2   : Rat
  k1   : Nat
  k2   : Nat
  deriving DecidableEq, Repr

/-- The sound sources as kind, speed and position. -/
def AxisView.sound (w : AxisView) : List (Nat × Rat × Rat) :=
  (if w.ok1 then [(w.k1, w.v1, w.p1)] else []) ++ (if w.ok2 then [(w.k2, w.v2, w.p2)] else [])

/-- The larger |v| of the sound sources. -/
def AxisView.vmax (w : AxisView) : Rat :=
  w.sound.foldl (fun m e => max m (ratAbs e.2.1)) 0

/-- The largest speed in one sense among the sound sources; a PROX source counts in both (R206). -/
def AxisView.toward (w : AxisView) (pos : Bool) : Rat :=
  let vs := w.sound.map (fun e => if e.1 = 3 then ratAbs e.2.1 else if pos then e.2.1 else -e.2.1)
  match vs with
  | [] => 0
  | v :: rest => rest.foldl max v

def AxisView.positions (w : AxisView) : List Rat :=
  (w.sound.filter (fun e => hasPos e.1)).map (fun e => e.2.2)

/-- Positions expressed around the midpoint of the allowed range (R193). -/
def around (ax : AxisImg) (lo hi p : Rat) : Rat :=
  let c := (lo + hi) / 2
  if ax.modular then c + modDiff ax (p - c) else p

def listMax (d : Rat) (l : List Rat) : Rat :=
  match l with
  | [] => d
  | v :: rest => rest.foldl max v

def listMin (d : Rat) (l : List Rat) : Rat :=
  match l with
  | [] => d
  | v :: rest => rest.foldl min v

/-- The axis no image record describes. -/
def AxisImg.none : AxisImg :=
  let b : SrcBlk := { kind := 0, index := 0, dirinv := false, num := 0, den := 1, offset := 0 }
  { axis := 0, single := false, modular := false, axdisc := 0, modulus := 0, ptol := 0, vabs := 0,
    vrel := 0, filt := 1, sgrace := 0, src1 := b, src2 := b }

/-- Everything the rule of a motion type needs. -/
structure MotIn where
  a       : FnIn
  ax      : AxisImg
  m       : MotionSt
  w       : AxisView
  /-- the axis is at standstill (R198) -/
  still   : Bool
  /-- standstill has held for STILLT (R199) -/
  stillT  : Bool
  /-- a diagnostic places or holds the instance in FAULT (R196, R209) -/
  fault   : Bool
  /-- the axis has its reference, or needs none (R197) -/
  refd    : Bool
  deriving DecidableEq, Repr

/-- What the rule of a motion type gives. -/
structure MotOut where
  logic : Nat
  ds    : List Nat
  outs  : BitVec 16
  m     : MotionSt
  took  : Bool
  notes : List Note
  deriving DecidableEq, Repr

def MotIn.parR (q : MotIn) (code : Nat) : Rat := (q.a.i.par code 0 0 : Rat)
def MotIn.parN (q : MotIn) (code : Nat) : Nat := q.a.i.parN code 0 0
def MotIn.now (q : MotIn) : Nat := q.a.x.tick
def MotIn.vrel (q : MotIn) : Rat := (q.ax.vrel : Rat) / 1000
def MotIn.vabs (q : MotIn) : Rat := (q.ax.vabs : Rat)
def MotIn.secs (_ : MotIn) (t : Nat) : Rat := (t : Rat) / 200000000

/-- The positions of sources 1 and 2, of those that are sound and have one. -/
def AxisView.pos1 (w : AxisView) : Option Rat := if w.ok1 && hasPos w.k1 then some w.p1 else none
def AxisView.pos2 (w : AxisView) : Option Rat := if w.ok2 && hasPos w.k2 then some w.p2 else none

/-- A position captured from one source: it is kept while the source stands, and while an absolute source
is failed. A source that had none, or a relative one that was failed, captures afresh when it is sound
(DESIGN CHOICE, log 88). `fresh` answers what follows from the two positions. -/
def follow (k : Nat) (old new : Option Rat) (moved : Rat → Rat → Rat) : Option Rat :=
  match new, old with
  | some p, some h => some (moved h p)
  | some p, none => some p
  | none, some h => if isRel k then none else some h
  | none, none => none

/-- Deviation of one source from its captured position. -/
def AxisImg.deviation (ax : AxisImg) (p h : Option Rat) : Rat :=
  match p, h with
  | some p, some h => ratAbs (modDiff ax (p - h))
  | _, _ => 0

/-- The largest deviation from the captured position. -/
def MotIn.deviation (q : MotIn) : Rat :=
  max (q.ax.deviation q.w.pos1 q.m.hold1) (q.ax.deviation q.w.pos2 q.m.hold2)

/-- Every position of the sound sources stays within the captured one ± PWIN. -/
def MotIn.within (q : MotIn) : Bool := decide (q.deviation ≤ q.parR 0x87)

def MotIn.capture (q : MotIn) (m : MotionSt) : MotionSt :=
  { m with hold1 := q.w.pos1, hold2 := q.w.pos2 }

/-- p_h as sources fail and return while it is in force. -/
def MotIn.keepHold (q : MotIn) (m : MotionSt) : MotionSt :=
  { m with hold1 := follow q.w.k1 m.hold1 q.w.pos1 fun h _ => h,
           hold2 := follow q.w.k2 m.hold2 q.w.pos2 fun h _ => h }

/-- The common restart rule of a motion type in DEMAND, WAIT_RESET and FAULT: the demand is a violation
that has not ended, `bad`, a monitored limit that is violated now, or `req` (R149, R199). -/
def MotIn.next (q : MotIn) (logic : Nat) (bad req : Bool) (m : MotionSt) : Nat × MotionSt :=
  (restart q.a.i logic (m.viol || bad || req) q.fault false q.a.reset q.a.second,
    { m with viol := m.viol || (bad && logic == 2) })

/-- Ends the violation once standstill has held for STILLT and the request inputs permit (R199). -/
def MotIn.ended (q : MotIn) (permits : Bool) : MotionSt :=
  { q.m with viol := q.m.viol && !(q.stillT && permits) }

/-- The ramp envelope of R201 is broken. -/
def MotIn.rampBad (q : MotIn) : Bool :=
  let dt := q.now - q.m.t0
  let rd := ticksMs (q.parN 0x84)
  q.parN 0x86 == 1 && decide (rd ≤ dt) &&
  decide (q.m.v0 + q.vabs + q.vrel * q.m.v0 - q.parR 0x83 * q.secs (dt - rd) < q.w.vmax)

/-- One window in STOPPING (R201): stays, reaches standstill, or fails. -/
inductive StopEnd where
  | goes
  | stands
  | fails
  deriving DecidableEq, Repr

def MotIn.stopping (q : MotIn) : StopEnd :=
  if q.rampBad then .fails
  else if q.still then .stands
  else if elapsed q.now q.m.t0 (ticksMs (q.parN 0x85)) then .fails
  else .goes

def MotIn.startStop (q : MotIn) (m : MotionSt) : MotionSt := { m with t0 := q.now, v0 := q.w.vmax }

/-- RESET_REQ and the plain outputs. -/
def motOut (q : MotIn) (l : Nat) (m : MotionSt) (outs : List (Nat × Bool)) : MotOut :=
  let rr := match resetReqOf q.a.i.type with
    | some n => [(n, l == 2 || (l == 3 && !q.fault))]
    | none => []
  { logic := l, ds := q.a.ds, m := m, took := tookReset q.a.st.logic l, notes := [],
    outs := outsOf (outs ++ rr) }

/-- SSM (R200). -/
def stepSsm (q : MotIn) : MotOut :=
  let l := if q.fault then 3
    else if q.a.st.logic = 3 then 1
    else if q.a.st.logic = 1 && !q.a.second then 1 else 0
  let vl := q.parR 0x88
  let slow := if q.m.slow then decide (q.w.vmax ≤ vl) else decide (q.w.vmax ≤ vl - q.parR 0x89)
  let first := q.a.st.windows = 0 && decide (q.w.vmax ≤ vl)
  let sl := slow || first
  motOut q l { q.m with slow := sl && !q.w.sound.isEmpty }
    [(0, sl && !q.w.sound.isEmpty && l == 0), (1, q.still && l != 3)]

/-- SS1 and SS2 (R201, R202). -/
def stepSs (q : MotIn) (two : Bool) : MotOut :=
  let stop := !q.a.x.read 0 false
  let m := q.keepHold (q.ended (!stop))
  let l0 := q.a.st.logic
  let (l, m') :=
    if q.fault then (3, m)
    else match l0 with
      | 0 => if stop then (4, q.startStop m) else (0, m)
      | 4 => match q.stopping with
        | .goes => (4, m)
        | .stands => if two then (5, q.capture m) else (1, { m with viol := true })
        | .fails => (1, { m with viol := true })
      | 5 => if !(({ q with m := m } : MotIn).within && q.still) then (1, { m with viol := true })
             else if !stop && (q.a.reset || q.a.i.auto) then (0, m) else (5, m)
      | n => q.next n false stop m
  let o := motOut q l m' [(0, l == 0 || l == 4 || l == 5), (1, l == 4), (2, q.still)]
  { o with
    outs := if l == 5 && !stop then o.outs ||| 8#16 else o.outs
    took := o.took || (l0 == 5 && l == 0 && q.a.reset) }

/-- SOS (R203). -/
def stepSos (q : MotIn) : MotOut :=
  let act := q.a.x.read 0 true
  let m := q.keepHold (q.ended true)
  let l0 := q.a.st.logic
  let (l, m') :=
    if q.fault then (3, m)
    else match l0 with
      | 0 => if act then (5, q.capture m) else (0, m)
      | 5 => if !act then (0, m)
             else if ({ q with m := m } : MotIn).within && q.still then (5, m)
             else (1, { m with viol := true })
      | n => q.next n false false m
  motOut q l m' [(0, l == 0 || l == 5), (1, q.still)]

/-- SLS (R204). -/
def stepSls (q : MotIn) : MotOut :=
  let act := q.a.x.read 0 true
  let m0 := q.ended true
  let m := { m0 with prevReq := act, actAt := if act && !q.m.prevReq then q.now else q.m.actAt }
  let excess := decide (q.parR 0x88 < q.w.vmax)
  let viol := act && excess && elapsed q.now m.actAt (ticksMs (q.parN 0x8A))
  let l0 := q.a.st.logic
  let (l, m') :=
    if q.fault then (3, m)
    else match l0 with
      | 0 => if viol then (if q.parN 0x8B == 1 then (4, q.startStop m)
                           else (1, { m with viol := true })) else (0, m)
      | 4 => match q.stopping with
        | .goes => (4, m)
        | _ => (1, { m with viol := true })
      | n => q.next n viol false m
  let arm := act && elapsed q.now m.actAt (ticksMs (q.parN 0x8A))
  motOut q l { m' with arm := arm } [(0, l == 0 || l == 4),
    (1, act && !excess && !q.w.sound.isEmpty)]

/-- Moves p_e with motion in the allowed sense (R205). -/
def moveEdge (ax : AxisImg) (forbidPos : Bool) (e p : Rat) : Rat :=
  let d := modDiff ax (p - e)
  if forbidPos then (if d < 0 then p else e) else (if 0 < d then p else e)

/-- A position lies more than PWIN beyond p_e in the forbidden sense (R205). -/
def MotIn.beyond (q : MotIn) (forbidPos : Bool) (p e : Rat) : Bool :=
  let d := modDiff q.ax (p - e)
  decide (q.parR 0x87 < if forbidPos then d else -d)

/-- A source with direction moves faster than VSTAND in the forbidden sense (R205). -/
def MotIn.against (q : MotIn) (forbidPos : Bool) : Bool :=
  q.w.sound.any fun e => hasPos e.1 && decide (q.parR 0x81 < if forbidPos then e.2.1 else -e.2.1)

/-- SDI (R205). p_e is in force while ACTIVE is 1 in RUN. -/
def stepSdi (q : MotIn) : MotOut :=
  let act := q.a.x.read 0 true
  let forbidPos := q.parN 0x8C == 0
  let l0 := q.a.st.logic
  let m0 := q.ended true
  let moved := moveEdge q.ax forbidPos
  let m := if act && q.m.prevReq && l0 == 0
    then { m0 with prevReq := act, edge1 := follow q.w.k1 q.m.edge1 q.w.pos1 moved,
                   edge2 := follow q.w.k2 q.m.edge2 q.w.pos2 moved }
    else { m0 with prevReq := act, edge1 := q.w.pos1, edge2 := q.w.pos2 }
  let far (p e : Option Rat) : Bool := match p, e with
    | some p, some e => q.beyond forbidPos p e
    | _, _ => false
  let noDir := !q.w.sound.any (fun e => hasPos e.1)
  let viol := act &&
    (far q.w.pos1 m.edge1 || far q.w.pos2 m.edge2 || q.against forbidPos || noDir)
  let (l, m') :=
    if q.fault then (3, m)
    else match l0 with
      | 0 => if viol then (1, { m with viol := true }) else (0, m)
      | n => q.next n viol false m
  motOut q l m' [(0, l == 0)]

/-- The stopping distance of R206, rounded up to a whole increment. -/
def MotIn.distance (q : MotIn) (v : Rat) : Rat :=
  let u := max v 0 + q.vabs + q.vrel * ratAbs v
  let dec := q.parR 0x8F
  let tr : Rat := q.parR 0x90 / 1000000
  ((u * tr + (if dec = 0 then 0 else u * u / (2 * dec))).ceil : Rat)

/-- SLP (R206, R207). -/
def stepSlp (q : MotIn) : MotOut :=
  let lo := q.parR 0x74
  let hi := q.parR 0x75
  let lh := q.parR 0x93
  let ps := q.w.positions.map (around q.ax lo hi)
  let qhi := listMax hi ps
  let qlo := listMin lo ps
  let hiBad := decide (hi ≤ qhi + q.distance (q.w.toward true))
  let loBad := decide (qlo - q.distance (q.w.toward false) ≤ lo)
  let creep := decide (q.parR 0x92 < q.w.vmax)
  let noref := !q.refd
  let demandRef := noref && q.parN 0x91 == 0
  let l0 := q.a.st.logic
  let m0 := q.ended true
  -- the direction lock of this window: followed in RUN, set afresh where RUN would be entered
  let lock1 :=
    if l0 == 0 then
      match q.m.lock with
      | .hi => if decide (qhi ≤ hi - lh) && q.refd then Lock.none else .hi
      | .lo => if decide (lo + lh ≤ qlo) && q.refd then Lock.none else .lo
      | .none => .none
    else if decide (hi - lh < qhi) then .hi
    else if decide (qlo < lo + lh) then .lo
    else if noref then q.m.lock
    else .none
  let end_ := if lock1 == .lo then qlo else qhi
  let edge := if l0 == 0 && q.m.lock == lock1 && q.m.lockRef == q.refd
    then moveEdge q.ax (lock1 == .hi) q.m.lockEdge end_ else end_
  let m := { m0 with lock := lock1, lockEdge := edge, lockRef := q.refd }
  let limits (l : Bool) := if noref then demandRef || creep else l
  let bad := match lock1 with
    | .none => limits (hiBad || loBad)
    | .hi => limits loBad || q.beyond true qhi edge || q.against true
    | .lo => limits hiBad || q.beyond false qlo edge || q.against false
  let (l, m') :=
    if q.fault then (3, m)
    else match l0 with
      | 0 => if bad then (1, { m with viol := true }) else (0, m)
      | n => q.next n bad false m
  let arm := !ps.isEmpty && decide (lo ≤ qlo ∧ qhi ≤ hi)
  let o := motOut q l { m' with arm := arm } [(0, l == 0), (1, l == 0 && m'.lock != .hi),
    (2, l == 0 && m'.lock != .lo), (3, q.refd)]
  { o with ds := diagUpd 15 noref (!noref) o.ds }

/-- SBT (R208). -/
def stepSbt (q : MotIn) : MotOut :=
  let req := q.a.x.read 0 false
  let applied := q.a.x.read 1 false
  let ack := q.a.x.read 2 false
  let rise := req && !q.m.prevReq
  let m := { q.keepHold (q.ended true) with prevReq := req, prevAck := ack }
  let l0 := q.a.st.logic
  let now := q.now
  let sec := q.a.x.opsec
  let starts := rise && applied && q.still && l0 != 4 && !q.fault
  let ackAt := match q.m.ackAt with
    | some t => some t
    | none => if ack && !q.m.prevAck && decide (now ≤ q.m.testAt + ticksMs (q.parN 0x97))
              then some now else none
  let dev0 := ({ q with m := m } : MotIn).deviation
  let out := !({ q with m := m } : MotIn).within
  let abort := !req || !applied ||
    (ackAt.isNone && elapsed now q.m.testAt (ticksMs (q.parN 0x97)))
  let failed := l0 == 4 && !q.fault && !abort && out
  let passed := l0 == 4 && !q.fault && !abort && !failed &&
    (match ackAt with
     | some t => elapsed now t (ticksMs (q.parN 0x96))
     | none => false)
  let last := if passed then some sec else q.m.lastPass
  let due := match last with
    | some p => decide (p + q.parN 0x98 * 3600 ≤ sec)
    | none => true
  let dueAt := match last with
    | some p => p + q.parN 0x98 * 3600
    | none => m.startSec
  let graceOver := due && decide (dueAt + q.parN 0x99 * 3600 ≤ sec)
  let ds := diagUpd 17 due passed (diagUpd 16 failed passed q.a.ds)
  let fault := q.fault || ds.contains 16
  let dev := max q.m.dev dev0
  let (l, m') :=
    if starts then
      (4, { q.capture m with testAt := now, ackAt := none, back := l0, dev := 0 })
    else if l0 == 4 then
      if failed || q.fault then (3, { m with ackAt := none, dev := dev })
      else if abort || passed then (if fault && q.m.back != 3 then 3 else q.m.back, { m with ackAt := none, lastPass := last, dev := dev })
      else (4, { m with ackAt := ackAt, dev := dev })
    else if fault then (3, m)
    else (restart q.a.i l0 m.viol false false q.a.reset q.a.second, m)
  let dn := dev.ceil.toNat
  { logic := l, ds := ds, m := m', took := tookReset l0 l && l0 != 4,
    notes := (if failed then [Note.brakeTest true dn] else []) ++
      (if passed then [Note.brakeTest false dn] else []) ++
      (if rise && !starts && l0 != 4 then [Note.ignored 0] else []),
    outs := outsOf [(0, l == 0 && !graceOver), (1, l == 4), (2, due), (3, l == 4)] }

/-- Reads the axis of an instance at a window start, with its cross-check (R192 to R197). -/
def axisStep (i : InstImg) (ax : AxisImg) (a : FnIn) (m : MotionSt) : MotIn :=
  let x := a.x
  let s1 := srcStep ax ax.src1 x.src1 m.s1
  let s2 := srcStep ax ax.src2 x.src2 m.s2
  let v1 := srcSpeed ax ax.src1 x.src1 s1
  let v2 := srcSpeed ax ax.src2 x.src2 s2
  let ok1 := ax.src1.kind != 0 && !s1.failed
  let ok2 := ax.src2.kind != 0 && !s2.failed
  -- a reference event (R197)
  let vm := (if ok1 then ratAbs v1 else 0)
  let vmx := max vm (if ok2 then ratAbs v2 else 0)
  let mark := i.type == 0x25 && x.read 0 false
  let refSpeed : Rat := i.par 0x94 0 0
  let refPos : Rat := i.par 0x95 0 0
  let event := mark && !m.prevReq && decide (vmx ≤ refSpeed)
  let setRef := fun (b : SrcBlk) (st : SrcSt) =>
    if event && isRel b.kind && !st.failed then
      match st.hist with
      | (r, _) :: _ => { st with offset := refPos - scaleSrc b r, refd := true }
      | [] => st
    else st
  let s1 := setRef ax.src1 s1
  let s2 := setRef ax.src2 s2
  let p1 := srcPos ax.src1 s1 v1 x.tick
  let p2 := srcPos ax.src2 s2 v2 x.tick
  let w : AxisView := { ok1 := ok1, ok2 := ok2, v1 := v1, v2 := v2, p1 := p1, p2 := p2,
                        k1 := ax.src1.kind, k2 := ax.src2.kind }
  let posRef := fun (b : SrcBlk) (st : SrcSt) => !isRel b.kind || st.refd
  let cmpV := fun (v : Rat) => if ax.src1.kind = 3 || ax.src2.kind = 3 then ratAbs v else v
  let tol := (ax.vabs : Rat) + (ax.vrel : Rat) / 1000 * max (ratAbs v1) (ratAbs v2)
  let agreeV := decide (ratAbs (cmpV v1 - cmpV v2) ≤ tol)
  let bothPos := hasPos ax.src1.kind && hasPos ax.src2.kind &&
    posRef ax.src1 s1 && posRef ax.src2 s2
  let agreeP := !bothPos || decide (ratAbs (modDiff ax (p1 - p2)) ≤ (ax.ptol : Rat))
  let checked := ok1 && ok2
  let agree := agreeV && agreeP
  let spread := if checked && !agree then
      (match m.spread with | some t => some t | none => some x.tick) else none
  let spreadDue := match spread with
    | some t => elapsed x.tick t (ticksMs ax.axdisc)
    | none => false
  -- failed sources (R196)
  let two := ax.src2.kind != 0
  let anyFail := s1.failed || (two && s2.failed)
  let srcFail := if anyFail then (match m.srcFail with | some t => some t | none => some x.tick)
                 else none
  let noPos := !((ok1 && hasPos ax.src1.kind) || (ok2 && hasPos ax.src2.kind))
  let graceOver := match srcFail with
    | some t => elapsed x.tick t (ticksS ax.sgrace)
    | none => false
  let srcFault := anyFail && (m.srcHeld || !ax.single || noPos || graceOver)
  let ds := diagUpd 14 spreadDue (checked && agree) (diagUpd 13 anyFail (!anyFail) a.ds)
  let still := !w.sound.isEmpty && decide (w.vmax ≤ (i.par 0x81 0 0 : Rat))
  let stillAt := if still then (match m.still with | some t => some t | none => some x.tick) else none
  let stillT := match stillAt with
    | some t => elapsed x.tick t (ticksMs (i.parN 0x82 0 0))
    | none => false
  let m' := { m with s1 := s1, s2 := s2, spread := spread, srcFail := srcFail, srcHeld := srcFault, still := stillAt,
                     prevReq := if i.type == 0x25 then mark else m.prevReq }
  { a := { a with ds := ds }, ax := ax, m := m', w := w, still := still, stillT := stillT,
    fault := anyFaulting (ds.filter (· != 16)) || srcFault,
    refd := posRef ax.src1 s1 && (!(hasPos ax.src2.kind) || posRef ax.src2 s2) }

/-- The rule of each type of Table 8.3. -/
def motTypeStep (q : MotIn) : MotOut :=
  match q.a.i.type with
  | 0x20 => stepSsm q
  | 0x21 => stepSs q false
  | 0x22 => stepSs q true
  | 0x23 => stepSos q
  | 0x24 => stepSls q
  | 0x25 => stepSlp q
  | 0x26 => stepSdi q
  | _ => stepSbt q

/-- The function state after one committed window of a motion type. -/
def motionStep (i : InstImg) (ax : AxisImg) (x : Snap) (st : FnSt) : FnSt :=
  let (a, ev) := fnIn i x st
  let m0 := st.motion.getD .start
  let m1 := if st.windows = 0 then { m0 with startSec := x.opsec } else m0
  let q := axisStep i ax a m1
  let markHigh := i.type == 0x25 && x.read 0 false && !m1.prevReq &&
    decide ((i.par 0x94 0 0 : Rat) < q.w.vmax)
  let o := motTypeStep q
  { logic := o.logic, windows := min 2 (st.windows + 1), diags := o.ds, pairs := a.ps,
    rstPrev := ev.prev, rstRise := ev.rise, outs := o.outs, ty := .plain, motion := some o.m,
    took := o.took, released := releasing i st.logic o.logic o.took,
    notes := o.notes ++ (if markHigh then [Note.ignored 0] else []) }

/-- The function state after one committed window (R140, R198). -/
def fnStep (i : InstImg) (ax : AxisImg) (x : Snap) (st : FnSt) : FnSt :=
  if 0x20 ≤ i.type then motionStep i ax x st else libStep i x st

end Sys2Proof.Machine
end

