-- ==== Sys2Proof/Machine/StageOps.lean ====
section
/-! DEFINITION. Image slots, the shadow clock and the end of staging (R311, R322, R323, R327). -/

namespace Sys2Proof.Machine

def State.slot (s : State) (k : Nat) : Slot := Tab.get .empty s.nv.slots k

def State.setSlot (s : State) (k : Nat) (v : Slot) : State :=
  { s with nv := { s.nv with slots := Tab.set .empty s.nv.slots k v } }

def State.setSlotSt (s : State) (k : Nat) (st : SlotSt) : State :=
  s.setSlot k { s.slot k with st := st }

/-- The slot that is not RUNNING (R311); slot 0 or 1 as named while no image executes. -/
def State.isFreeSlot (s : State) (k : Nat) : Bool :=
  decide (k < 2) && !(s.cfg.image.isSome && s.cfg.slot == k)

/-- The shadow clock in operating seconds (R322). -/
def State.shadowSecs (s : State) : Nat := s.pwr.opsec - s.cfg.clock0

/-- The shadow clock has reached SHADOW (R322). -/
def State.stageDue (s : State) : Bool :=
  match s.cfg.staged with
  | none => false
  | some m => decide (m.hdr.shadow ≤ s.shadowSecs)

/-- READY: as soon as the clock has reached SHADOW (R322). -/
def State.stageReady (s : State) : Bool := s.cfg.ready || s.stageDue

/-- R322: a staged room or instance restarts from its start values. -/
def State.restartClock (s : State) : State :=
  { s with cfg := { s.cfg with clock0 := s.pwr.opsec, ready := false } }

/-- CFG_STAGE. -/
def State.stageWord (s : State) : Word :=
  match s.cfg.staged with
  | none => mkWord [(s.cfg.ended.code, 27)]
  | some m =>
    let st := if s.cfg.handover.isSome then 3 else if s.stageReady then 2 else 1
    mkWord [(st, 30), (s.cfg.ended.code, 27), (min 4095 s.shadowSecs, 12), (m.hdr.shadow, 0)]

/-- A physical room begins its self-test (R97). -/
def State.roomToTest (s : State) (r : Nat) (afterFail : Bool) : State :=
  let v := s.room r
  if v.st = .retired || v.st = .off then s
  else
    s.setRoom r { v with st := .testing, iroom := 0, cells := .start,
                         testAt := s.tb, afterFail := afterFail, differs := false, rideEnded := [] }

/-- Rooms that carry staged image rooms, their mirrors and copies on the way. -/
def State.stagedRooms (s : State) : List Nat :=
  s.sea.imap.flatMap fun e =>
    if e.1 < 64 then []
    else e.2.room.toList ++ e.2.mirror.toList ++ (e.2.building.map Prod.fst).toList ++
      (e.2.rewrite.map Prod.fst).toList

/-- Requests of staged instances end without an effect. -/
def State.dropStagedResets (s : State) : State :=
  s.eng.insts.foldl (fun acc e =>
    if e.1 < 1024 then acc
    else
      match e.2 with
      | none => acc
      | some v => (v.resets ++ v.wins.flatMap Window.resets).foldl
          (fun a op => a.finish op stFault) acc) s

/-- R323: staging ends; its rooms and instances are released and the slot goes VALID. -/
def State.endStage (s : State) (why : StageEnd) : State :=
  match s.cfg.staged with
  | none => s
  | some _ =>
    let s1 := s.dropStagedResets
    let s2 := s1.stagedRooms.foldl (fun acc r => acc.roomToTest r false) s1
    let timers := s2.tmr.timers.filter fun e => !e.2.shadowed
    let s3 := { s2 with
      eng := { s2.eng with insts := s2.eng.insts.filter fun e => decide (e.1 < 1024),
                           masks := s2.eng.masks.filter fun e => decide (e.1 < 32) }
      sea := { s2.sea with imap := s2.sea.imap.filter fun e => decide (e.1 < 64) }
      tmr := { s2.tmr with timers := timers }
      lnk := { s2.lnk with cons := s2.lnk.cons.filter fun e => decide (e.1 < 512)
                           control := s2.lnk.control.filter fun e => decide (e.1 < 512) }
      fld := { s2.fld with seqA := { s2.fld.seqA with loaded := false },
                           seqB := { s2.fld.seqB with loaded := false } } }
    let op := (s3.cfg.handover.map Handover.op).getD 0
    let k := s3.cfg.stagedSlot
    let s4 := { s3 with cfg := { s3.cfg with staged := none, ready := false, ended := why, handover := none } }
    ((s4.setSlotSt k .valid).finish op stState).record 0x0A04 2
      ([BitVec.ofNat 8 k, 1#8] ++ wordBytes (s4.stageWord)) true

end Sys2Proof.Machine
end

