-- ==== Sys2Proof/Machine/EngineOps.lean ====
section
/-! DEFINITION. Engines and their instances: states, loads, placement and shedding, split and join
(chapters 5 and 10). -/

namespace Sys2Proof.Machine

/-! ### Parts -/

def State.engine (s : State) (e : Nat) : Engine := Tab.get .start s.eng.engines e

def State.setEngine (s : State) (e : Nat) (v : Engine) : State :=
  { s with eng := { s.eng with engines := Tab.set .start s.eng.engines e v } }

/-- Half of an engine (Table 5.1). -/
def engSide (e : Nat) : Side := if e < 4 then .a else .b

/-- A checkpoint memory is in service. -/
def State.ckmOk (s : State) (q : Side) : Bool :=
  (match q with | .a => s.eng.ckmA | .b => s.eng.ckmB) && s.powered (engDom q)

/-- The checkpoint memory that serves engine `e` (R120). -/
def State.ckmFor (s : State) (e : Nat) : Bool := s.ckmOk (otherSide (engSide e))

def State.cmp (s : State) : Side → CmpSt
  | .a => s.eng.cmpA
  | .b => s.eng.cmpB

def State.setCmp (s : State) (q : Side) (v : CmpSt) : State :=
  match q with
  | .a => { s with eng := { s.eng with cmpA := v } }
  | .b => { s with eng := { s.eng with cmpB := v } }

def State.cmpOk (s : State) (q : Side) : Bool := decide (s.cmp q = .inService)

/-- At least one comparator is in service (R119). -/
def State.judging (s : State) : Bool := s.cmpOk .a || s.cmpOk .b

/-- ENG_SPEED (R105). -/
def State.engSpeed (s : State) : Word :=
  mkWord [(if s.powered 5 then min 65535 s.eng.speedB else 0, 16),
    (if s.powered 4 then min 65535 s.eng.speedA else 0, 0)]

/-- Engine `e` changes its state (Table 5.5, record ENGINE). -/
def State.setEngSt (s : State) (e : Nat) (st : EngSt) : State :=
  let v := s.engine e
  if v.st = st then s
  else (s.setEngine e { v with st := st }).record 0x0702 2
    [BitVec.ofNat 8 e, BitVec.ofNat 8 v.st.code, BitVec.ofNat 8 st.code]

/-- Engines in service (R240). -/
def State.inService (s : State) : List Nat :=
  (List.range 8).filter fun e => (s.engine e).st == .active || (s.engine e).st == .spare

/-! ### Starting a function -/

/-- The check value of a record as stored is right (R208, R393). A record without one is not valid. -/
def Rec.valid (r : Rec) : Bool := !r.flags.testBit 5 && crc32c r.bytes == r.crc

/-- Operating seconds of the newest valid pass record of an instance (R208). -/
def State.passSec (s : State) (i : Nat) : Option Nat :=
  ((s.foundAll ++ s.circRead).reverse.find? fun r =>
    r.valid && r.code == 0x0803 && r.payload.take 3 == be16 i ++ [0#8]).map Rec.opsec

/-- The state in which an instance starts (R143, R165, R208). -/
def State.startFn (s : State) (i : InstImg) : FnSt :=
  let f := FnSt.start i
  if i.type = 0x27 then
    { f with motion := f.motion.map fun m => { m with lastPass := s.passSec i.num } }
  else f

/-! ### Loads and budgets (R130 to R132) -/

/-- 80 % of an engine, in the units of `InstImg.load`. -/
def fullBudget : Nat := 1152000

/-- Load of an instance in 1/1,440,000 of an engine: cost / (W × 180 Mop/s). -/
def InstImg.load (i : InstImg) : Nat := i.cost * 2 ^ (5 - i.window)

/-- An instance as R128 and R247 see it. -/
structure Item where
  key  : Nat
  num  : Nat
  prio : Nat
  rank : Nat
  load : Nat
  eng  : Option Nat
  deriving DecidableEq, Repr

def itemOf (key : Nat) (i : InstImg) (eng : Option Nat) : Item :=
  { key := key, num := i.num, prio := i.prio, rank := i.rank, load := i.load, eng := eng }

/-- The order of placement (R128, R246); staged instances come after all of the running image. -/
def Item.before (x y : Item) : Bool :=
  let sx := decide (1024 ≤ x.key)
  let sy := decide (1024 ≤ y.key)
  if sx != sy then sy
  else if x.prio != y.prio then decide (x.prio < y.prio)
  else if x.rank != y.rank then decide (y.rank < x.rank)
  else decide (x.num < y.num)

def Item.insert (x : Item) : List Item → List Item
  | [] => [x]
  | y :: ys => if x.before y then x :: y :: ys else y :: x.insert ys

def sortItems (l : List Item) : List Item := l.foldr Item.insert []

/-- Free budget of an engine, and how many instances it may still take. -/
structure Budget where
  eng   : Nat
  free  : Nat
  slots : Nat
  deriving DecidableEq, Repr

/-- R128: the largest free budget that holds the load, the lower number on a tie. -/
def bestOf (bs : List Budget) (load : Nat) : Option Budget :=
  bs.foldl (fun acc b =>
    if load ≤ b.free ∧ 0 < b.slots then
      match acc with
      | none => some b
      | some a => if a.free < b.free then some b else some a
    else acc) none

def takeBudget (bs : List Budget) (e load : Nat) : List Budget :=
  bs.map fun b => if b.eng = e then { b with free := b.free - load, slots := b.slots - 1 } else b

/-- Places items in order; each with its engine, or none where it fits nowhere. -/
def placeAll : List Item → List Budget → List (Item × Option Nat)
  | [], _ => []
  | x :: xs, bs =>
    match bestOf bs x.load with
    | some b => (x, some b.eng) :: placeAll xs (takeBudget bs b.eng x.load)
    | none => (x, none) :: placeAll xs bs

/-- The free budgets of `engs` when each carries those of `its` that `on` keeps (R132). -/
def budgets (engs : List Nat) (its : List Item) (on : Item → Bool) : List Budget :=
  engs.map fun e =>
    let l := its.filter fun x => on x && x.eng == some e
    { eng := e, free := fullBudget - (l.map Item.load).sum, slots := 128 - l.length }

/-- P0 and P1 instances of the running image, and of the staged one where asked. -/
def State.items (s : State) (staged : Bool) : List Item :=
  s.eng.insts.filterMap fun e =>
    match e.2 with
    | none => none
    | some v =>
      let st := decide (1024 ≤ e.1)
      match s.instImg st (e.1 % 1024) with
      | none => none
      | some i => if i.prio < 2 && (staged || !st) then some (itemOf e.1 i v.engine) else none

/-! ### Thresholds (R247) -/

/-- What one application of R247 decides. -/
structure Plan where
  thresh : Nat
  /-- keys shed -/
  shed   : List Nat
  /-- keys placed, each with its engine -/
  place  : List (Nat × Nat)
  /-- every displaced instance of the running image that is not shed places -/
  ok     : Bool
  /-- a staged instance places nowhere -/
  left   : Bool
  deriving DecidableEq, Repr

/-- The threshold `th` on the engines `engs`. -/
def planAt (engs : List Nat) (its : List Item) (th : Nat) : Plan :=
  let isShed (x : Item) : Bool := decide (x.key < 1024) && x.prio == 1 && decide (x.rank < th)
  let homeless (x : Item) : Bool :=
    match x.eng with
    | none => true
    | some e => !engs.contains e
  let disp := sortItems (its.filter fun x => homeless x && !isShed x)
  let res := placeAll disp (budgets engs its fun x => !isShed x)
  let failed := res.filter fun r => r.2.isNone
  { thresh := th
    shed := (its.filter isShed).map Item.key ++
      (failed.filter fun r => decide (r.1.key < 1024)).map fun r => r.1.key
    place := res.filterMap fun r => r.2.map fun e => (r.1.key, e)
    ok := failed.all fun r => decide (1024 ≤ r.1.key)
    left := failed.any fun r => decide (1024 ≤ r.1.key) }

def insNat (x : Nat) : List Nat → List Nat
  | [] => [x]
  | y :: ys => if x < y then x :: y :: ys else if x = y then y :: ys else y :: insNat x ys

/-- Thresholds in the order of R247. -/
def thresholds (its : List Item) : List Nat :=
  let rs := (its.filter fun x => x.prio == 1 && decide (x.key < 1024)).map fun x => x.rank + 1
  0 :: (rs.foldr insNat [] ++ [256])

/-- The first threshold that places every displaced instance, else 256. -/
def planOf (engs : List Nat) (its : List Item) : Plan :=
  match (thresholds its).find? fun th => (planAt engs its th).ok with
  | some th => planAt engs its th
  | none => planAt engs its 256

/-! ### Coverage (R240) -/

/-- The instances of the running image on the engines `lost` all place on the others. -/
def covers (engs : List Nat) (its : List Item) (lost : List Nat) : Bool :=
  let rest := engs.filter fun e => !lost.contains e
  let moved := sortItems (its.filter fun x =>
    decide (x.key < 1024) && (match x.eng with | some e => lost.contains e | none => false))
  (placeAll moved (budgets rest its fun _ => true)).all fun r => r.2.isSome

def pairsIn (l : List Nat) : List (List Nat) :=
  l.flatMap fun a => (l.filter fun b => decide (a < b)).map fun b => [a, b]

def coverageOf (engs : List Nat) (its : List Item) : Nat :=
  let one := decide (1 < engs.length) && engs.all fun e => covers engs its [e]
  let two := decide (2 < engs.length) && (pairsIn engs).all fun l => covers engs its l
  if two then 2 else if one then 1 else 0

/-- Coverage C; `staged`: with the staged instances in place. -/
def State.coverage (s : State) (staged : Bool) : Nat := coverageOf s.inService (s.items staged)

/-- Keys of the uncovered instances of the running image. -/
def uncoveredOf (engs : List Nat) (its : List Item) : List Nat :=
  engs.flatMap fun e =>
    let p := planOf (engs.filter fun x => x != e) its
    (its.filter fun x => decide (x.key < 1024) && x.eng == some e && p.shed.contains x.key).map
      Item.key

def State.uncovered (s : State) : List Nat := uncoveredOf s.inService (s.items true)

/-- Spare policy of the running image. -/
def State.policy (s : State) : Nat := ((s.img false).map fun m => m.hdr.spare).getD 0

/-! ### Instances going to SAFE -/

/-- What a type's own state becomes as its outputs fall to their demand values at `now`: a return that the
type asks for after a fall is asked for again (R157, R158, R161 to R163). `timed`: a running DELAY goes on. -/
def TypeSt.fall (i : InstImg) (outs : BitVec 16) (now : Nat) (timed : Bool) : TypeSt → TypeSt
  | .operator armed x y => .operator (armed && !outs.getLsbD 0) x y
  | .drive on at_ checked prev => if on then .drive false (some now) false prev else .drive on at_ checked prev
  | .delay since prev blocked =>
    if i.par 0x60 0 0 = 0 then .delay since prev blocked
    else if timed && since.isSome then .delay since prev blocked
    else .delay none prev (blocked || outs.getLsbD 0)
  | x => x

/-- An instance whose outputs take their demand values: a SAFE logic state stays, any other becomes DEMAND
(R119, R127, R142, R150; DEDUCED, log 46). RELEASE keeps its state (R165, R167). -/
def FnSt.toDemand (i : InstImg) (now : Nat) (st : FnSt) : FnSt :=
  if i.type = 0x0E then st
  else { st with logic := if 1 ≤ st.logic && st.logic ≤ 3 then st.logic else 1
                 outs := 0
                 ty := st.ty.fall i st.outs now false
                 motion := st.motion.map fun m => { m with arm := false } }

/-- A checkpointed state that is restored after the hold was lost: logic state, timers and pending events are
kept (R143), the outputs have fallen and stay 0 until a commit (R127; DEDUCED, log 46). -/
def FnSt.fallen (i : InstImg) (now : Nat) (st : FnSt) : FnSt :=
  if i.type = 0x0E then st else { st with outs := 0, ty := st.ty.fall i st.outs now true }

/-- Record LOGIC where the logic state or the diagnostic changed (R151). -/
def State.logicRecord (s : State) (st : Bool) (i : InstImg) (old new : FnSt) : State :=
  let d0 := (old.diags.head?).getD 0
  let d1 := (new.diags.head?).getD 0
  if old.logic = new.logic ∧ d0 = d1 then s
  else
    let sev := if old.logic ≠ new.logic ∧ safeLogic new.logic = true then 3 else 1
    s.record 0x0801 sev (be16 i.num ++ [BitVec.ofNat 8 i.type, BitVec.ofNat 8 old.logic,
      BitVec.ofNat 8 new.logic, BitVec.ofNat 8 d1]) st

/-- R119, R127: the outputs of an instance take their demand values and it goes to SAFE. Its checkpoint
record stays as the last commit wrote it (R120). -/
def State.toSafe (s : State) (st : Bool) (i : InstImg) : State :=
  match s.inst st i.num with
  | none => s
  | some v =>
    let f := v.st.toDemand i s.tb
    let s1 := s.setInst st i.num (some { v with st := f, safe := true, hold := none })
    (s1.logicRecord st i v.st f).seeDiffer

/-- Requests that no commit can consume any more are answered FAULT (R148). -/
def State.dropResets (s : State) (v : Inst) : State :=
  (v.resets ++ v.wins.flatMap Window.resets).foldl (fun acc op => acc.finish op stFault) s

/-- R247: an instance is shed. -/
def State.shedInst (s : State) (key : Nat) : State :=
  let st := decide (1024 ≤ key)
  match s.inst st (key % 1024), s.instImg st (key % 1024) with
  | some v, some i =>
    if v.status = 2 ∧ v.engine = none then s
    else
      let s1 := (s.dropResets v).setInst st i.num (some
        { v with engine := none, status := 2, wins := [], resets := [], moving := false, spec := none,
                 from_ := none, left := none, started := false })
      (s1.toSafe st i).dropTimers st i.num
  | _, _ => s

/-- An instance takes its place on engine `e`: its record is on its way (R128), or its parameters
where it has no record (R26, R248). Until the move is complete it runs where it ran, and a draining engine
waits for its commit elsewhere (R134, R258). -/
def State.placeInst (s : State) (key e : Nat) : State :=
  let st := decide (1024 ≤ key)
  match s.inst st (key % 1024), s.instImg st (key % 1024) with
  | some v, some i =>
    let has := v.status != 2 && v.ckpt.isSome && s.ckmOk v.ckIn
    let s1 := s.setInst st i.num (some
      { v with engine := some e, moving := true, restore := has, spec := none,
               status := if v.status = 2 then 2 else 0,
               from_ := if v.status = 2 then none else if v.moving then v.from_ else v.engine,
               left := match v.engine with
                 | some o => if (s.engine o).st = .draining then some o else v.left
                 | none => v.left })
    if has || v.safe then s1 else s1.toSafe st i
  | _, _ => s

/-- SVC_SHED. -/
def State.shedWord (s : State) : Word :=
  let n (k : Nat) : Nat := (s.eng.insts.filter fun x =>
    decide (x.1 < 1024) && (x.2.map Inst.status).getD 0 == k).length
  mkWord [(n 1, 22), (n 2, 12), (s.eng.thresh, 0)]

/-- Record SHED where threshold or shed set have changed since `before` (R247 to R249). -/
def State.shedRecord (s : State) (before : Word) : State :=
  if s.shedWord = before then s else s.record 0x0902 3 (wordBytes s.shedWord)

/-- P2 work of an engine stops with status EVICTED (R135, R242). -/
def State.evict (s : State) (e : Nat) : State :=
  (fun t : State => (t.shedRecord s.shedWord).seeDiffer) <| s.eng.insts.foldl (fun acc x =>
    match x.2 with
    | none => acc
    | some v =>
      let st := decide (1024 ≤ x.1)
      match acc.instImg st (x.1 % 1024) with
      | none => acc
      | some i =>
        if i.prio = 2 ∧ v.engine = some e then
          (acc.dropResets v).setInst st i.num (some
            { v with engine := none, status := 1, wins := [], resets := [], safe := true,
                     started := false })
        else acc) s

/-- Applies a plan; record SHED where threshold or shed set changed. -/
def State.applyPlan (s : State) (p : Plan) : State :=
  let before := s.shedWord
  let s1 := p.shed.foldl State.shedInst s
  let s2 := p.place.foldl (fun acc x => acc.placeInst x.1 x.2) s1
  ({ s2 with eng := { s2.eng with thresh := p.thresh } } : State).shedRecord before

/-- Where an item stands under a plan. -/
def Plan.put (p : Plan) (x : Item) : Item :=
  if p.shed.contains x.key then { x with eng := none }
  else match p.place.find? fun r => r.1 == x.key with
    | some r => { x with eng := some r.2 }
    | none => x

/-- Staged work costs the running image something under this plan (R323). -/
def stagingCosts (engs : List Nat) (all : List Item) : Bool :=
  let alone := all.filter fun x => decide (x.key < 1024)
  let p := planOf engs all
  let q := planOf engs alone
  let all' := all.map p.put
  let alone' := alone.map q.put
  p.left || p.thresh != q.thresh || !p.shed.all q.shed.contains ||
    decide (coverageOf engs all' < coverageOf engs alone') ||
    !(uncoveredOf engs all').all fun k => (uncoveredOf engs alone').contains k

/-- An instance that is not shed has no engine in service. -/
def State.displaced (s : State) : Bool :=
  let engs := s.inService
  (s.items true).any fun x =>
    match x.eng with
    | none => (((s.inst (decide (1024 ≤ x.key)) x.num).map Inst.status).getD 0) != 2
    | some e => !engs.contains e

/-- Some instance has no engine in service. -/
def State.homeless (s : State) : Bool :=
  let engs := s.inService
  (s.items true).any fun x =>
    match x.eng with
    | none => true
    | some e => !engs.contains e


/-- R248: shed instances are placed again. -/
def State.replace (s : State) : State :=
  if !s.homeless then s
  else
    let p := planOf s.inService (s.items true)
    if p.ok && decide (p.thresh ≤ s.eng.thresh) then s.applyPlan p else s

/-! ### Self-tests, joins and retirement -/

/-- Engine `e` begins a self-test (R129, R135, R249). -/
def State.startTest (s : State) (e : Nat) (why : TestWhy) : State :=
  let s1 := (s.evict e).idleTimers e
  (s1.setEngine e { s1.engine e with why := why, testAt := s1.tb }).setEngSt e .testing

/-- R249: the device joins a SPLIT engine on its own where `need`, one at a time. -/
def State.joinOne (s : State) (need : Bool) : State :=
  let running := (List.range 8).any fun e =>
    (s.engine e).st == .testing && (s.engine e).why == .auto
  if s.cfg.image.isNone || running || !need then s
  else
    match (List.range 8).find? fun e => (s.engine e).st == .split with
    | some e => s.startTest e .auto
    | none => s

/-- R249: a join is called for while the threshold is above 0 or C lies below S. -/
def State.autoJoin (s : State) : State :=
  s.joinOne (decide (0 < s.eng.thresh) || decide (s.coverage true < s.policy))

/-- R247 over every displaced instance: the join that its outcome calls for begins first, then instances
are shed and placed. Staging that costs the running image anything ends before (R323). -/
def State.redistribute (s : State) : State :=
  let engs := s.inService
  let s1 := if s.cfg.staged.isSome && stagingCosts engs (s.items true) then s.endStage .capacity else s
  if !s1.displaced then s1
  else
    let its := s1.items true
    let p := planOf engs its
    let c := coverageOf engs (its.map p.put)
    (s1.joinOne (decide (0 < p.thresh) || decide (c < s1.policy))).applyPlan p

/-- Instances of priority P0 or P1 that an engine carries. -/
def State.carried (s : State) (e : Nat) : List Item := (s.items true).filter fun x => x.eng == some e

/-- A window, or the move of an instance, still holds engine `e` back. -/
def State.heldBy (s : State) (e : Nat) : Bool :=
  s.eng.insts.any fun x =>
    match x.2 with
    | none => false
    | some v => v.wins.any (fun w => w.eng == e) || (v.moving && v.from_ == some e)

/-- ACTIVE and SPARE follow the placement; a suspect engine without work begins its self-test. -/
def State.settleEngine (s : State) (e : Nat) : State :=
  let v := s.engine e
  match v.st with
  | .active => if (s.carried e).isEmpty then (s.setEngSt e .spare).replace else s
  | .spare => if (s.carried e).isEmpty then s else s.setEngSt e .active
  | .suspect =>
    if s.heldBy e then s
    else (s.setEngine e { v with testAt := s.tb }).setEngSt e .testing
  | _ => s

def State.settle (s : State) : State :=
  let s1 := (List.range 8).foldl State.settleEngine s
  ((List.range 8).foldl State.settleEngine s1).autoJoin

/-- R119: without a comparator every P0 and P1 instance goes to SAFE and no window commits. -/
def State.noJudge (s : State) : State :=
  if s.judging then s
  else
    (s.items true).foldl (fun acc x =>
      let st := decide (1024 ≤ x.key)
      match acc.inst st x.num, acc.instImg st x.num with
      | some v, some i =>
        let resets := v.wins.flatMap Window.resets ++ v.resets
        (acc.setInst st x.num (some { v with wins := [], resets := resets })).toSafe st i
      | _, _ => acc) s

/-- A comparator is retired (R117, R118). -/
def State.retireCmp (s : State) (q : Side) : State :=
  if s.cmp q = .retired then s
  else
    ((((s.setCmp q .retired).retireBit (8 + sideNat q)).record 0x0703 2
      [BitVec.ofNat 8 (sideNat q), 2#8]).noJudge)

/-- R117: a disagreement is charged to a comparator. -/
def State.chargeCmp (s : State) (q : Side) : State :=
  let l := s.pwr.opsec :: within24h (match q with | .a => s.eng.disA | .b => s.eng.disB) s.pwr.opsec
  let s1 := match q with
    | .a => { s with eng := { s.eng with disA := l } }
    | .b => { s with eng := { s.eng with disB := l } }
  let s2 := s1.record 0x0703 2 [BitVec.ofNat 8 (sideNat q), 1#8]
  if l.length < 3 then s2 else s2.retireCmp q

/-- An engine is never used again (R129, R384). -/
def State.retireEngine (s : State) (e : Nat) : State :=
  let s1 := s.setEngine e { s.engine e with halted := false, breaks := [] }
  (((s1.setEngSt e .retired).retireBit e).redistribute).settle

/-- The device announces its taint to its peers (R373). -/
def State.announce (s : State) : State := { s with lnk := { s.lnk with lsaDue := true } }

/-- Record TAINT: 0 attach, 1 detach, 2 join, 3 detach by seal. -/
def State.taintRecord (s : State) (e event : Nat) : State :=
  s.record 0x0705 2 [BitVec.ofNat 8 (b2n s.eng.taint), BitVec.ofNat 8 e, BitVec.ofNat 8 event]

/-- R137: a join that succeeds clears the engine's taint, and the device's where none is left. -/
def State.joinTaint (s : State) (e : Nat) : State :=
  let v := s.engine e
  if !v.tainted then s
  else
    let s1 := s.setEngine e { v with tainted := false }
    let left := (List.range 8).any fun k => (s1.engine k).tainted
    if left || s1.eng.attached.isSome then s1
    else
      (({ s1 with eng := { s1.eng with taint := false } }).taintRecord e 2).announce

/-! ### Split (R134) and drain -/

/-- A migration is in progress (Table 5.4): a record is being moved, or an engine is suspect or
draining. -/
def State.migrating (s : State) : Bool :=
  s.eng.insts.any (fun x => (x.2.map Inst.moving).getD false) ||
    (List.range 8).any fun e => (s.engine e).st == .suspect || (s.engine e).st == .draining

/-- Every instance of the running image on engine `e` fits elsewhere with the spare policy still met. -/
def State.splitFits (s : State) (e : Nat) (staged : Bool) : Bool :=
  let engs := s.inService.filter fun x => x != e
  let its := s.items staged
  let p := planAt engs its 0
  let its' := its.map fun x =>
    match p.place.find? fun r => r.1 == x.key with
    | some r => { x with eng := some r.2 }
    | none => x
  decide (s.eng.thresh = 0) && p.ok && decide (s.policy ≤ coverageOf engs its')

/-- One P2 instance starts on engine `e` while its load and number still fit. -/
def takeP2 (e : Nat) (acc : State × Nat × Nat) (i : InstImg) : State × Nat × Nat :=
  match acc.1.inst false i.num with
  | none => acc
  | some v =>
    if acc.2.1 + i.load ≤ fullBudget ∧ acc.2.2 < 128 then
      let f := acc.1.startFn i
      let s1 := acc.1.setInst false i.num (some
        { v with engine := some e, status := 0, st := f, safe := false, wins := [],
                 started := false, moving := false, hold := none, spec := none, lastHash := none,
                 began := acc.1.tb })
      ((s1.logicRecord false i v.st f).dropTimers false i.num, acc.2.1 + i.load, acc.2.2 + 1)
    else acc

/-- The P2 instances whose home is engine `e` start on it, in ascending number while they fit (R134,
R423). -/
def State.startP2 (s : State) (e : Nat) : State :=
  match s.img false with
  | none => s
  | some m =>
    ((m.insts.filter fun i => i.prio == 2 && i.home == e).foldl (takeP2 e) (s, 0, 0)).1

end Sys2Proof.Machine
end

