-- ==== Sys2Proof/Machine/Snapshots.lean ====
section
/-! DEFINITION. What a window's snapshot holds (R15, R16, R110, R141, R146, R192, R195). -/

namespace Sys2Proof.Machine

/-- Reading of a function input at the present tick. -/
def State.inVal (s : State) (st : Bool) (i : InstImg) (v : Inst) : Source → InVal
  | .input n =>
    let f := s.formBefore n
    if !f.invalid then { v := f.v, valid := true }
    else
      match f.held i.ride s.tb v.began with
      | some b => { v := b, valid := true }
      | none => { v := false, valid := false }
  | .inst j o => { v := s.instOutBefore st j o, valid := true }
  | .conn k b => { v := if i.prio = 2 then s.connBitP2 st k b else s.connBitBefore st k b, valid := true }
  | .latch r l => { v := s.latchAs st r l true, valid := true }
  | _ => { v := false, valid := false }

/-- A channel as it stood before the present tick. -/
def State.chanBefore (s : State) (n : Nat) : Chan :=
  Tab.get .start (if s.cnv.wroteAt = s.tb then s.cnv.chansWas else s.cnv.chans) n

/-- The range window of R164 by the range of Table 7.1. -/
def rangeWindow (range : Nat) (v : Int) : Bool :=
  match range with
  | 0 => decide (-26250 ≤ v ∧ v ≤ 26250)
  | 1 => decide (4500 ≤ v ∧ v ≤ 26250)
  | _ => true

def State.chanVal (s : State) (n : Nat) : ChanVal :=
  let c := s.chanBefore n
  { counts := c.last, openW := c.owL, bad := c.stale || !(s.calRec n).good || c.lastAt.isNone,
    inRange := rangeWindow (bf (s.chImg n).cfg 31 30) c.last, tick := c.lastAt.getD 0 }

/-- A counter, or 128 + pair, as it stood before the present tick. -/
def State.cntBefore (s : State) (m : Nat) : CntForm :=
  Tab.get .start (if s.lgc.formedAt = s.tb then s.lgc.cntsWas else s.lgc.cnts) m

def State.cntSigned (s : State) (m : Nat) : Int :=
  sgn 32 ((s.presented (s.cntBefore m)).getD 0).toNat

/-- The next `n` binary places of the angle of (x, y) as a fraction of a quadrant, and whether nothing is
left beyond them: squaring the vector doubles its angle, and a quadrant that it passes is one place. -/
def angleBits : Nat → Int → Int → Nat × Bool
  | 0, _, y => (0, y == 0)
  | n + 1, x, y =>
    let u := x * x - y * y
    let v := 2 * x * y
    let r := if 0 < u then angleBits n u v else angleBits n v (-u)
    (r.1 + (if 0 < u then 0 else 2 ^ n), r.2)

/-- Angle of a vector within its quadrant in 1/256, 0 to 256, 0 on the axis where the quadrant begins; the
rounding between two steps is open. -/
def fraction (a b : Nat) : Nat :=
  if a = 0 then 0
  else
    let r := angleBits 8 b a
    if !r.2 && Config.angleUp a b then r.1 + 1 else r.1

/-- atan2(sin, cos) in 1/1,024 of a period, 0 to 1,023. -/
def angle (sin cos : Int) : Nat :=
  let a := sin.natAbs
  let b := cos.natAbs
  if 0 ≤ sin ∧ 0 < cos then fraction a b
  else if 0 < sin ∧ cos ≤ 0 then 256 + fraction b a
  else if sin ≤ 0 ∧ cos < 0 then 512 + fraction a b
  else if sin < 0 then (768 + fraction b a) % 1024
  else 0

/-- Raw position of a sin/cos pair: the angle in the period that lies nearest to the count; none where
count and angle are two quadrants apart. -/
def scRaw (count : Int) (f : Nat) : Option Int :=
  let q := (count % 4).toNat
  let a := f / 256
  let base := count / 4 * 1024
  if a = q then some (base + f)
  else if (a + 2) % 4 = q then none
  else if q = 3 ∧ a = 0 then some (base + 1024 + f)
  else if q = 0 ∧ a = 3 then some (base - 1024 + f)
  else some (base + f)

def SrcVal.of (kind : Nat) (raw : Int) (tick : Nat) (c : CntForm) (bad lost : Bool) (epoch period : Nat) :
    SrcVal :=
  { kind := kind, raw := raw, tick := tick, va := c.va, vb := c.vb, wraps := c.wraps, period := period,
     bad := bad, lostRef := bad && lost,
    epoch := epoch }

/-- One source of an axis (Tables 8.1 and 8.2). -/
def State.srcVal (s : State) (b : SrcBlk) : SrcVal :=
  match b.kind with
  | 1 =>
    let c := s.cntBefore (128 + b.index)
    let x := s.chanVal (2 * b.index)
    let y := s.chanVal (2 * b.index + 1)
    let n := if b.dirinv then -(s.cntSigned (128 + b.index)) else s.cntSigned (128 + b.index)
    let m2 := x.counts * x.counts + y.counts * y.counts
    let raw := scRaw n (angle x.counts y.counts)
    let bad := x.openW || x.bad || y.openW || y.bad || c.invalid || c.qerr || raw.isNone ||
      !decide (8750 * 8750 ≤ m2 ∧ m2 ≤ 17500 * 17500)
    let r := raw.getD 0
    .of 1 (if b.dirinv then -r else r) (max x.tick y.tick) c bad true c.epoch 0
  | 2 =>
    let c := s.cntBefore b.index
    .of 2 (if b.dirinv then -(s.cntSigned b.index) else s.cntSigned b.index) c.tick c (c.invalid || c.qerr || c.excess) true c.epoch 0
  | 3 =>
    let c := s.cntBefore b.index
    let p := ((s.presented c).getD 0).toNat
    let stopped := p == 0xFFFFFFFF
    .of 3 0 c.tick c (c.invalid || c.excess) false c.epoch (if stopped then 0 else p)
  | 4 =>
    let x := s.chanVal b.index
    .of 4 x.counts x.tick .start (x.openW || x.bad || !x.inRange) false s.fld.epoch 0
  | _ => .none

def InstImg.axisOf (m : Image) (i : InstImg) : AxisImg :=
  if 0x20 ≤ i.type then (m.axes.find? fun a => a.axis == i.parN 0x80 0 0).getD .none else .none

/-- Field outputs whose engine source is output `o` of instance `i` (FLD_OSRCB). -/
def Image.drivenBy (m : Image) (i o : Nat) : List Nat :=
  (List.range 64).filter fun k =>
    bitOf (m.ow k) 31 && bitOf (m.ow k) 25 && bf (m.ob k) 25 16 == i && bf (m.ob k) 3 0 == o

/-- An output as it stood before the present tick. -/
def State.outBefore (s : State) (k : Nat) : OutForm :=
  Tab.get .start (if s.lgc.formedAt = s.tb then s.lgc.outsWas else s.lgc.outs) k

/-- R152: a field output that the primary output drives is FAULTED. -/
def State.outFault (s : State) (m : Image) (i : Nat) : Bool :=
  (m.drivenBy i 0).any fun k => decide ((s.outBefore k).cause ≠ 0)

/-- R166: the path of release output `o` is usable. -/
def State.pathOk (s : State) (m : Image) (i o : Nat) : Bool :=
  (m.drivenBy i o).all fun k =>
    let f := s.outBefore k
    decide (f.cause = 0) && f.line != 1 && f.line != 2

/-- The snapshot of an instance at the present tick (R109, R110). -/
def State.snapshot (s : State) (st : Bool) (m : Image) (i : InstImg) (v : Inst) : Snap :=
  let ax := i.axisOf m
  let chanOf (n : Nat) : List ChanVal :=
    match i.bound n with
    | some (.channel c) => [s.chanVal c]
    | _ => []
  { tick := s.tb
    ins := (i.binds.filter fun b => match b.source with | .channel _ => false | _ => true).map fun b =>
      (b.input, s.inVal st i v b.source)
    chans := if i.type = 0x0D then chanOf 0 ++ chanOf 1 else []
    src1 := s.srcVal ax.src1
    src2 := s.srcVal ax.src2
    outFault := s.outFault m i.num
    pathA := s.pathOk m i.num 0
    pathB := s.pathOk m i.num 1
    reset := !v.resets.isEmpty
    opsec := if i.type = 0x27 then s.pwr.opsec else 0 }

def b2i (b : Bool) : Int := if b then 1 else 0

def SrcVal.key (v : SrcVal) : List Int :=
  [(v.kind : Int), v.raw, (v.tick : Int), (v.va.toNat : Int), (v.vb.toNat : Int), (v.wraps : Int), (v.period : Int), b2i v.bad, b2i v.lostRef, (v.epoch : Int)]

/-- The values of a snapshot, without its tick, as one list; the operating seconds are among them (DESIGN
CHOICE, log 16: no rule says whether they enter the hash). -/
def snapKey (x : Snap) : List Int :=
  (x.ins.length : Int) :: x.ins.flatMap (fun e => [(e.1 : Int), b2i e.2.v, b2i e.2.valid]) ++
    x.chans.flatMap (fun c => [c.counts, b2i c.openW, b2i c.bad, b2i c.inRange, (c.tick : Int)]) ++
    x.src1.key ++ x.src2.key ++ [b2i x.outFault, b2i x.pathA, b2i x.pathB, b2i x.reset, (x.opsec : Int)]

/-- The snapshot as native data, and as pass B takes it, coded (R109, R112). -/
def snapWords (x : Snap) : List Word := (snapKey x).flatMap native
def snapCoded (x : Snap) : List Coded := (snapWords x).map anEncode

/-- h of R109. -/
def snapHash (x : Snap) : Nat := crc32c (Config.snapshotBytes (snapWords x))

/-! ### Ownership of counters (R79, R195) -/

/-- The instance of the running image that owns counter `m`, or pair `m` − 128: the lowest motion
instance on the counter's owning engine of the image whose axis names it. -/
def State.counterOwner (s : State) (m : Nat) : Option InstImg :=
  match s.img false with
  | none => none
  | some im =>
    im.insts.find? fun i =>
      let ax := i.axisOf im
      let reads (b : SrcBlk) : Bool :=
        if m < 128 then (b.kind == 2 || b.kind == 3) && b.index == m
        else b.kind == 1 && b.index + 128 == m
      decide (0x20 ≤ i.type) && (reads ax.src1 || reads ax.src2) &&
        (decide (128 ≤ m) || bf (nth im.ccfg m 0) 15 12 == i.home)

/-- The configuration word of counter `m` with its OWNER as it stands: the engine that now carries the
owning motion instance (R195), else what the image says (`w`). -/
def State.ownedWord (s : State) (m : Nat) (w : Word) : Word :=
  match (s.counterOwner m).bind fun i => (Tab.get none s.eng.insts i.num).bind Inst.engine with
  | some e => (w &&& 0xFFFF0FFF#32) ||| mkWord [(e, 12)]
  | none => w

/-- Flags that the snapshot shows to the owner of the counters of its axis. -/
def State.flagsShown (s : State) (st : Bool) (m : Image) (i : InstImg) : List Nat :=
  if st then []
  else
    let ax := i.axisOf m
    let keys (b : SrcBlk) : List Nat :=
      match b.kind with
      | 1 => [128 + b.index]
      | 2 | 3 => [b.index]
      | _ => []
    (keys ax.src1 ++ keys ax.src2).filter fun k =>
      let c := s.cntBefore k
      (c.qerr || c.excess) && ((s.counterOwner k).map fun x => x.num) == some i.num

/-- A flag that has been cleared is not new again until the sequencer has taken the clear (R79). -/
def FlagsIn.cover (f : FlagsIn) (c : FlagClear) : FlagsIn :=
  { f with wrap := f.wrap || c.wrap, qerr := f.qerr || c.qerr, excess := f.excess || c.excess }

/-- The owner clears flags of a counter or pair: on the logic side, and with the next downlink frame in both
sequencers (R79; DEDUCED, log 30). -/
def State.clearFlags (s : State) (f : FlagClear) : State :=
  let c := s.cform f.num
  let c1 := { c with wrap := c.wrap && !f.wrap, qerr := c.qerr && !f.qerr, excess := c.excess && !f.excess,
                     seenA := c.seenA.cover f, seenB := c.seenB.cover f }
  { s with lgc := { s.lgc with cnts := Tab.set .start s.lgc.cnts f.num c1, fclr := s.lgc.fclr ++ [f] } }

/-! ### Trip masks (R124, R211) -/

/-- Instances that read an output of one of `l`; `primary`: the primary output alone. -/
def Image.readers (m : Image) (l : List Nat) (primary : Bool) : List Nat :=
  (m.insts.filter fun i => i.binds.any fun b =>
    match b.source with
    | .inst j o => (!primary || o == 0) && l.contains j
    | _ => false).map InstImg.num

/-- `l` and all that read an output of it directly or through a chain. -/
def Image.chainFrom (m : Image) : Nat → List Nat → List Nat
  | 0, l => l
  | k + 1, l =>
    let more := (m.readers l false).filter fun j => !l.contains j
    if more.isEmpty then l else m.chainFrom k (l ++ more.eraseDups)

/-- Outputs named by the mask of an owner (R124): those fed by its primary output, or by any output of
an instance that reads it through a chain. -/
def Image.maskOf (m : Image) (i : Nat) : Long :=
  let ch := (m.chainFrom m.insts.length (m.readers [i] true).eraseDups).filter fun j => j != i
  mask64 fun k =>
    bitOf (m.ow k) 31 && bitOf (m.ow k) 25 &&
      ((bf (m.ob k) 25 16 == i && bf (m.ob k) 3 0 == 0) || ch.contains (bf (m.ob k) 25 16))

/-- The mask that a commit publishes for each trigger it owns. -/
def maskFor (m : Image) (i : InstImg) (st : FnSt) : Long :=
  if 0x20 ≤ i.type then
    if (st.motion.map MotionSt.arm).getD false then
      let lo := twos 32 (i.par 0xA0 0 0)
      let hi := twos 32 (i.par 0xA1 0 0)
      m.maskOf i.num ||| BitVec.ofNat 64 (hi * 2 ^ 32 + lo)
    else 0
  else if st.logic = 0 then m.maskOf i.num else 0

/-- Triggers of an image that instance `i` owns. -/
def Image.owned (m : Image) (i : Nat) : List Nat :=
  (List.range m.trigs.length).filter fun t =>
    match m.trigs[t]? with
    | some x => bf x.word 31 28 != 0 && bf x.word 25 16 == i
    | none => false

/-- R126: the lasting condition of a trigger. -/
def State.condition (s : State) (x : TrigImg) : Bool :=
  match bf x.word 31 28 with
  | 1 => (s.chan (bf x.word 7 0)).outL
  | 2 =>
    let c := s.cform (bf x.word 7 0)
    x.holds c.va || x.holds c.vb
  | _ => false

end Sys2Proof.Machine
end

