-- ==== Sys2Proof/Machine/Engines.lean ====
section
/-! DEFINITION. The commands of the evaluation engines: window starts, commits and failures,
migrations, self-tests (chapter 5). -/

namespace Sys2Proof.Machine

/-- 50 µs in ticks: the allowance of R108 for the commit. -/
def commitSlack : Nat := 10000

/-- Commit deadline of the window after one that started at `t` (R127). -/
def holdDeadlineOf (i : InstImg) (t : Nat) : Nat := t + 2 * i.ticks + commitSlack

/-! ### Failing windows (R117, R127) -/

/-- Starts the hold of an instance, or sends it to SAFE (R26, R127 step 2). -/
def State.holdOrSafe (s : State) (st : Bool) (i : InstImg) (t : Nat) (record : Bool) : State :=
  match s.inst st i.num with
  | none => s
  | some v =>
    if v.safe then s
    else if i.holdw && record then
      s.setInst st i.num (some { v with hold := some (v.hold.getD (holdDeadlineOf i t)) })
    else s.toSafe st i

/-- Counters of ENG_FAULT. -/
def Engine.count (v : Engine) (cause : Nat) : Engine :=
  { v with failed := satAdd 0xFFFF v.failed 1
           code := if cause = 1 then satAdd 0xFF v.code 1 else v.code
           dreg := if cause = 2 then satAdd 0xF v.dreg 1 else v.dreg
           overrun := if cause = 3 then satAdd 0xF v.overrun 1 else v.overrun }

/-- Record WINDOW. -/
def State.windowRecord (s : State) (st : Bool) (i : InstImg) (w : Window) (cause : Nat) : State :=
  s.record 0x0701 2 ([BitVec.ofNat 8 w.eng] ++ be16 i.num ++ [BitVec.ofNat 8 cause] ++
    be32 (w.start / i.ticks % 2 ^ 32) ++ wordBytes s.engSpeed) st

/-- R127 step 3: the engine of a failed window is suspect; a drain ends, and with it an attach that has not
reached DEBUG (Table 5.4). Every failed window charges once the self-test has passed (R117). -/
def State.suspectEngine (s : State) (e : Nat) (c : Charge) : State :=
  let v := s.engine e
  match v.st with
  | .suspect =>
    let why := match v.why with
      | .window l => TestWhy.window (l ++ [c])
      | _ => .window [c]
    s.setEngine e { v with why := why }
  | .active | .spare | .draining =>
    let s1 := if v.st = .draining then s.finish v.drainOp stFault else s
    let s2 := { s1 with eng := { s1.eng with attached := s1.eng.attached.filter fun x => x != e } }
    (s2.setEngine e { v with why := .window [c], drainOp := 0, forDebug := false }).setEngSt e .suspect
  | _ => s

/-- What every failed window of an instance does to it (R127 steps 1 and 2). -/
def State.loseWindow (s : State) (st : Bool) (i : InstImg) (w : Window) (cause : Nat) : State :=
  match s.inst st i.num with
  | none => s
  | some v =>
    let resets := v.wins.flatMap Window.resets ++ v.resets
    let s1 := s.setInst st i.num (some { v with wins := [], spec := none, resets := resets })
    let s2 := s1.windowRecord st i w cause
    s2.holdOrSafe st i w.start (v.ckpt.isSome && s2.ckmOk v.ckIn)

/-- A failed window (R127). -/
def State.failWindow (s : State) (st : Bool) (i : InstImg) (w : Window) (cause : Nat) (c : Charge) :
    State :=
  let s1 := s.setEngine w.eng ((s.engine w.eng).count cause)
  let s2 := s1.loseWindow st i w cause
  (((s2.suspectEngine w.eng c).redistribute).settle)

/-- A failed window is counted for its engine and recorded (R422). -/
def State.countLost (s : State) (st : Bool) (i : InstImg) (w : Window) : State :=
  (s.setEngine w.eng ((s.engine w.eng).count 5)).windowRecord st i w 5

/-- R422: every window in progress on the engines `lost` fails with cause 5; the hold runs from the oldest
one's start. -/
def State.loseEngines (s : State) (lost : List Nat) : State :=
  s.eng.insts.foldl (fun acc x =>
    let st := decide (1024 ≤ x.1)
    match acc.inst st (x.1 % 1024), acc.instImg st (x.1 % 1024) with
    | some v, some i =>
      match v.wins.filter fun w => lost.contains w.eng with
      | w :: ws =>
        let s1 := acc.setEngine w.eng ((acc.engine w.eng).count 5)
        ws.foldl (fun acc x => acc.countLost st i x) (s1.loseWindow st i w 5)
      | [] => acc
    | _, _ => acc) s

/-! ### Window start (R107, R109, R110) -/

/-- The engine on which an instance begins a window now, if it can. -/
def State.startsOn (s : State) (i : InstImg) (v : Inst) : Option Nat :=
  if i.prio = 2 then
    match v.engine with
    | some e => if (s.engine e).st = .split then some e else none
    | none => none
  else if v.moving then
    match v.from_ with
    | some e => if (s.engine e).st = .draining then some e else none
    | none => none
  else
    match v.engine with
    | some e => if s.inService.contains e then some e else none
    | none => none

/-- A window of an instance starts at the present tick, where it is its time (R109). -/
def State.beginWindow (s : State) (staged : Bool) (i : Nat) : State :=
    match s.img staged, s.instImg staged i, s.inst staged i with
    | some m, some im, some v =>
      let again := match v.wins.getLast? with
        | some w => w.start == s.tb
        | none => v.started && v.lastWin == s.tb / im.ticks
      if !s.ticking || decide (s.pwr.step < 8) || s.tb % im.ticks != 0 || again || decide (2 ≤ v.wins.length) ||
          (im.prio != 2 && !s.judging) then s
      else
        match s.startsOn im v with
        | none => if v.moving then s.holdOrSafe staged im s.tb true else s
        | some e =>
          let x := s.snapshot staged m im v
          let h := snapHash x
          let s1 := s.runUnit e fun c => c.payload 3#2 (Config.snapshotBytes (snapWords x))
          let kept := if (s1.unit e).fault then none else (v.spec.filter fun p => p.1 == h).map Prod.snd
          let hit := kept.isSome
          let g := s1.engine e
          let g1 := if hit then { g with hits := (g.hits + 1) % 2 ^ 32 }
            else { g with misses := (g.misses + 1) % 2 ^ 32 }
          let w : Window := { start := s.tb, snap := x, resets := v.resets, eng := e,
                              flags := s.flagsShown staged m im, passA := kept }
          (s1.setEngine e g1).setInst staged i (some
            { v with wins := v.wins ++ [w], resets := [], spec := none })
    | _, _, _ => s

/-! ### Commit (R111, R114 to R118) -/

/-- What a signature covers (R114). -/
def signed (i win : Nat) (writes : List (Word × Word)) : List Byte :=
  be16 i ++ be32 (win % 2 ^ 32) ++ writes.flatMap fun e => wordBytes e.1 ++ wordBytes e.2

/-- The signature of a pass (R114). -/
def signature (i : Nat) (win : Nat) (writes : List (Word × Word)) : Nat := crc32c (signed i win writes)

/-- Pass A of window `n` is complete: its writes are staged, and its signature waits in the delay register,
one rail the inverse of the other (R111, R115). -/
def PassA.of (i n : Nat) (writes : List (Word × Word)) : PassA :=
  let sa := BitVec.ofNat 32 (signature i n writes)
  { staged := writes, rail := sa, rail' := ~~~sa, faulty := false }

/-- A fault of the delay register. -/
def PassA.disturbed (p : PassA) (f : PassFault) : PassA :=
  match f with
  | .dreg bit both =>
    let b := BitVec.ofNat 32 (1 <<< bit.val)
    if both then { p with rail := p.rail ||| b, rail' := p.rail' ||| b }
    else { p with rail := p.rail &&& ~~~b, rail' := p.rail' &&& ~~~b }
  | _ => p

/-- Every bit has exactly one of its rails set. -/
def PassA.valid (p : PassA) : Bool := p.rail' == ~~~p.rail

/-- What a comparator answers about a pair: MATCH or not. -/
def cmpAnswer (c : CmpStuck) (same : Bool) : Bool :=
  match c with
  | .ok => same
  | .stuckMatch => true
  | .stuckMismatch => false

/-- The judgement of one signature pair. -/
structure Judged where
  s       : State
  commit  : Bool
  charge  : Charge
  /-- WINDOW cause 4: the comparators disagreed -/
  split   : Bool
  deriving DecidableEq, Repr

/-- R118: a skew test of one comparator. -/
def State.skewTest (s : State) (q : Side) (c : CmpStuck) (same : Bool) : State :=
  if s.cmpOk q && cmpAnswer c same then
    (s.record 0x0703 2 [BitVec.ofNat 8 (sideNat q), 0#8]).retireCmp q
  else s

/-- Judges (sa, sb) for engine `e`, with the skew test where one falls due (R116 to R118). -/
def State.judgePair (s : State) (e sa sb : Nat) (valid : Bool) (ca cb : CmpStuck) : Judged :=
  let g := s.engine e
  let n := match s.img false with
    | some m => bf m.engCmp 24 16
    | none => 64
  let judged := g.judged + 1
  let skew := decide (judged % max n 1 = 0)
  let s0 := s.setEngine e { g with judged := judged, skews := g.skews + b2n skew }
  let s1 :=
    if skew then
      let same := valid && sa == (sb ^^^ 2 ^ (g.skews % 32))
      let t := (s0.skewTest .a ca same).skewTest .b cb same
      { t with eng := { t.eng with skews := (t.eng.skews + 1) % 65536 } }
    else s0
  let a := s1.cmpOk .a
  let b := s1.cmpOk .b
  let ma := cmpAnswer ca (valid && sa == sb)
  let mb := cmpAnswer cb (valid && sa == sb)
  if a && b then
    if ma && mb then { s := s1, commit := valid, charge := .engine, split := false }
    else if ma || mb then
      { s := s1, commit := false, charge := .cmp (if ma then .b else .a), split := true }
    else { s := s1, commit := false, charge := .engine, split := false }
  else
    { s := s1, commit := valid && ((a && ma) || (b && mb)), charge := .engine, split := false }

/-- Publishes the masks of a commit; a trigger that has fired in the same tick latches the new mask too
(R124, R125). -/
def State.publish (s : State) (st : Bool) (m : Image) (i : InstImg) (f : FnSt) : State :=
  let w := maskFor m i f
  (m.owned i.num).foldl (fun acc t =>
    let o := acc.mask st t
    let masks := Tab.set .zero acc.eng.masks (trigKey st t)
      { o with mask := w, prev := if o.tick = acc.tb then o.prev ||| o.mask else o.mask, tick := acc.tb }
    let acc1 := { acc with eng := { acc.eng with masks := masks } }
    if !st && o.fired == some acc.tb && (w &&& ~~~o.mask) != 0 then acc1.latchTrips t (w &&& ~~~o.mask)
    else acc1) s

/-- R126: the releasing commit clears the owner's trip latches; a trigger whose condition holds fires
again where the new mask names outputs. One that has fired in the same tick keeps its latches. -/
def State.releaseTrips (s : State) (m : Image) (i : InstImg) (f : FnSt) : State :=
  if !f.released then s
  else
    let own := (m.owned i.num).filter fun t => (s.mask false t).fired != some s.tb
    let keep (l : List TripLatch) : List TripLatch := l.filter fun x => !own.contains x.trig
    let s1 := { s with lgc := { s.lgc with tripA := keep s.lgc.tripA, tripB := keep s.lgc.tripB } }
    own.foldl (fun acc t =>
      match m.trigs[t]? with
      | some x => if acc.condition x && (acc.mask false t).mask != 0 then acc.fire t else acc
      | none => acc) s1

/-- Records that the committed evaluation calls for (R208, R212). -/
def State.noteRecords (s : State) (st : Bool) (i : InstImg) (f : FnSt) : State :=
  f.notes.foldl (fun acc n =>
    match n with
    | .brakeTest failed dev =>
      acc.record 0x0803 (if failed then 4 else 1)
        (be16 i.num ++ [BitVec.ofNat 8 (b2n failed)] ++ be32 dev) st
    | .ignored k => acc.record 0x0804 1 (be16 i.num ++ [BitVec.ofNat 8 k]) st) s

/-- Sinks of a committed FUNCTION_RESET (R148). -/
def State.endResets (s : State) (w : Window) (took : Bool) : State :=
  w.resets.foldl (fun acc op => acc.finish op (if took then stOk else stState)) s

/-- What pass A has staged: what the rules give, or, where it went wrong, what its writes spell (R111). -/
def staged (f : FnSt) (p : PassA) (fault : PassFault) : FnSt :=
  if fault = .wrong then Config.spelled p.staged f else f

/-- The commit of window `w` of an instance: what its pass A has staged becomes state and outputs (R111,
R120). -/
def State.commitWindow (s : State) (st : Bool) (m : Image) (i : InstImg) (v : Inst) (w : Window)
    (p : PassA) (fault : PassFault) : State :=
  let f := staged (fnStep i (i.axisOf m) w.snap v.st) p fault
  let n := w.start / i.ticks
  let saved := s.ckmFor w.eng && i.prio != 2
  let s0 := if saved then s.checkFree w.eng else s
  let s1 := s0.setInst st i.num (some
    { v with st := f, wins := v.wins.drop 1, status := 0, started := true,
             lastHash := some (snapHash w.snap), lastWin := n, lastAt := s.tb,
             prevOuts := if v.safe then 0 else v.st.outs, hold := none, safe := false,
             ckpt := if saved then some (f, n) else none, ckIn := otherSide (engSide w.eng),
             ckBad := saved && (s0.unit w.eng).fault,
             from_ := if v.engine = some w.eng then none else v.from_,
             left := if v.left = some w.eng then v.left else none })
  let s2 := w.flags.foldl (fun acc k => acc.clearFlags { num := k, wrap := false, qerr := true, excess := true }) s1
  let s3 := s2.publish st m i f
  let s4 := if st then s3 else s3.releaseTrips m i f
  let s5 := (s4.logicRecord st i v.st f).noteRecords st i f
  (s5.endResets w f.took).seeDiffer

/-- The engine's unit computes the signature of a pass, whose INIT is made already: whether it is in FAULT (R113,
R303). -/
def State.passUnit (s : State) (e : Nat) (bytes : List Byte) : State × Bool :=
  if (s.unit e).fault then (s, true)
  else
    let s1 := s.runUnit e fun c => c.payload 3#2 bytes
    (s1, (s1.unit e).fault)

/-- OWNER of flat channel `n` in the image (Table 7.8). -/
def Image.chanOwner (m : Image) (n : Nat) : Option Nat :=
  (m.convs.find? fun x => x.conv == n / 8).map fun x =>
    bf (nth x.chans (n % 8) { cfg := 0, band := 0, par := 0 }).cfg 27 24

/-- R173: the urgent requests that an instance on engine `e` issues for channels of its engine wait in
order of issue; those of one tick in ascending engine number. -/
def State.askUrgent (s : State) (st : Bool) (m : Image) (e : Nat) (ask : List (Fin 32)) : State :=
  if st then s
  else
    let new := (ask.filter fun c => m.chanOwner c.val == some e).map fun c =>
      ({ tick := s.tb, eng := e, conv := c.val / 8, ch := c.val % 8 } : UrgAsk)
    let first (x : UrgAsk) : Bool := decide (x.tick < s.tb) || decide (x.eng ≤ e)
    { s with lgc := { s.lgc with
        urg := s.lgc.urg.filter first ++ new ++ s.lgc.urg.filter fun x => !first x } }

/-- COMMIT: the oldest window of an instance is judged: pass A's writes, unless a run-ahead has given them,
pass B's writes, computed on the coded snapshot, the urgent conversions that the instance asks for, a fault of the passes, and
comparators that answer of themselves. With no comparator left nothing commits and R119 applies (R109,
R113 to R119). -/
def execCommit (staged : Bool) (i : Fin 1024) (wA : List (Word × Word)) (wB : List (Word × PassB))
    (ask : List (Fin 32)) (fault : PassFault) (stuckA stuckB : CmpStuck) (s : State) : Host.Outcome State Fault Refusal :=
  .next <|
    match s.img staged, s.instImg staged i.val, s.inst staged i.val with
    | some m, some im, some v =>
      match v.wins with
      | [] => s
      | w :: _ =>
        let n := w.start / im.ticks
        let p := (w.passA.getD (PassA.of i.val n wA)).disturbed fault
        if !s.alive || decide (w.start + im.ticks + commitSlack < s.tb) then s
        else if im.prio = 2 then
          ((s.commitWindow staged m im v w p fault).askUrgent staged m w.eng ask).settle
        else if !s.judging then s
        else if !p.valid then s.failWindow staged im w 2 .engine
        else
          let dec := decodeWrites (snapCoded w.snap) wB
          let r := s.passUnit w.eng (signed i.val n (dec.getD []))
          let code := decide (fault = .code) || dec.isNone || p.faulty || r.2
          let j := r.1.judgePair w.eng p.rail.toNat (signature i.val n (dec.getD [])) (!code)
            stuckA stuckB
          if j.commit then
            match j.s.inst staged i.val with
            | some v1 =>
              ((j.s.commitWindow staged m im v1 w p fault).askUrgent staged m w.eng ask).settle
            | none => j.s
          else if !j.s.judging then j.s
          else
            let cause := if code then 1 else if j.split then 4 else 0
            j.s.failWindow staged im w cause (if code then .engine else j.charge)
    | _, _, _ => s

/-- OVERRUN: pass B of the oldest window is incomplete at the end of its window (R127). P2 work has no pass B
and never overruns; one of its windows that misses R108's bound stays until its engine is joined (DESIGN
CHOICE, log 44). -/
def execOverrun (staged : Bool) (i : Fin 1024) (s : State) : Host.Outcome State Fault Refusal :=
  .next <|
    match s.instImg staged i.val, s.inst staged i.val with
    | some im, some v =>
      match v.wins with
      | [] => s
      | w :: _ =>
        if !s.alive || im.prio == 2 || decide (s.tb < w.start + im.ticks) then s
        else s.failWindow staged im w 3 .engine
    | _, _ => s

/-- HOLD_DEADLINE: the hold of an instance passes without a commit (R127). -/
def execHoldDeadline (staged : Bool) (i : Fin 1024) (s : State) : Host.Outcome State Fault Refusal :=
  .next <|
    match s.instImg staged i.val, s.inst staged i.val with
    | some im, some v =>
      match v.hold with
      | some t => if s.alive && decide (t ≤ s.tb) then s.toSafe staged im else s
      | none => s
    | _, _ => s

/-- A window of some instance is in progress on engine `e`: it has a job ready. -/
def State.busyEngine (s : State) (e : Nat) : Bool :=
  s.eng.insts.any fun x => (x.2.map fun v => v.wins.any fun w => w.eng == e).getD false

/-- RUN_AHEAD: pass A of the next window is complete, with its writes, on the snapshot of the window
committed last, while the engine has no other job ready (R121). -/
def execRunAhead (staged : Bool) (a : Ahead) (s : State) : Host.Outcome State Fault Refusal :=
  .next <|
    match s.instImg staged a.inst.val, s.inst staged a.inst.val with
    | some im, some v =>
      if !s.alive || v.moving || !v.wins.isEmpty || !v.started || im.prio == 2 then s
      else
        match v.engine.filter fun e => s.inService.contains e && !s.busyEngine e with
        | none => s
        | some e =>
          let r := s.passUnit e (signed a.inst.val (v.lastWin + 1) a.writes)
          r.1.setInst staged a.inst.val (some
            { v with spec := v.lastHash.map fun h =>
                (h, { PassA.of a.inst.val (v.lastWin + 1) a.writes with faulty := r.2 }) })
    | _, _ => s

/-- The instance starts on its engine from its parameters (R120, R143). -/
def State.fromParameters (s : State) (st : Bool) (i : InstImg) : State :=
  match s.inst st i.num with
  | none => s
  | some v =>
    let f := s.startFn i
    let s1 := s.setInst st i.num (some
      { v with st := f, ckpt := none, hold := none, safe := true, started := false, spec := none,
               lastHash := none, began := s.tb, moving := false })
    let s2 := (s1.logicRecord st i v.st f).dropTimers st i.num
    if st then s2.restartClock else s2

/-- Tick of the next window start of an instance. -/
def State.nextStart (s : State) (i : InstImg) : Nat := (s.tb / i.ticks + 1) * i.ticks

/-- Another record that can move now belongs to an instance whose next window starts earlier (R128). -/
def State.movesLater (s : State) (i : InstImg) : Bool :=
  s.eng.insts.any fun x =>
    match x.2, s.instImg (decide (1024 ≤ x.1)) (x.1 % 1024) with
    | some v, some j =>
      v.moving && v.wins.isEmpty && (v.engine.map s.inService.contains).getD false &&
        decide (s.nextStart j < s.nextStart i)
    | _, _ => false

/-- MIGRATION: the checkpoint record of an instance has reached its engine, in the order of the next window
starts (R128), whose unit checks it (R303); `crcOk`: its CRC holds (R120). Logic state, timers and pending events are those of the record;
where the hold has been lost the outputs have fallen (R127, R143; DEDUCED, log 46). -/
def execMigration (staged : Bool) (i : Fin 1024) (crcOk : Bool) (s : State) :
    Host.Outcome State Fault Refusal :=
  .next <|
    match s.instImg staged i.val, s.inst staged i.val with
    | some im, some v =>
      if !s.alive || !v.moving || !v.wins.isEmpty then s
      else if !(v.engine.map s.inService.contains).getD false || s.movesLater im then s
      else
        match v.restore, v.ckpt with
        | true, some c =>
          let u := v.engine.getD 0
          let t := s.checkFree u
          if crcOk && !v.ckBad && !(t.unit u).fault && s.ckmOk v.ckIn then
            (t.setInst staged i.val (some
              { v with st := if v.safe then c.1.fallen im s.tb else c.1, lastWin := c.2,
                       moving := false })).settle
          else
            (((t.record 0x0706 3 (be16 i.val) staged).toSafe staged im).fromParameters
              staged im).settle
        | _, _ => (s.fromParameters staged im).settle
    | _, _ => s

/-- R117: one failed window is charged to its engine as a transient, or to a comparator. -/
def State.charge (s : State) (e : Nat) (c : Charge) : State :=
  match c with
  | .engine =>
    let v := s.engine e
    s.setEngine e { v with trans := s.pwr.opsec :: within24h v.trans s.pwr.opsec }
  | .cmp q => s.chargeCmp q
  | .none => s

/-- SELF_TEST_END: the self-test of an engine ends, the known-answer test of its check-value unit with it (R117,
R129, R135, R304). -/
def execSelfTestEnd (e : Fin 8) (r : SelfTest) (s : State) : Host.Outcome State Fault Refusal :=
  .next <|
    let v := s.engine e.val
    if v.st ≠ .testing || !s.powered (engDom (engSide e.val)) then s
    else
      let good := decide (r = .pass) && !(s.unit e.val).failed
      let s := if r = .unit then s.failUnit e.val else s
      let spare (t : State) : State := ((t.setEngSt e.val .spare).replace).settle
      match v.why with
      | .window cs =>
        if !good then s.retireEngine e.val
        else
          let s1 := cs.foldl (fun acc c => acc.charge e.val c) s
          if (s1.engine e.val).trans.length < 3 ∨ cs.contains .engine = false then spare s1
          else s1.retireEngine e.val
      | .join op =>
        if good then (spare (s.joinTaint e.val)).finish op stOk
        else (s.retireEngine e.val).finish op stFault
      | .auto => if good then spare (s.joinTaint e.val) else s.retireEngine e.val

/-- DRAIN_END: at a window boundary every instance of a draining engine has committed elsewhere
(R134, R136). -/
def execDrainEnd (e : Fin 8) (s : State) : Host.Outcome State Fault Refusal :=
  .next <|
    let v := s.engine e.val
    let waits := s.eng.insts.any fun x =>
      match x.2 with
      | none => false
      | some w => w.left == some e.val || w.wins.any fun y => y.eng == e.val
    if v.st ≠ .draining || !s.ticking || s.tb % 50000 != 0 || waits then s
    else
      let s1 := s.setEngine e.val { v with drainOp := 0, forDebug := false }
      if v.forDebug then ((s1.setEngSt e.val .debug).finish v.drainOp stOk).settle
      else (((s1.setEngSt e.val .split).startP2 e.val).finish v.drainOp stOk).settle

/-- A speed reading outside the operating range is recorded (R105). -/
def State.setSpeed (s : State) (q : Side) (v : Nat) : State :=
  let old := match q with | .a => s.eng.speedA | .b => s.eng.speedB
  let s1 := match q with
    | .a => { s with eng := { s.eng with speedA := v } }
    | .b => { s with eng := { s.eng with speedB := v } }
  if v < 180 ∧ 180 ≤ old then s1.record 0x0707 2 ([BitVec.ofNat 8 (sideNat q)] ++ be16 v) else s1

end Sys2Proof.Machine
end

