-- ==== Sys2Proof/Machine/ImageParse.lean ====
section
/-! DEFINITION. Reading a configuration image from the bytes of a slot (R307 to R310, R102, R213, R375,
Tables 15.1 to 15.3 and 16.1). Each section body is read by a function that answers none where its
structure or a code is not one that the manual lists, and is judged for its reserved fields apart. -/

namespace Sys2Proof.Machine

/-! ### Pieces -/

def byteAt (bs : List Byte) (i : Nat) : Nat := (nth bs i 0#8).toNat

/-- `n` bytes from byte `off` are all 0. -/
def zeros (bs : List Byte) (off n : Nat) : Bool := (bytesAt bs off n).all fun b => b == 0#8

/-- `n` records of `size` bytes each. -/
def records (bs : List Byte) (size : Nat) : Nat → List (List Byte)
  | 0 => []
  | n + 1 => bs.take size :: records (bs.drop size) size n

/-- Bits of `w` outside `fields`, each given by its highest and lowest bit, are 0. -/
def onlyIn (w : Word) (fields : List (Nat × Nat)) : Bool :=
  (List.range 32).all fun j => !w.getLsbD j || fields.any fun f => decide (f.2 ≤ j ∧ j ≤ f.1)

/-- Each element is used once. -/
def noRepeat : List Nat → Bool
  | [] => true
  | x :: xs => !xs.contains x && noRepeat xs

/-- Strictly rising. -/
def rising : List Nat → Bool
  | [] => true
  | [_] => true
  | x :: y :: r => decide (x < y) && rising (y :: r)

/-- A list of options as an option of a list. -/
def allSome {α : Type} : List (Option α) → Option (List α)
  | [] => some []
  | none :: _ => none
  | some x :: r => (allSome r).map fun l => x :: l

/-! ### Sections (R307, R308) -/

/-- One section as found. -/
structure Sect where
  no    : Nat
  type  : Nat
  index : Nat
  body  : List Byte
  /-- bytes 0 to 11 of its header, and its check value -/
  head  : List Byte
  crc   : Nat
  deriving DecidableEq, Repr

def Sect.crcOk (x : Sect) : Bool := decide (crc32c (x.head ++ x.body) = x.crc)

/-- Next multiple of 4. -/
def align4 (n : Nat) : Nat := (n + 3) / 4 * 4

/-- Reads sections `no` and on, the next one at byte `off`, none reaching byte `limit`: the sections
and the end of the last one, or the number of the section that does not lie within the image. -/
def readSects (bs : List Byte) (limit : Nat) : Nat → Nat → Nat → Except Nat (List Sect × Nat)
  | 0, _, fin => .ok ([], fin)
  | n + 1, no, fin =>
    let off := align4 fin
    let h := bytesAt bs off 16
    let len := numAt h 4 4
    if limit < off + 16 + len ∨ zeros bs fin (off - fin) = false then .error no
    else
      let x : Sect := { no := no, type := numAt h 0 2, index := numAt h 2 2,
                        body := bytesAt bs (off + 16) len, head := h.take 12, crc := numAt h 12 4 }
      match readSects bs limit n (no + 1) (off + 16 + len) with
      | .ok r => .ok (x :: r.1, r.2)
      | .error e => .error e

/-- How often a type may occur (Table 15.3); none for an unlisted one. -/
def sectLimit (t : Nat) : Option Nat :=
  match t with
  | 0x0001 => some 1
  | 0x0002 => some 1
  | 0x0003 => some 1
  | 0x0004 => some 1
  | 0x0005 => some 4
  | 0x0006 => some 1
  | 0x0010 => some 64
  | 0x0020 => some 1
  | 0x0021 => some 1
  | 0x0022 => some 1
  | 0x0030 => some 1
  | 0x0040 => some 1
  | _ => none

/-- R308 for one section, given the one before it. -/
def Sect.placed (x : Sect) (before : Option Sect) : Bool :=
  let order := match before with
    | none => true
    | some p => decide (p.type < x.type) || (p.type == x.type && decide (p.index < x.index))
  let known := if 0x8000 ≤ x.type then true
    else match sectLimit x.type with
      | none => false
      | some n => decide (x.index < n)
  order && known && zeros x.head 8 4

def placedAll : List Sect → Option Sect → Option Nat
  | [], _ => none
  | x :: xs, p => if x.placed p then placedAll xs (some x) else some x.no

/-! ### Header (Table 15.1) -/

def parseHeader (bs : List Byte) : ImgHeader :=
  { signed := (nth bs 8 0#8).getLsbD 0, keyslot := byteAt bs 9, sealCode := nth bs 10 0#8,
    spare := byteAt bs 11, gen := numAt bs 12 4, len := numAt bs 16 4, nsect := numAt bs 20 2,
    shadow := numAt bs 22 2, name := bytesAt bs 64 32 }

/-- A header can be read: magic, format and part are those of this device. -/
def headerReadable (bs : List Byte) : Bool :=
  decide (128 ≤ bs.length ∧ numAt bs 0 4 = 0x4B534346) && byteAt bs 4 == 1 && numAt bs 6 2 == 0x9664

/-- Step 1 of Table 15.6 for the header. -/
def headerOk (bs : List Byte) (len : Nat) : Bool :=
  let h := parseHeader bs
  headerReadable bs && decide (byteAt bs 8 < 2) &&
    (if h.signed then decide (h.keyslot < 4) else h.keyslot == 0) &&
    decide (1 ≤ h.spare ∧ h.spare ≤ 2) && decide (h.gen ≠ 0) && decide (h.len = len) &&
    decide (10 ≤ h.shadow ∧ h.shadow ≤ 3600) && zeros bs 36 28 && zeros bs 96 32

/-- First byte after the sections: the signature block, or the check value. -/
def tailAt (bs : List Byte) : Nat :=
  bs.length - 4 - (if (parseHeader bs).signed then 96 else 0)

/-! ### Sources (Tables 4.9 and 15.10) -/

def parseSource (kind : Nat) (w : Word) : Option Source :=
  match kind with
  | 0 => if w.toNat < 192 then some (.input w.toNat) else none
  | 1 => if w.toNat < 192 then some (.invalid w.toNat) else none
  | 2 => if onlyIn w [(25, 16), (3, 0)] then some (.inst (bf w 25 16) (bf w 3 0)) else none
  | 3 => if onlyIn w [(23, 16), (8, 0)] then some (.conn (bf w 23 16) (bf w 8 0)) else none
  | 4 => if onlyIn w [(21, 16), (5, 0)] then some (.latch (bf w 21 16) (bf w 5 0)) else none
  | 5 => if onlyIn w [(21, 16), (1, 0)] && decide (bf w 1 0 < 3)
      then some (.timer (bf w 21 16) (bf w 1 0)) else none
  | 6 => if w.toNat < 32 then some (.channel w.toNat) else none
  | 7 => if w.toNat < 128 then some (.counter w.toNat) else none
  | _ => none

/-! ### Room section (R102) -/

def parseSelector (v : Nat) : Option Selector :=
  let n := v % 1024
  match v / 1024 with
  | 0 => if n < 2 then some (.const (n == 1)) else none
  | 1 => if n < 960 then some (.site n) else none
  | 2 => if n < 96 then some (.port n) else none
  | 3 => if n < 8 then some (.ld n) else none
  | _ => none

def parseMode : Nat → Option CellMode
  | 0 => some .comb
  | 1 => some .setdom
  | 2 => some .resetdom
  | 3 => some .ondly
  | 4 => some .offdly
  | _ => none

def parseSite (b : List Byte) : Option SiteImg :=
  match parseMode (byteAt b 2 / 16), parseSelector (numAt b 8 2), parseSelector (numAt b 10 2),
      parseSelector (numAt b 12 2), parseSelector (numAt b 14 2) with
  | some mode, some s0, some s1, some s2, some s3 =>
    let delay := numAt b 6 2
    let isDelay := mode == .ondly || mode == .offdly
    if numAt b 0 2 < 960 ∧ (isDelay = true ↔ delay ≠ 0) then
      some { site := numAt b 0 2, mode := mode, start := (nth b 2 0#8).getLsbD 3,
             table := BitVec.ofNat 16 (numAt b 4 2), delay := delay, in0 := s0, in1 := s1, in2 := s2,
             in3 := s3 }
    else none
  | _, _, _, _, _ => none

def parsePort (b : List Byte) : Option PortImg :=
  let kind := byteAt b 1
  let ride := byteAt b 3
  if 6 ≤ kind ∨ 96 ≤ byteAt b 0 ∨ 50 < ride ∨ (kind ≠ 0 ∧ ride ≠ 0) then none
  else (parseSource kind (wordAt b 4)).map fun x =>
    { port := byteAt b 0, demand := (nth b 2 0#8).getLsbD 0, ride := ride, source := x }

def parseLatch (b : List Byte) : Option LatchImg :=
  if byteAt b 0 < 64 ∧ numAt b 2 2 < 960 then
    some { latch := byteAt b 0, demand := (nth b 1 0#8).getLsbD 0, site := numAt b 2 2 }
  else none

def parseLd (b : List Byte) : Option LdImg :=
  let mode := byteAt b 1
  if byteAt b 0 < 8 ∧ (mode = 3 ∨ mode = 4) ∧ numAt b 2 2 ≠ 0 then
    (parseSelector (numAt b 4 2)).map fun x =>
      { unit := byteAt b 0, offDelay := mode == 4, time := numAt b 2 2, input := x }
  else none

/-- What a selector names is defined by the section. -/
def RoomImg.defines (m : RoomImg) : Selector → Bool
  | .const _ => true
  | .site n => m.sites.any fun x => x.site == n
  | .port n => m.ports.any fun x => x.port == n
  | .ld n => m.lds.any fun x => x.unit == n

/-- Inputs that a cell of the mode does not read select constant 0 (R84). -/
def SiteImg.unread (x : SiteImg) : Bool :=
  match x.mode with
  | .comb => true
  | .setdom => x.in3 == .const false
  | .resetdom => x.in3 == .const false
  | _ => x.in1 == .const false && x.in2 == .const false && x.in3 == .const false

def RoomImg.sound (m : RoomImg) : Bool :=
  noRepeat (m.sites.map SiteImg.site) && noRepeat (m.ports.map PortImg.port) &&
    noRepeat (m.latches.map LatchImg.latch) && noRepeat (m.lds.map LdImg.unit) &&
    (m.sites.all fun x => x.unread && m.defines x.in0 && m.defines x.in1 && m.defines x.in2 &&
      m.defines x.in3) &&
    (m.latches.all fun x => m.defines (.site x.site)) && m.lds.all fun x => m.defines x.input

def roomCounts (b : List Byte) : Nat × Nat × Nat × Nat :=
  (numAt b 4 2, byteAt b 6, byteAt b 7, byteAt b 8)

def parseRoom (index : Nat) (b : List Byte) : Option RoomImg :=
  let (ns, np, nl, nd) := roomCounts b
  if b.length ≠ 16 + 16 * ns + 8 * np + 4 * nl + 8 * nd ∨ b.length < 16 ∨ 960 < ns ∨ 96 < np ∨ 64 < nl ∨
      8 < nd ∨ byteAt b 0 ≠ index ∨ 64 ≤ index ∨ 1 < byteAt b 1 ∨ 20 < byteAt b 3 then none
  else
    let b1 := b.drop 16
    let b2 := b1.drop (16 * ns)
    let b3 := b2.drop (8 * np)
    let b4 := b3.drop (4 * nl)
    match allSome ((records b1 16 ns).map parseSite), allSome ((records b2 8 np).map parsePort),
        allSome ((records b3 4 nl).map parseLatch), allSome ((records b4 8 nd).map parseLd) with
    | some sites, some ports, some latches, some lds =>
      let m : RoomImg := { iroom := byteAt b 0, mirrored := byteAt b 1 == 1, mroom := byteAt b 2,
                           hold := byteAt b 3, depth := numAt b 10 2, sites := sites, ports := ports,
                           latches := latches, lds := lds }
      if m.sound then some m else none
    | _, _, _, _ => none

def roomReserved (b : List Byte) : Bool :=
  let (ns, np, nl, nd) := roomCounts b
  let b1 := b.drop 16
  let b2 := b1.drop (16 * ns)
  let b3 := b2.drop (8 * np)
  let b4 := b3.drop (4 * nl)
  zeros b 9 1 && zeros b 12 4 &&
    ((records b1 16 ns).all fun x => byteAt x 2 % 8 == 0 && byteAt x 3 == 0) &&
    ((records b2 8 np).all fun x => decide (byteAt x 2 < 2)) &&
    ((records b3 4 nl).all fun x => decide (byteAt x 1 < 2)) &&
    (records b4 8 nd).all fun x => zeros x 6 2

/-! ### Function section (Tables 15.8 to 15.11) -/

def parseBind (b : List Byte) : Option BindImg :=
  let kind := byteAt b 1
  if kind = 0 ∨ kind = 2 ∨ kind = 3 ∨ kind = 4 ∨ kind = 6 ∨ kind = 7 then
    (parseSource kind (wordAt b 4)).map fun x => { input := byteAt b 0, source := x }
  else none

def parseParam (b : List Byte) : ParamImg :=
  { code := numAt b 0 2, index := byteAt b 2, value := sgn 32 (numAt b 4 4) }

def parseInst (b : List Byte) : Option InstImg :=
  let nb := numAt b 12 2
  let np := numAt b 14 2
  (allSome ((records (b.drop 16) 8 nb).map parseBind)).map fun binds =>
    { num := numAt b 0 2, type := byteAt b 2, auto := (nth b 3 0#8).getLsbD 0,
      hostreset := (nth b 3 0#8).getLsbD 1, word := wordAt b 4, home := byteAt b 8,
      rank := byteAt b 9, ride := byteAt b 10, binds := binds,
      pars := (records (b.drop (16 + 8 * nb)) 8 np).map parseParam }

def instReserved (b : List Byte) : Bool :=
  let nb := numAt b 12 2
  let np := numAt b 14 2
  decide (byteAt b 3 < 4) && byteAt b 11 == 0 &&
    ((records (b.drop 16) 8 nb).all fun x => zeros x 2 2) &&
    (records (b.drop (16 + 8 * nb)) 8 np).all fun x => byteAt x 3 == 0

/-- Cuts the body into `n` records whose sizes `size` gives; none where they do not fit. -/
def cut (size : List Byte → Nat) : Nat → List Byte → Option (List (List Byte) × List Byte)
  | 0, b => some ([], b)
  | n + 1, b =>
    if size b ≤ b.length ∧ 8 ≤ b.length then
      (cut size n (b.drop (size b))).map fun r => (b.take (size b) :: r.1, r.2)
    else none

def instSize (b : List Byte) : Nat := 16 + 8 * numAt b 12 2 + 8 * numAt b 14 2
def sfuncSize (b : List Byte) : Nat := align4 (8 + byteAt b 4)

/-- The records of a FUNCTION body. -/
def functionRecords (b : List Byte) : Option (List (List Byte) × List (List Byte)) :=
  if b.length < 8 then none
  else
    match cut instSize (numAt b 0 2) (b.drop 8) with
    | none => none
    | some (is, r) =>
      match cut sfuncSize (numAt b 2 2) r with
      | some (fs, []) => some (is, fs)
      | _ => none

def parseSFunc (b : List Byte) : Option SFuncImg :=
  let n := byteAt b 4
  let rooms := (bytesAt b 8 n).map BitVec.toNat
  if 1024 ≤ numAt b 0 2 ∧ numAt b 0 2 < 1280 ∧ byteAt b 2 < 2 ∧ 1 ≤ n ∧ n ≤ 64 ∧
      rooms.all (fun r => decide (r < 64)) = true then
    some { num := numAt b 0 2, prio := byteAt b 2, rank := byteAt b 3, rooms := rooms }
  else none

def parseFunctions (b : List Byte) : Option (List InstImg × List SFuncImg) :=
  match functionRecords b with
  | none => none
  | some (is, fs) =>
    match allSome (is.map parseInst), allSome (fs.map parseSFunc) with
    | some l, some m =>
      if rising (l.map InstImg.num) && rising (m.map SFuncImg.num) then some (l, m) else none
    | _, _ => none

def functionsReserved (b : List Byte) : Bool :=
  match functionRecords b with
  | none => true
  | some (is, fs) => zeros b 4 4 && is.all instReserved &&
      fs.all fun x => zeros x 5 3 && zeros x (8 + byteAt x 4) (sfuncSize x - 8 - byteAt x 4)

/-! ### Motion section (R213) -/

def parseBlk (b : List Byte) : SrcBlk :=
  { kind := byteAt b 0, index := byteAt b 1, dirinv := (nth b 2 0#8).getLsbD 0,
    num := sgn 32 (numAt b 4 4), den := numAt b 8 4, offset := sgn 32 (numAt b 12 4) }

/-- Codes and ranges of Table 8.8; a DEN of 0 is refused in every block (R213). -/
def SrcBlk.ok (x : SrcBlk) : Bool :=
  match x.kind with
  | 0 => decide (x.den ≠ 0)
  | 1 => decide (x.index < 16 ∧ x.den ≠ 0)
  | 2 => decide (x.index < 128 ∧ x.den ≠ 0)
  | 3 => decide (x.index < 128 ∧ x.den ≠ 0)
  | 4 => decide (x.index < 32 ∧ x.den ≠ 0)
  | _ => false

def parseAxis (b : List Byte) : Option AxisImg :=
  let a : AxisImg :=
    { axis := byteAt b 0, single := (nth b 1 0#8).getLsbD 1, modular := (nth b 1 0#8).getLsbD 0,
      axdisc := numAt b 2 2, modulus := numAt b 4 4, ptol := numAt b 8 4, vabs := numAt b 12 4,
      vrel := numAt b 16 2, filt := byteAt b 18, sgrace := numAt b 20 2,
      src1 := parseBlk (bytesAt b 24 20), src2 := parseBlk (bytesAt b 44 20) }
  if a.axis < 16 ∧ 1 ≤ a.axdisc ∧ a.axdisc ≤ 10000 ∧ (a.modular = true ↔ a.modulus ≠ 0) ∧
      a.vrel ≤ 500 ∧ 1 ≤ a.filt ∧ a.filt ≤ 16 ∧ a.sgrace ≤ 3600 ∧ a.src1.ok = true ∧
      a.src2.ok = true ∧ a.src1.kind ≠ 0 ∧ a.src1.kind ≠ 3 then some a
  else none

def blkReserved (b : List Byte) : Bool := decide (byteAt b 2 < 2) && zeros b 3 1 && zeros b 16 4

def parseMotion (b : List Byte) : Option (List AxisImg) :=
  if b.length % 64 = 0 then
    match allSome ((records b 64 (b.length / 64)).map parseAxis) with
    | some l => if noRepeat (l.map AxisImg.axis) then some l else none
    | none => none
  else none

def motionReserved (b : List Byte) : Bool :=
  (records b 64 (b.length / 64)).all fun x =>
    decide (byteAt x 1 < 4) && zeros x 19 1 && zeros x 22 2 && blkReserved (bytesAt x 24 20) &&
      blkReserved (bytesAt x 44 20)

/-! ### Fabric section (R375) -/

def parseProd (b : List Byte) : Option ProdImg :=
  let c := byteAt b 5
  let plen := byteAt b 4
  let src (x : List Byte) : Option Source :=
    let w := wordAt x 0
    let k := bf w 31 29
    if k = 2 ∨ k = 4 then parseSource k (BitVec.ofNat 32 (w.toNat % 2 ^ 29)) else none
  (allSome ((records (b.drop (16 + 8 * c)) 4 (8 * plen)).map src)).map fun l =>
    { conn := byteAt b 0, dual := (nth b 1 0#8).getLsbD 0, control := (nth b 1 0#8).getLsbD 1,
      period := numAt b 2 2, plen := plen, layout := numAt b 6 2,
      consumers := (records (b.drop 16) 8 c).map fun x => BitVec.ofNat 64 (beNat x), sources := l }

def parseCons (b : List Byte) : ConsImg :=
  { uid := BitVec.ofNat 64 (numAt b 0 8), conn := byteAt b 8, dual := (nth b 9 0#8).getLsbD 0,
    control := (nth b 9 0#8).getLsbD 1, taintfs := (nth b 9 0#8).getLsbD 2, period := numAt b 10 2,
    plen := byteAt b 12, n := byteAt b 13, layout := numAt b 14 2,
    failsafe := bytesAt b 24 (byteAt b 12) }

def prodSize (b : List Byte) : Nat := 16 + 8 * byteAt b 5 + 32 * byteAt b 4
def consSize (b : List Byte) : Nat := 24 + byteAt b 12

/-- The records of a FABRIC body: map, produced, consumed. -/
def fabricRecords (b : List Byte) :
    Option (List (List Byte) × List (List Byte) × List (List Byte)) :=
  if b.length < 32 then none
  else
    match cut (fun _ => 12) (numAt b 6 2) (b.drop 32) with
    | none => none
    | some (ms, r1) =>
      match cut prodSize (numAt b 8 2) r1 with
      | none => none
      | some (ps, r2) =>
        match cut consSize (numAt b 10 2) r2 with
        | some (cs, []) => some (ms, ps, cs)
        | _ => none

/-- Roles of the ports: L0 in [7:6]. -/
def portRoles (b : Nat) : List Nat := [b / 64, b / 16 % 4, b / 4 % 4, b % 4]

def parseFabric (b : List Byte) : Option FabricImg :=
  match fabricRecords b with
  | none => none
  | some (ms, ps, cs) =>
    let roles := portRoles (byteAt b 4)
    match allSome (ps.map parseProd) with
    | none => none
    | some l =>
      if byteAt b 1 < 3 ∧ roles.all (fun r => decide (r < 3)) = true then
        some { fabric := byteAt b 0 % 64, role := byteAt b 1, master := byteAt b 2,
               standby := byteAt b 3, ports := roles
               maps := ms.map fun x => { uid := BitVec.ofNat 64 (numAt x 0 8), node := byteAt x 8 }
               produced := l, consumed := cs.map parseCons }
      else none

def fabricReserved (b : List Byte) : Bool :=
  match fabricRecords b with
  | none => true
  | some (ms, ps, cs) => decide (byteAt b 0 < 64) && zeros b 5 1 && zeros b 12 20 &&
      (ms.all fun x => zeros x 9 3) &&
      (ps.all fun x => decide (byteAt x 1 < 4) && zeros x 8 8) &&
      cs.all fun x => decide (byteAt x 9 < 8) && zeros x 16 8

/-! ### Sections of fixed size -/

def parsePorch (b : List Byte) : Option PorchImg :=
  if b.length = 64 then
    some { prp := (nth b 0 0#8).getLsbD 0, h1 := bytesAt b 4 12, h2 := bytesAt b 16 12,
           secret := bytesAt b 32 32 }
  else none

def parseConv (index : Nat) (b : List Byte) : Option ConvImg :=
  if b.length = 228 then
    some { conv := index, cfg := wordAt b 0, list := wordsOf (b.drop 4) 32
           chans := (records (b.drop 132) 12 8).map fun x =>
             { cfg := wordAt x 0, band := wordAt x 4, par := wordAt x 8 } }
  else none

def parseTimers (b : List Byte) : Option (List TimerImg) :=
  if b.length = 1280 then
    some ((records b 20 64).map fun x =>
      { cfg := wordAt x 0, src := wordAt x 4, period := wordAt x 8, cmp0 := wordAt x 12,
        cmp1 := wordAt x 16 })
  else none

def parseTriggers (b : List Byte) : Option (List TrigImg) :=
  if b.length = 384 then
    some ((records b 12 32).map fun x =>
      { word := wordAt x 0, thr := wordAt x 4, sense := numAt x 8 4 })
  else none

/-- A section body has the structure and the codes that its type calls for. -/
def Sect.shaped (x : Sect) : Bool :=
  match x.type with
  | 0x0001 => x.body.length == 32
  | 0x0002 => x.body.length == 768
  | 0x0003 => x.body.length == 792
  | 0x0004 => x.body.length == 512
  | 0x0005 => (parseConv x.index x.body).isSome
  | 0x0006 => (parseTimers x.body).isSome
  | 0x0010 => (parseRoom x.index x.body).isSome
  | 0x0020 => (parseFunctions x.body).isSome
  | 0x0021 => (parseMotion x.body).isSome
  | 0x0022 => (parseTriggers x.body).isSome
  | 0x0030 => (parseFabric x.body).isSome
  | 0x0040 => (parsePorch x.body).isSome
  | _ => true

/-- Every word of a list keeps to the given fields. -/
def wordsIn (ws : List Word) (fields : List (Nat × Nat)) : Bool := ws.all fun w => onlyIn w fields

/-- Every reserved field of a section body is 0 (step 1 of Table 15.6). -/
def Sect.reserved (x : Sect) : Bool :=
  let b := x.body
  match x.type with
  | 0x0001 => onlyIn (wordAt b 0) [(17, 8), (1, 0)] && onlyIn (wordAt b 4) [(15, 0)] &&
      onlyIn (wordAt b 8) [(16, 0)] && onlyIn (wordAt b 12) [(24, 16), (3, 0)] && zeros b 16 16
  | 0x0003 => (records (b.drop 24) 12 64).all fun r =>
      onlyIn (wordAt r 0) [(31, 16), (9, 0)] && onlyIn (wordAt r 4) [(31, 20), (16, 0)] &&
        onlyIn (wordAt r 8) [(25, 16), (3, 0)]
  | 0x0004 => wordsIn (wordsOf b 128) [(31, 12), (8, 0)]
  | 0x0005 => onlyIn (wordAt b 0) [(21, 16), (13, 8), (3, 0)] &&
      wordsIn (wordsOf (b.drop 4) 32) [(4, 0)] &&
      (records (b.drop 132) 12 8).all fun r => onlyIn (wordAt r 0) [(31, 24), (13, 0)]
  | 0x0006 => (records b 20 64).all fun r => onlyIn (wordAt r 4) [(31, 27), (25, 0)]
  | 0x0010 => roomReserved b
  | 0x0020 => functionsReserved b
  | 0x0021 => motionReserved b
  | 0x0022 => (records b 12 32).all fun r => onlyIn (wordAt r 0) [(31, 28), (25, 16), (9, 0)]
  | 0x0030 => fabricReserved b
  | 0x0040 => decide (byteAt b 0 < 2) && zeros b 1 3 && zeros b 28 4
  | _ => true

/-! ### The whole image -/

def bodyOf (l : List Sect) (type : Nat) : List Byte :=
  ((l.find? fun x => x.type == type).map Sect.body).getD []

def long2 (b : List Byte) (off : Nat) : Long :=
  BitVec.ofNat 64 (numAt b (off + 4) 4 * 2 ^ 32 + numAt b off 4)

/-- The content of an image whose sections are shaped. -/
def buildImage (bs : List Byte) (l : List Sect) : Image :=
  let d := bodyOf l 0x0001
  let o := bodyOf l 0x0003
  let outs := records (o.drop 24) 12 64
  let fns := (parseFunctions (bodyOf l 0x0020)).getD ([], [])
  { hdr := parseHeader bs, frameCfg := wordAt d 0, gthr := wordAt d 4, silence := wordAt d 8,
    engCmp := wordAt d 12, icfg := wordsOf (bodyOf l 0x0002) 192, src := long2 o 0, pole := long2 o 8,
    sonly := long2 o 16, ocfg := outs.map fun r => wordAt r 0, osrca := outs.map fun r => wordAt r 4,
    osrcb := outs.map fun r => wordAt r 8
    ccfg := if l.any (fun x => x.type == 0x0004) then wordsOf (bodyOf l 0x0004) 128 else []
    convs := l.filterMap fun x => if x.type = 0x0005 then parseConv x.index x.body else none
    timers := (parseTimers (bodyOf l 0x0006)).getD []
    rooms := l.filterMap fun x => if x.type = 0x0010 then parseRoom x.index x.body else none
    insts := fns.1, sfuncs := fns.2
    axes := (parseMotion (bodyOf l 0x0021)).getD []
    trigs := (parseTriggers (bodyOf l 0x0022)).getD []
    fabric := parseFabric (bodyOf l 0x0030)
    porch := parsePorch (bodyOf l 0x0040) }

/-- Sections of an image whose layout can be followed. -/
def sectsOf (bs : List Byte) : Except Nat (List Sect) :=
  match readSects bs (tailAt bs) (parseHeader bs).nsect 0 128 with
  | .ok (l, fin) => if fin = tailAt bs then .ok l else .error 0xFFFF
  | .error n => .error n

/-- The image that the bytes spell, if its layout, sections and codes can be read. -/
def parseImage (bs : List Byte) : Option Image :=
  if !headerReadable bs then none
  else
    match sectsOf bs with
    | .ok l => if l.all Sect.shaped then some (buildImage bs l) else none
    | .error _ => none

end Sys2Proof.Machine
end

