-- ==== Sys2Proof/Machine/Content.lean ====
section
/-! DEFINITION. Step 6 of Table 15.6: every rule under which image validation refuses content, and the
engines' share of it (R131). Each check stands with the TYPE and INDEX of the section it blames. -/

namespace Sys2Proof.Machine

/-- A check of the content: section type, index, whether it passes. -/
abbrev Check := Nat × Nat × Bool

/-! ### Device, inputs and outputs (R41, R45, R50, R51, R61, R72, R227, R228) -/

def Image.frameOk (m : Image) : Bool :=
  let p := bf m.frameCfg 1 0
  let w := bf m.frameCfg 17 8
  decide (p ≤ 2 ∧ 100 ≤ w ∧ w ≤ 800 ∧ w * 10 ≤ 250 * 2 ^ p * 8)

def Image.deviceOk (m : Image) : Bool :=
  let ok (v : Nat) : Bool := decide (140 ≤ v ∧ v ≤ 200)
  let t := bf m.silence 16 0
  let n := bf m.engCmp 24 16
  m.frameOk && ok (bf m.gthr 15 8) && ok (bf m.gthr 7 0) && decide (bf m.gthr 7 0 + 10 ≤ bf m.gthr 15 8) &&
    decide (100 ≤ t ∧ t ≤ 100000) &&
    decide (16 ≤ n ∧ n ≤ 256)

def Image.inMode (m : Image) (n : Nat) : Nat := bf (nth m.icfg n 0) 31 30

/-- Group of a terminal number (Table 1.1, R51). -/
def groupOfIn (n : Nat) : Nat := if n < 128 then n / 16 else (n - 128) / 8

def Image.inputOk (m : Image) (n : Nat) : Bool :=
  let w := nth m.icfg n 0
  let arg := bf w 25 16
  let cnt := bitOf w 26
  match bf w 31 30 with
  | 0 => !(cnt && decide (128 ≤ n))
  | 1 => !cnt && decide (arg < 64) && m.src.getLsbD arg && !m.pole.getLsbD arg &&
      bf w 29 27 == arg / 8
  | 2 => !cnt && decide (100 ≤ arg ∧ arg ≤ 1000)
  | _ => false

def Image.outputOk (m : Image) (k : Nat) : Bool :=
  let w := m.ow k
  let t := bf w 9 0
  !(m.pole.getLsbD k && m.src.getLsbD k) && (!m.sonly.getLsbD k || m.src.getLsbD k) &&
    decide (bf w 23 16 ≤ 50) &&
    (if bitOf w 29 then bitOf w 30 && decide (1 ≤ t ∧ t ≤ 1000) else t == 0)

/-- R106, R83: sources of the output matrix. -/
def Image.isP01 (m : Image) (i : Nat) : Bool :=
  m.insts.any fun x => x.num == i && decide (x.prio < 2)

def Image.matrixOk (m : Image) (k : Nat) : Bool :=
  let w := m.ow k
  let a := m.oa k
  !bitOf w 31 ||
    ((!bitOf w 25 || m.isP01 (bf (m.ob k) 25 16)) &&
      (!bitOf w 24 || m.rooms.all fun r =>
        r.iroom != bf a 31 26 || r.latches.all fun l => l.latch != bf a 25 20 || !l.demand))

/-! ### Counters (R61, R74, R77) -/

def Image.counterOk (m : Image) (n : Nat) : Bool :=
  let w := nth m.ccfg n 0
  let t := bf w 31 16
  let plain (k : Nat) : Bool := m.inMode k == 0
  let common := decide (bf w 15 12 ≤ 8)
  match bf w 2 0 with
  | 0 => true
  | 1 => common && plain n && bf w 4 3 != 3
  | 2 => common && plain n && plain (n + 1) && bf w 6 5 != 3 && n % 2 == 0 &&
      nth m.ccfg (n + 1) 0 == 0
  | 3 => common && plain n && decide (1 ≤ t ∧ t ≤ 1000)
  | 4 => common && plain n && decide (1 ≤ t ∧ t ≤ 10000)
  | _ => false

def Image.promoted (m : Image) : Nat := (m.ccfg.filter fun w => bitOf w 8).length

/-! ### Converters (R170, R171, R177, R182, R191) -/

def Image.conv (m : Image) (c : Nat) : Option ConvImg := m.convs.find? fun x => x.conv == c

def ConvImg.used (x : ConvImg) : List Word := x.list.take (convLen x)

/-- Local channel of a list entry that gives data entries. -/
def listCh (w : Word) : Nat := bf w 2 0

/-- Places in the list at which local channel `j` is sampled for data. -/
def ConvImg.places (x : ConvImg) (j : Nat) : List Nat :=
  (List.range (convLen x)).filter fun e => listCh (nth x.list e 0) == j && !bitOf (nth x.list e 0) 3

/-- Longest distance between two successive places of a list of `n` entries. -/
def maxGap (n : Nat) : List Nat → Nat
  | [] => 0
  | p :: ps =>
    ((p :: ps).foldl (fun (acc : Nat × Nat) q => (max acc.1 (q - acc.2), q)) (0, p)).1.max
      (n + p - ((p :: ps).getLast?.getD p))

/-- Longest time of `g` starts at 3 MS/s, in ticks (Table 7.2). -/
def gapTicks (g : Nat) : Nat := 200 * (g / 3) + (match g % 3 with | 0 => 0 | 1 => 67 | _ => 134)

/-- Longest interval between the list samples of local channel `j` with two slices in service. -/
def ConvImg.interval (x : ConvImg) (j : Nat) : Nat := gapTicks (maxGap (convLen x) (x.places j))

def ConvImg.chanOk (x : ConvImg) (j : Nat) : Bool :=
  let c := nth x.chans j { cfg := 0, band := 0, par := 0 }
  let listed := x.used.any fun w => listCh w == j
  let r := bf c.cfg 31 30
  decide (2 * c.hyst ≤ c.hi - c.lo) && r != 3 && !(bitOf c.cfg 29 && r != 2) &&
    (convMode x == 0 || !listed ||
      (decide (bf c.cfg 27 24 ≤ 8) && decide (1 ≤ c.maxage ∧ c.maxage ≤ 10000) &&
        !(r == 1 && x.used.any fun w => listCh w == j && bitOf w 3) &&
        (convMode x != 1 || decide (2 * x.interval j ≤ 2000 * c.maxage))))

def ConvImg.ok (x : ConvImg) : Bool :=
  let n := convLen x
  let lens := decide (1 ≤ n ∧ n ≤ 32)
  (List.range 8).all x.chanOk && bf x.cfg 3 2 != 3 &&
    match convMode x with
    | 0 => true
    | 1 => lens && x.used.all fun w => !bitOf w 4
    | 2 => lens && bitOf (nth x.list 0 0) 4
    | _ => false

/-- Flat channel `n` is converted. -/
def Image.converted (m : Image) (n : Nat) : Bool :=
  match m.conv (n / 8) with
  | some x => convMode x != 0 && x.used.any fun w => listCh w == n % 8
  | none => false

def Image.rangeOf (m : Image) (n : Nat) : Nat :=
  match m.conv (n / 8) with
  | some x => bf (nth x.chans (n % 8) { cfg := 0, band := 0, par := 0 }).cfg 31 30
  | none => 3

/-- A pair can be sampled every 2.5 µs (R191). -/
def Image.pairFast (m : Image) (p : Nat) : Bool :=
  match m.conv (p / 4) with
  | some x => convMode x == 1 && [2 * p % 8, (2 * p + 1) % 8].all fun j =>
      !(x.places j).isEmpty && decide (x.interval j ≤ 500)
  | none => false

/-! ### Timers (R281, R286, R292) -/

def TimerImg.asTimer (x : TimerImg) : Timer :=
  { Timer.unused with cfg := x.cfg, src := x.src, period := x.period, cmp0 := x.cmp0, cmp1 := x.cmp1 }

def timersOk (l : List TimerImg) (n : Nat) : Bool :=
  match l[n]? with
  | none => true
  | some x =>
    let t := x.asTimer
    let own := t.cfg.toNat / 2 ^ 18 % 1024
    let ownOk := match t.kind with
      | 0 => true
      | 1 => true
      | 2 => decide (own < 8)
      | 3 => own == 0
      | 4 => decide (own < 64)
      | _ => false
    let casc := !t.casc || (match l[n - 1]? with
      | some y =>
        let u := y.asTimer
        n != 0 && t.presc == 1 && t.kind == u.kind && t.owner == u.owner && t.freeze == u.freeze
      | none => false)
    ownOk && decide (t.capKind ≤ 4) && !((t.capKind == 1 || t.capKind == 2) && t.capEdge == 3) && casc

/-- Defined identically in two images (R292). -/
def TimerImg.same (x y : TimerImg) : Bool := x.cfg == y.cfg && x.src == y.src

def TimerImg.used (x : TimerImg) : Bool := bf x.cfg 31 28 != 0

/-- R292 between the running image and a new one. -/
def timersFit (old new : List TimerImg) : Bool :=
  (List.range 64).all fun n =>
    match old[n]?, new[n]? with
    | some x, some y => !x.used || !y.used || x.same y
    | _, _ => true

/-! ### Rooms (R83, R88, R90) -/

/-- Selectors that a site reads. -/
def SiteImg.reads (x : SiteImg) : List Selector :=
  match x.mode with
  | .comb => [x.in0, x.in1, x.in2, x.in3]
  | .setdom => [x.in0, x.in1, x.in2]
  | .resetdom => [x.in0, x.in1, x.in2]
  | _ => [x.in0]

/-- Sites of a room that read a selector. -/
def RoomImg.readers (m : RoomImg) (sel : Selector) : List SiteImg :=
  m.sites.filter fun x => x.reads.contains sel

/-- Input ports of the sea that read a latch: room and port. -/
def Image.portsOn (m : Image) (ir l : Nat) : List (RoomImg × Nat) :=
  m.rooms.flatMap fun r => (r.ports.filter fun p => p.source == .latch ir l).map fun p => (r, p.port)

/-- Evaluations that a change of the site launches: one for a state element. -/
def SiteImg.launches (x : SiteImg) : Nat := if x.mode = .setdom ∨ x.mode = .resetdom then 1 else 0

/-- What a change of site `x` reaches next: room, site, and the evaluation steps that the way adds. -/
def Image.nextSites (m : Image) (r : RoomImg) (x : SiteImg) : List (RoomImg × SiteImg × Nat) :=
  let e := x.launches
  ((r.readers (.site x.site)).map fun y => (r, y, e)) ++
    (r.latches.filter fun l => l.site == x.site).flatMap fun l =>
      (m.portsOn r.iroom l.latch).flatMap fun q =>
        (q.1.readers (.port q.2)).map fun y => (q.1, y, e + 1)

/-- A long delay unit of the room ends the path after site `x` as one more cell. -/
def RoomImg.endsAtLd (r : RoomImg) (x : SiteImg) : Bool := r.lds.any fun u => u.input == .site x.site

/-- So does one of a room that the path enters after `x`. -/
def Image.entersLd (m : Image) (r : RoomImg) (x : SiteImg) : Bool :=
  (r.latches.filter fun l => l.site == x.site).any fun l =>
    (m.portsOn r.iroom l.latch).any fun q => q.1.lds.any fun u => u.input == .port q.2

/-- Some path that goes on through site `x` passes a limit of R90: `cells` and `steps` so far,
`seen` the sites passed. The fuel counts cells. -/
def Image.longPath (m : Image) : Nat → List (Nat × Nat) → Nat → Nat → RoomImg → SiteImg → Bool
  | 0, _, _, _, _, _ => true
  | n + 1, seen, cells, steps, r, x =>
    if decide (16 < steps + x.launches) || decide (256 < cells + 1) then true
    else if x.mode = .ondly ∨ x.mode = .offdly then false
    else
      (decide (256 < cells + 2) && (r.endsAtLd x || m.entersLd r x)) ||
        (decide (16 < steps + x.launches + 1) && m.entersLd r x) ||
        (m.nextSites r x).any fun y =>
          !((r.iroom, x.site) :: seen).contains (y.1.iroom, y.2.1.site) &&
            m.longPath n ((r.iroom, x.site) :: seen) (cells + 1) (steps + y.2.2) y.1 y.2.1

/-- Selectors at which paths of a room begin. -/
def RoomImg.starts (r : RoomImg) : List Selector :=
  (r.ports.map fun p => Selector.port p.port) ++ (r.lds.map fun u => Selector.ld u.unit) ++
    (r.sites.filter fun x => x.mode == .ondly || x.mode == .offdly).map fun x => Selector.site x.site

def Image.pathsOk (m : Image) (r : RoomImg) : Bool :=
  (r.starts.all fun sel => (r.readers sel).all fun x => !m.longPath 258 [] 0 1 r x) &&
    (r.sites.filter fun x => x.mode == .ondly || x.mode == .offdly).all fun x =>
      (m.nextSites r x).all fun y => !m.longPath 258 [] 0 (1 + y.2.2) y.1 y.2.1

/-- Combinational nets by room and site, each with the nets it reads (R88). -/
def Image.combNets (m : Image) : List ((Nat × Nat) × List (Nat × Nat)) :=
  m.rooms.flatMap fun r =>
    (r.sites.filter fun x => x.mode == .comb).map fun x =>
      ((r.iroom, x.site), x.reads.flatMap fun sel =>
        match sel with
        | .site n => [(r.iroom, n)]
        | .port p =>
          match (r.ports.find? fun q => q.port == p).map PortImg.source with
          | some (.latch ir l) =>
            (m.rooms.filter fun q => q.iroom == ir).flatMap fun q =>
              (q.latches.filter fun y => y.latch == l).map fun y => (ir, y.site)
          | _ => []
        | _ => [])

/-- Removes nets that read none of the nets left; a loop never goes away. -/
def peel : Nat → List ((Nat × Nat) × List (Nat × Nat)) → List ((Nat × Nat) × List (Nat × Nat))
  | 0, l => l
  | n + 1, l => peel n (l.filter fun x => x.2.any fun y => l.any fun z => z.1 == y)

def Image.noLoop (m : Image) : Bool := let l := m.combNets; (peel l.length l).isEmpty

/-- Codes of the sources that a room reads, and its mirror's half (Table 4.6, R106). -/
def Image.roomOk (m : Image) (r : RoomImg) : Bool :=
  (!r.mirrored || r.mroom == 0xFF || (decide (r.mroom < 64) && r.mroom / 32 != r.iroom / 32)) &&
    r.ports.all fun p => match p.source with
      | .inst i _ => m.isP01 i
      | _ => true

/-! ### Instances (R106, R140, R419, R309) -/

/-- Number of function inputs of a type, or none for a code that is no type (Tables 6.1 and 8.3). -/
def inputCount : Nat → Option Nat
  | 0x01 => some 3
  | 0x02 => some 3
  | 0x03 => some 7
  | 0x04 => some 3
  | 0x05 => some 9
  | 0x06 => some 4
  | 0x07 => some 4
  | 0x08 => some 9
  | 0x09 => some 9
  | 0x0A => some 6
  | 0x0B => some 4
  | 0x0C => some 1
  | 0x0D => some 3
  | 0x0E => some 5
  | 0x20 => some 0
  | 0x21 => some 2
  | 0x22 => some 2
  | 0x23 => some 2
  | 0x24 => some 2
  | 0x25 => some 2
  | 0x26 => some 2
  | 0x27 => some 3
  | _ => none

/-- Types whose RESTART column allows AUTO. -/
def autoAllowed (t : Nat) : Bool :=
  [0x02, 0x03, 0x04, 0x05, 0x0D, 0x21, 0x22, 0x23, 0x24, 0x25, 0x26].contains t

/-- Every source of an axis that has a position is a transmitter (R197). -/
def AxisImg.absolute (a : AxisImg) : Bool :=
  a.src1.kind == 4 && (a.src2.kind == 0 || a.src2.kind == 3 || a.src2.kind == 4)

def AxisImg.relative (a : AxisImg) : Bool := !a.absolute

/-- The pair that begins at input `n` is bound. -/
def InstImg.pairBound (i : InstImg) (n : Nat) : Bool := (i.bound n).isSome || (i.bound (n + 1)).isSome

/-- R419: function input `n` may stay unbound. -/
def InstImg.optional (m : Image) (i : InstImg) (n : Nat) : Bool :=
  resetOf i.type == some n ||
    match i.type with
    | 0x05 => ((n == 4 || n == 5) && i.parN 0x30 0 0 == 0) || n == 7
    | 0x06 => n == 2
    | 0x08 => decide (i.parN 0x40 0 0 ≤ n)
    | 0x09 => decide (i.parN 0x42 0 0 ≤ n)
    | 0x0A => decide (1 ≤ n) && decide (i.parN 0x50 0 0 ≤ n - 1)
    | 0x0B => (n == 1 || n == 2) && !i.pairBound 1
    | 0x0E => (n == 2 || n == 3) && !i.pairBound 2
    | 0x25 => n == 0 && (i.axisOf m).absolute
    | _ => false

def InstImg.bindsOk (m : Image) (i : InstImg) : Bool :=
  match inputCount i.type with
  | none => false
  | some n =>
    noRepeat (i.binds.map BindImg.input) &&
      (i.binds.all fun b => decide (b.input < n) &&
        match b.source with
        | .channel c => i.type == 0x0D && decide (b.input < 2) && m.converted c
        | .counter _ => false
        | .inst j _ => !(i.type == 0x0D && decide (b.input < 2)) && m.isP01 j
        | _ => !(i.type == 0x0D && decide (b.input < 2))) &&
      (List.range n).all fun k => (i.bound k).isSome || i.optional m k

/-! ### Parameters (R310, Table 15.11) -/

/-- A parameter of a type: code, index, range, whether it may be missing. -/
structure ParSpec where
  code  : Nat
  index : Nat
  lo    : Int
  hi    : Int
  opt   : Bool
  deriving DecidableEq, Repr

def big : Int := 2 ^ 31 - 1

def req (code : Nat) (lo hi : Int) : ParSpec := { code := code, index := 0, lo := lo, hi := hi, opt := false }
def opt (code : Nat) (lo hi : Int) : ParSpec := { code := code, index := 0, lo := lo, hi := hi, opt := true }

/-- Parameters of the `k`th pair: PAIRMODE, ACTLEVEL, DISC. An optional pair that is not bound needs
none. -/
def pairSpec (i : InstImg) (k first : Nat) : List ParSpec :=
  let mode : Int × Int := match i.type with
    | 0x04 => (0, 0)
    | 0x05 => (0, 0)
    | 0x07 => (1, 1)
    | _ => (0, 1)
  let fixed := i.type == 0x04 || i.type == 0x05 || i.type == 0x07
  let unbound := ((i.type == 0x0B && first == 1) || (i.type == 0x0E && first == 2)) && !i.pairBound first
  [{ code := 0x10, index := k, lo := mode.1, hi := mode.2, opt := fixed || unbound },
   { code := 0x11, index := k, lo := 0, hi := 1, opt := true },
   { code := 0x12, index := k, lo := 1, hi := 10000, opt := unbound }]

/-- Window period in microseconds. -/
def InstImg.usW (i : InstImg) : Nat := 250 * 2 ^ i.window

/-- Parameters that a motion type takes beside the common ones. -/
def motionSpec (a : AxisImg) (i : InstImg) : List ParSpec :=
  let stop := [req 0x83 (-big - 1) big, req 0x84 0 10000, req 0x85 1 600000, opt 0x86 0 1]
  match i.type with
  | 0x20 => [req 0x88 (-big - 1) big, req 0x89 (-big - 1) big]
  | 0x21 => stop
  | 0x22 => req 0x87 (-big - 1) big :: stop
  | 0x23 => [req 0x87 (-big - 1) big]
  | 0x24 => [req 0x88 (-big - 1) big, req 0x8A 0 10000, req 0x8B 0 1] ++
      (if i.par 0x8B 0 0 = 1 then stop else [])
  | 0x25 => [req 0x74 (-big - 1) big, req 0x75 (-big - 1) big, req 0x8F (-big - 1) big,
      req 0x90 0 big, req 0x91 0 1, req 0x92 (-big - 1) big, req 0x93 (-big - 1) big] ++
      (if a.relative then [req 0x94 (-big - 1) big, req 0x95 (-big - 1) big] else [])
  | 0x26 => [req 0x87 (-big - 1) big, req 0x8C 0 1]
  | 0x27 => [req 0x96 100 10000, req 0x97 10 2000, req 0x87 (-big - 1) big, req 0x98 1 10000,
      req 0x99 0 168]
  | _ => []

/-- The parameters that a type takes. -/
def InstImg.specs (m : Image) (i : InstImg) : List ParSpec :=
  let ps := pairsOf i.type
  let pairs := (List.range ps.length).flatMap fun k => pairSpec i k (nth ps k 0)
  let reset := if (resetOf i.type).isSome then [opt 0x13 500 5000] else []
  let own := match i.type with
    | 0x03 => [req 0x20 0 1, req 0x21 100 10000]
    | 0x05 => [req 0x30 0 1, req 0x31 10 3000, req 0x32 1 600, opt 0x33 0 1, req 0x34 1 60]
    | 0x07 => [opt 0x31 100 500]
    | 0x08 => [req 0x40 2 8, req 0x41 10 1000]
    | 0x09 => [req 0x42 1 8]
    | 0x0A => [req 0x50 1 4, req 0x51 10 1000, req 0x52 10 1000, opt 0x53 0 1]
    | 0x0B => [req 0x58 10 2000, req 0x59 10 2000]
    | 0x0C => [req 0x60 0 1, req 0x61 1 600000, opt 0x62 0 1]
    | 0x0D => [{ code := 0x70, index := 1, lo := -big - 1, hi := big, opt := false },
        { code := 0x70, index := 2, lo := -big - 1, hi := big, opt := false },
        { code := 0x71, index := 1, lo := -big - 1, hi := big, opt := false },
        { code := 0x71, index := 2, lo := -big - 1, hi := big, opt := false },
        req 0x72 (-big - 1) big, req 0x73 1 10000, req 0x74 (-big - 1) big, req 0x75 (-big - 1) big,
        req 0x76 (-big - 1) big]
    | 0x0E => [req 0x78 0 600]
    | _ => []
  let motion := if 0x20 ≤ i.type then
      [req 0x80 0 15, req 0x81 (-big - 1) big, req 0x82 1 10000, opt 0xA0 (-big - 1) big,
        opt 0xA1 (-big - 1) big] ++ motionSpec (i.axisOf m) i
    else []
  pairs ++ reset ++ own ++ motion

/-- Time parameters with their units in microseconds; DLYTIME is exempt (R144). -/
def timeParams : List (Nat × Nat) :=
  [(0x12, 1000), (0x13, 1000), (0x21, 1000), (0x31, 1000), (0x32, 1000000), (0x34, 1000000),
   (0x41, 1000), (0x51, 1000), (0x52, 1000), (0x58, 1000), (0x59, 1000), (0x73, 1000),
   (0x78, 1000000), (0x82, 1000), (0x84, 1000), (0x85, 1000), (0x8A, 1000), (0x90, 1), (0x96, 1000),
   (0x97, 1000), (0x98, 3600000000), (0x99, 3600000000)]

/-- R144: a time that is not 0 lasts at least two windows. -/
def InstImg.timesOk (i : InstImg) : Bool :=
  i.pars.all fun p =>
    match timeParams.find? fun t => t.1 == p.code with
    | some t => p.value == 0 || decide (2 * (i.usW : Int) ≤ p.value * t.2)
    | none => true

/-- Parameter block of one instance (R310). -/
def InstImg.parsOk (m : Image) (i : InstImg) : Bool :=
  let specs := i.specs m
  (i.pars.all fun p => specs.any fun q =>
      q.code == p.code && q.index == p.index && decide (q.lo ≤ p.value ∧ p.value ≤ q.hi)) &&
    noRepeat (i.pars.map fun p => 256 * p.code + p.index) &&
    (specs.all fun q => q.opt || i.pars.any fun p => p.code == q.code && p.index == q.index) &&
    i.timesOk && (i.type != 0x0C || decide (i.usW ≤ 1000 * i.parN 0x61 0 0))

/-! ### Types with rules of their own -/

/-- The field input bound to a function input. -/
def InstImg.inputAt (i : InstImg) (n : Nat) : Option Nat :=
  match i.bound n with
  | some (.input k) => some k
  | _ => none

/-- R155: the OSSD pair reads inputs in OSSD mode. -/
def InstImg.ossdOk (m : Image) (i : InstImg) : Bool :=
  [0, 1].all fun n => match i.inputAt n with
    | some k => m.inMode k == 2
    | none => false

/-- R184. -/
def InstImg.alimitOk (i : InstImg) : Bool :=
  match i.bound 0, i.bound 1 with
  | some (.channel a), some (.channel b) => a / 8 != b / 8
  | _, _ => false

/-- Groups that a station pair reads. -/
def InstImg.station (i : InstImg) (n : Nat) : List Nat :=
  (i.inputAt n).toList.map groupOfIn ++ (i.inputAt (n + 1)).toList.map groupOfIn

/-- Outputs that the trip masks of an image may name. -/
def Image.maskNames (m : Image) : Long :=
  m.insts.foldl (fun acc i =>
    if (m.owned i.num).isEmpty then acc
    else acc ||| (if 0x20 ≤ i.type then maskFor m i { FnSt.start i with motion := some { MotionSt.start with arm := true } }
      else m.maskOf i.num)) 0#64

/-- R166. -/
def InstImg.releaseOk (m : Image) (i : InstImg) : Bool :=
  let outs (o : Nat) : List Nat := m.drivenBy i.num o
  let good (k : Nat) : Bool :=
    !m.pole.getLsbD k && !bitOf (m.ow k) 29 && bf (m.ow k) 27 24 == 2 && !m.maskNames.getLsbD k
  let two := i.pairBound 2
  i.prio == 0 && bitOf i.word 22 &&
    (match outs 0, outs 1 with
      | [a], [b] => good a && good b && a / 8 != b / 8
      | _, _ => false) &&
    (!two || ((i.station 0).length == 2 && (i.station 2).length == 2 &&
      (i.station 0).all fun g => !(i.station 2).contains g))

/-- R206, R207. -/
def InstImg.slpOk (m : Image) (i : InstImg) : Bool :=
  let a := i.axisOf m
  let hi := i.par 0x75 0 0
  let lo := i.par 0x74 0 0
  let dec := i.par 0x8F 0 0
  let tr := i.par 0x90 0 0
  let lk := i.par 0x93 0 0
  let v : Int := a.vabs
  decide ((2 * i.usW + 190 + a.filt * i.usW : Nat) ≤ tr) && decide (0 < dec) &&
    decide (2 * dec * v * tr + v * v * 1000000 < lk * (2 * dec * 1000000)) &&
    decide (2 * lk < hi - lo)

/-- R144 and R194 for the axis of a motion instance: it exists, and its discrepancy time lasts two
windows. -/
def InstImg.axisOk (m : Image) (i : InstImg) : Bool :=
  m.axes.any fun a => (a.axis : Int) == i.par 0x80 0 0 && decide (2 * i.usW ≤ 1000 * a.axdisc) &&
    (a.sgrace == 0 || decide (2 * i.usW ≤ 1000000 * a.sgrace))

def InstImg.typeOk (m : Image) (i : InstImg) : Bool :=
  match i.type with
  | 0x04 => i.ossdOk m
  | 0x05 => i.ossdOk m
  | 0x0D => i.alimitOk
  | 0x0E => i.releaseOk m
  | 0x25 => i.axisOk m && i.slpOk m
  | t => decide (t < 0x20) || i.axisOk m

def InstImg.ok (m : Image) (i : InstImg) : Bool :=
  decide (i.num < 1024) && decide (i.window ≤ 5) && decide (i.prio ≤ 2) && decide (i.home < 8) &&
    decide (i.ride ≤ 50) && bf i.word 31 28 == 0 && (!i.auto || autoAllowed i.type) &&
    i.bindsOk m && i.parsOk m && i.typeOk m

/-- R131: what engine `e` carries at home. -/
def Image.engineOk (m : Image) (e : Nat) : Bool :=
  let l := m.insts.filter fun i => i.home == e && decide (i.prio < 2)
  decide ((m.insts.filter fun i => i.home == e).length ≤ 128) && decide ((l.map InstImg.load).sum ≤ fullBudget)

/-! ### Axes (R190, R191, R194) -/

/-- Analogue channels, counters of a source. -/
def SrcBlk.channels (x : SrcBlk) : List Nat :=
  match x.kind with
  | 1 => [2 * x.index, 2 * x.index + 1]
  | 4 => [x.index]
  | _ => []

def SrcBlk.counters (x : SrcBlk) : List Nat := if x.kind = 2 ∨ x.kind = 3 then [x.index] else []

/-- Table 8.1: what a source is taken from. -/
def Image.srcOk (m : Image) (x : SrcBlk) : Bool :=
  let w := nth m.ccfg x.index 0
  match x.kind with
  | 1 => (x.channels.all fun c => m.rangeOf c == 2) && m.pairFast x.index
  | 2 => bf w 2 0 == 2 && bitOf w 8
  | 3 => bf w 2 0 == 4 && bitOf w 8
  | 4 => decide (m.rangeOf x.index < 2) && m.converted x.index
  | _ => true

/-- R194: a PROX source is not slower than its period timeout. -/
def Image.proxOk (m : Image) (a : AxisImg) (x : SrcBlk) : Bool :=
  x.kind != 3 || decide (x.num.natAbs * 1000 ≤ a.vabs * bf (nth m.ccfg x.index 0) 31 16 * x.den)

def Image.axisOk (m : Image) (a : AxisImg) : Bool :=
  let cs := a.src1.channels
  let ds := a.src2.channels
  m.srcOk a.src1 && m.srcOk a.src2 && m.proxOk a a.src2 &&
    (a.src1.counters.all fun c => !a.src2.counters.contains c) &&
    cs.all fun c => ds.all fun d => c / 8 != d / 8

/-! ### Triggers (R123, R171, R211) -/

/-- Counts at which a transmitter passes its end of span (R170). -/
def spanEnds (range : Nat) : List Int := if range = 1 then [5000, 25000] else [-25000, 25000]

def Image.triggerOk (m : Image) (x : TrigImg) : Bool :=
  let src := bf x.word 7 0
  let edge := bf x.word 9 8
  let own := bf x.word 25 16
  let plain := x.thr == 0 && x.sense == 0
  let turn := m.insts.all fun i => i.num != own || i.type != 0x25 ||
    (let a := i.axisOf m
     !a.modular || !(a.src1.channels ++ a.src2.channels).contains src ||
       match m.conv (src / 8) with
       | some c => (spanEnds (m.rangeOf src)).all fun e =>
           !(nth c.chans (src % 8) { cfg := 0, band := 0, par := 0 }).inside e
       | none => true)
  match bf x.word 31 28 with
  | 0 => edge == 0 && plain
  | 1 => m.isP01 own && edge == 0 && plain && decide (src < 32) && m.converted src && turn
  | 2 => m.isP01 own && edge == 0 && decide (src < 128) && decide (x.sense < 3)
  | 3 => m.isP01 own && decide (edge < 3) && plain && decide (src < 192)
  | _ => false

/-! ### Fabric (R354, R360, R364) -/

def Image.failsafeOk (m : Image) (f : FabricImg) : Bool :=
  (List.range 64).all fun k =>
    !bitOf (m.ow k) 31 || !bitOf (m.ow k) 26 ||
      match f.consumed[bf (m.oa k) 16 9]? with
      | some c => !payloadBit c.failsafe (bf (m.oa k) 8 0)
      | none => true

def fabricOk (m : Image) (uid : Nat) (f : FabricImg) : Bool :=
  let len (control : Bool) (n : Nat) : Bool := decide (1 ≤ n ∧ n ≤ if control then 100 else 64)
  let ids (l : List ProdImg) : Bool := noRepeat (l.map ProdImg.conn)
  (f.maps.any fun x => x.uid.toNat == uid) && noRepeat (f.maps.map fun x => x.uid.toNat) &&
    noRepeat (f.maps.map MapImg.node) && decide (f.maps.length ≤ 256) &&
    decide ((f.produced.filter fun p => !p.control).length ≤ 256 ∧
      (f.consumed.filter fun c => !c.control).length ≤ 256) &&
    decide ((f.produced.filter ProdImg.control).length ≤ 64 ∧
      (f.consumed.filter ConsImg.control).length ≤ 64) &&
    (f.role != 0 || f.ports.all fun r => r != 2) &&
    ids (f.produced.filter fun p => !p.control) && ids (f.produced.filter ProdImg.control) &&
    (f.produced.all fun p => decide (1 ≤ p.period ∧ p.period ≤ 400) && len p.control p.plen &&
      decide (1 ≤ p.consumers.length ∧ p.consumers.length ≤ 8) &&
      p.sources.all fun x => match x with
        | .inst i _ => p.control || m.isP01 i
        | _ => true) &&
    (f.consumed.all fun c => decide (1 ≤ c.period ∧ c.period ≤ 400) && len c.control c.plen &&
      decide (2 ≤ c.n ∧ c.n ≤ 16)) && m.failsafeOk f

/-! ### Porch (R329) -/

/-- Two ports lie in one subnet by the mask of either. -/
def oneSubnet (h1 h2 : List Byte) : Bool :=
  let under (mask : List Byte) (a : List Byte) : List Byte := List.zipWith (· &&& ·) (a.take 4) mask
  let by_ (h : List Byte) : Bool := under (bytesAt h 4 4) h1 == under (bytesAt h 4 4) h2
  by_ h1 || by_ h2

def PorchImg.ok (p : PorchImg) : Bool := if p.prp then p.h1 == p.h2 else !oneSubnet p.h1 p.h2

/-! ### All of it -/

/-- The checks of step 6, in the order of the section types. `uid` is the device's own, `old` the
timers of the running image. -/
def Image.checks (m : Image) (uid : Nat) (old : List TimerImg) : List Check :=
  [(0x0001, 0, m.deviceOk),
   (0x0002, 0, (List.range 192).all m.inputOk),
   (0x0003, 0, (List.range 64).all fun k => m.outputOk k && m.matrixOk k),
   (0x0004, 0, (List.range m.ccfg.length).all m.counterOk && decide (m.promoted ≤ 16))] ++
  (m.convs.map fun x => (0x0005, x.conv, x.ok)) ++
  [(0x0006, 0, (List.range 64).all (timersOk m.timers) && timersFit old m.timers)] ++
  (m.rooms.map fun r => (0x0010, r.iroom, m.roomOk r && m.pathsOk r)) ++
  [(0x0010, ((m.rooms.head?).map RoomImg.iroom).getD 0, m.noLoop),
   (0x0020, 0, (m.insts.all fun i => i.ok m) && (List.range 8).all m.engineOk),
   (0x0021, 0, m.axes.all m.axisOk),
   (0x0022, 0, m.trigs.all m.triggerOk),
   (0x0030, 0, (m.fabric.map (fabricOk m uid)).getD true),
   (0x0040, 0, (m.porch.map PorchImg.ok).getD true)]

end Sys2Proof.Machine
end

