-- ==== Sys2Proof/Machine/SeaOps.lean ====
section
/-! DEFINITION. The logic sea: ports, the passes of an evaluation, delay sites, failures, mirrors and
rewrites (chapter 4). -/

namespace Sys2Proof.Machine

/-! ### Rooms -/

def roomSide (r : Nat) : Side := if r < 32 then .a else .b

def State.roomOn (s : State) (r : Nat) : Bool := s.powered (seaDom (roomSide r))

/-- The image room that key `k` of `Sea.imap` names. -/
def State.keyImg (s : State) (k : Nat) : Option RoomImg := s.roomImg (decide (64 ≤ k)) (k % 64)

/-- Record ROOM. -/
def State.roomRecord (s : State) (r key event site : Nat) : State :=
  s.record 0x0601 2 ([BitVec.ofNat 8 r, BitVec.ofNat 8 (key % 64), BitVec.ofNat 8 event] ++
    be16 site ++ [BitVec.ofNat 8 (s.room r).spares]) (decide (64 ≤ key))

/-- Rooms of the free pool. -/
def State.freeRooms (s : State) : List Nat :=
  (List.range 64).filter fun r => (s.room r).st == .free && s.roomOn r

/-- R94: the free room chosen to carry an image room that `old` carried; `apart`: the half of its
mirror. -/
def chooseRoom (free : List Nat) (old : Nat) (apart : Option Side) : Option Nat :=
  let ok := free.filter fun r => apart != some (roomSide r)
  ((ok.find? fun r => r / 16 == old / 16).or (ok.find? fun r => r / 32 == old / 32)).or ok.head?

/-- R93: the free room taken for a mirror of the image room that `r` carries. -/
def chooseMirror (free : List Nat) (r : Nat) : Option Nat := free.find? fun x => x / 32 != r / 32

/-! ### Ports (R82, R83) -/

def State.portVal (s : State) (st : Bool) (r : Room) (p : PortImg) : Bool :=
  match p.source with
  | .input n =>
    let f := s.form n
    if !f.invalid then f.v
    else
      let excess := f.sagAt.isSome && Tab.get 0 r.rideEnded p.port == f.sagAt.getD 0 + 1
      match f.held p.ride s.tb r.cells.began with
      | some b => if excess then p.demand else b
      | none => p.demand
  | .invalid n => (s.form n).invalid
  | .inst i o => s.instOut st i o
  | .conn k b => s.connBit st k b
  | .latch i l => s.latch st i l
  | .timer n e => (s.timerBit st n e).getD p.demand
  | _ => false

def State.portsOf (s : State) (st : Bool) (r : Room) (m : RoomImg) : Tab Bool :=
  m.ports.foldl (fun acc p => Tab.set false acc p.port (s.portVal st r p)) []

/-! ### The true pass (R84, R89) -/

def Selector.val (ports ld vals : Tab Bool) : Selector → Bool
  | .const v => v
  | .site n => Tab.get false vals n
  | .port n => Tab.get false ports n
  | .ld n => Tab.get false ld n

def tableAt (t : Half) (i3 i2 i1 i0 : Bool) : Bool :=
  t.getLsbD (8 * b2n i3 + 4 * b2n i2 + 2 * b2n i1 + b2n i0)

/-- Output of a site on the values `vals` of the other sites. -/
def SiteImg.out (x : SiteImg) (c : Cells) (ports vals : Tab Bool) : Bool :=
  match x.mode with
  | .comb => tableAt x.table (x.in3.val ports c.ld vals) (x.in2.val ports c.ld vals)
      (x.in1.val ports c.ld vals) (x.in0.val ports c.ld vals)
  | _ => Tab.get false c.q x.site

/-- Every site once, in the order of the records. -/
def sweep (m : RoomImg) (c : Cells) (ports vals : Tab Bool) : Tab Bool :=
  m.sites.foldl (fun acc x => Tab.set false acc x.site (x.out c ports acc)) vals

/-- `n` sweeps; as many as the room has sites settle every net, for loops pass held elements (R88). -/
def settleNets (m : RoomImg) (c : Cells) (ports : Tab Bool) : Nat → Tab Bool → Tab Bool
  | 0, vals => vals
  | n + 1, vals => settleNets m c ports n (sweep m c ports vals)

def truePass (m : RoomImg) (c : Cells) (ports : Tab Bool) : Tab Bool :=
  settleNets m c ports m.sites.length []

/-- Next state of a delay element (R86, R424): its output and the tick since which its count runs. -/
def delayNext (off q v expired : Bool) (run : Option Nat) (now : Nat) : Bool × Option Nat :=
  let level := !off
  if v != level then (v, none)
  else if q == level then (q, none)
  else
    match run with
    | some t => if expired then (level, none) else (q, some t)
    | none => (q, some now)

/-- Tick at which a count that runs since `t` expires: `n` events of `unit` ticks after the first one
that follows `t`. -/
def expiryOf (unit n t : Nat) : Nat := (t / unit + 1) * unit + n * unit

/-- Commit of one site into the held elements. -/
def SiteImg.commit (x : SiteImg) (ports vals : Tab Bool) (now : Nat) (old c : Cells) : Cells :=
  let v0 := x.in0.val ports old.ld vals
  let v1 := x.in1.val ports old.ld vals
  let v2 := x.in2.val ports old.ld vals
  let set := tableAt x.table false v2 v1 v0
  let clr := tableAt x.table true v2 v1 v0
  let q := Tab.get false old.q x.site
  let delay (off : Bool) : Cells :=
    let r := delayNext off q v0 (old.expired.contains x.site) (Tab.get none old.dly x.site) now
    { c with q := Tab.set false c.q x.site r.1, dly := Tab.set none c.dly x.site r.2 }
  match x.mode with
  | .comb => c
  | .setdom => { c with q := Tab.set false c.q x.site (set || (q && !clr)) }
  | .resetdom => { c with q := Tab.set false c.q x.site (!clr && (set || q)) }
  | .ondly => delay false
  | .offdly => delay true

/-- Commit of one long delay unit (R87). -/
def LdImg.commit (x : LdImg) (ports vals : Tab Bool) (now : Nat) (old c : Cells) : Cells :=
  let v := x.input.val ports old.ld vals
  let r := delayNext x.offDelay (Tab.get false old.ld x.unit) v (old.expired.contains (1000 + x.unit))
    (Tab.get none old.ldDly x.unit) now
  { c with ld := Tab.set false c.ld x.unit r.1, ldDly := Tab.set none c.ldDly x.unit r.2 }

/-- R89 step 5: what a room holds after a commit at tick `now`. -/
def commitCells (m : RoomImg) (old : Cells) (ports : Tab Bool) (now : Nat) : Cells :=
  let vals := truePass m old ports
  let c1 := m.sites.foldl (fun c x => x.commit ports vals now old c) old
  let c2 := m.lds.foldl (fun c x => x.commit ports vals now old c) c1
  let lat := m.latches.foldl (fun acc x => Tab.set false acc x.latch (Tab.get false vals x.site)) []
  let shown := if old.committed then old.latches
    else m.latches.foldl (fun acc x => Tab.set false acc x.latch x.demand) []
  { c2 with latches := lat
            prev := if old.latchAt = now && old.committed then old.prev else shown
            latchAt := if lat = shown && old.committed then old.latchAt else now
            committed := true
            expired := []
            ports := ports
            due := c2.q != old.q || c2.ld != old.ld
            lastEval := now }

/-- Start values (R85, R424). -/
def startCells (m : RoomImg) (now : Nat) : Cells :=
  { Cells.start with
    q := m.sites.foldl (fun acc x =>
      match x.mode with
      | .comb => acc
      | _ => Tab.set false acc x.site x.start) []
    loaded := true, lastEval := now, began := now }

/-! ### Latch changes that consumers see -/

/-- Timers follow the latches of the image room of key `k` from what `old` shows to what `s` shows
(R289, R291); a staged room reaches only the timers in shadow (R292). -/
def State.latchEdges (s old : State) (k : Nat) : State :=
  match s.keyImg k with
  | none => s
  | some m =>
    let st := decide (64 ≤ k)
    let i := k % 64
    let s1 := m.latches.foldl (fun acc x =>
      let a := old.latch st i x.latch
      let b := s.latch st i x.latch
      if a == b then acc
      else (acc.captureFrom 2 (fun n => n == i * 64 + x.latch) (edgeTakes b)
        (fun t => t.shadowed == st)).startLatch st i x.latch b) s
    s1.seeDiffer

/-! ### Rooms that carry something -/

/-- Key of the image room that physical room `r` carries, and in what part: 0 the room, 1 its mirror in
shadow, 2 a mirror not in shadow, 3 its rewrite. -/
def State.part (s : State) (r : Nat) : Option (Nat × Nat) :=
  s.sea.imap.findSome? fun e =>
    if e.2.room == some r then some (e.1, 0)
    else if e.2.mirror == some r then some (e.1, 1)
    else if e.2.building.map Prod.fst == some r then some (e.1, 2)
    else if e.2.rewrite.map Prod.fst == some r then some (e.1, 3)
    else none

/-- A failed room that carries nothing any more, until its self-test begins (R96). -/
def State.dropRoom (s : State) (r : Nat) : State :=
  let v := s.room r
  if v.st = .retired || v.st = .off then s
  else
    s.setRoom r { v with st := .failed, iroom := 0, cells := .start,
                         afterFail := true, differs := false, rideEnded := [] }

/-- What consumers see of the latches of an image room changes at this tick other than by a commit of
its room: what they saw before is kept for the snapshots of the tick (R15). -/
def State.markLatches (s : State) (key : Nat) : State :=
  let v := s.irm key
  match s.keyImg key with
  | none => s
  | some m =>
    if v.wasAt = some s.tb then s
    else
      let st := decide (64 ≤ key)
      s.setIrm key { v with wasAt := some s.tb, was := m.latches.foldl (fun acc x =>
        Tab.set false acc x.latch (s.latchAs st (key % 64) x.latch true)) [] }

/-- A mirror fails or is discarded; the room keeps service (R93). DESIGN CHOICE (log 82): a half-built
mirror that is discarded tests itself before it is free again, so that it is no candidate of the R94 that
follows. -/
def State.dropMirror (s : State) (key : Nat) (failed : Bool) : State :=
  let v := s.irm key
  match v.mirror.or (v.building.map Prod.fst) with
  | none => s
  | some r =>
    let s1 := s.setIrm key { v with mirror := none, building := none, built := false }
    if failed then s1.dropRoom r else s1.roomToTest r false

/-! ### Placing after failures (R93, R94) -/

/-- Image rooms that wait for a rewrite, in the order of R94 and Table 4.3. -/
def State.waiting (s : State) : List Nat :=
  let l := s.sea.imap.filter fun e => e.2.failedAt.isSome && e.2.rewrite.isNone
  let ins (x : Nat × IRoom) : List (Nat × IRoom) → List (Nat × IRoom) := fun ys =>
    ys.takeWhile (fun y => decide (y.2.failedAt.getD 0 ≤ x.2.failedAt.getD 0)) ++ [x] ++
      ys.dropWhile (fun y => decide (y.2.failedAt.getD 0 ≤ x.2.failedAt.getD 0))
  ((l.foldl (fun acc x => ins x acc) []).map Prod.fst)

/-- Begins the rewrite of one image room, if a free room serves it. -/
def State.startRewrite (s : State) (key : Nat) : State :=
  let v := s.irm key
  match chooseRoom s.freeRooms (v.room.getD (key % 64)) none with
  | none => s
  | some r =>
    (s.setIrm key { v with rewrite := some (r, s.tb) }).setRoom r
      { s.room r with st := .rewriting, iroom := key, cells := .start }

/-- Begins the building of a mirror where the image room lacks one (R93). -/
def State.startMirror (s : State) (key : Nat) : State :=
  let v := s.irm key
  match s.keyImg key, v.room with
  | some m, some r =>
    if !m.mirrored || v.mirror.isSome || v.building.isSome || v.failedAt.isSome then s
    else
      match chooseMirror s.freeRooms r with
      | none => s
      | some x =>
        (s.setIrm key { v with building := some (x, s.tb), built := false }).setRoom x
          { s.room x with st := if 64 ≤ key then .staged else .mirror, iroom := key, cells := .start }
  | _, _ => s

/-- An image room has neither a mirror in shadow nor a free room among `free` (Table 4.4). -/
def State.noFree (s : State) (free : List Nat) (key : Nat) : Bool :=
  (s.irm key).mirror.isNone && (chooseRoom free ((s.irm key).room.getD (key % 64)) none).isNone

/-- Free rooms taken in order by those that need one; those that find none. -/
def takeFreeRooms (pick : List Nat → Nat → Option Nat) (keys free : List Nat) : List Nat × List Nat :=
  keys.foldl (fun acc k =>
    match pick acc.1 k with
    | some r => (acc.1.erase r, acc.2)
    | none => (acc.1, acc.2 ++ [k])) (free, [])

/-- An image room calls for a mirror (R93). -/
def State.wantsMirror (s : State) (key : Nat) : Bool :=
  let v := s.irm key
  (s.keyImg key).any (fun m => m.mirrored) && v.room.isSome && v.mirror.isNone && v.building.isNone &&
    v.failedAt.isNone

/-- What the image rooms `keys` lack once the free rooms `free` have served the rewrites and then the mirrors: a
rewrite's target, a mirror, or a free room (R94, R99, R323). -/
def State.lacking (s : State) (keys free : List Nat) : List (Nat × Nat) :=
  let home (k : Nat) : Nat := (s.irm k).room.getD (k % 64)
  let a := takeFreeRooms (fun f k => chooseRoom f (home k) none) (s.waiting.filter keys.contains) free
  let b := takeFreeRooms (fun f k => chooseMirror f (home k)) (keys.filter s.wantsMirror) a.1
  a.2.map (fun k => (k, 0)) ++ b.2.map (fun k => (k, 1)) ++ (keys.filter (s.noFree b.1)).map fun k => (k, 2)

/-- The staged rooms cost a room of the running image something (R323). -/
def State.seaCosts (s : State) : Bool :=
  let keys := s.sea.imap.map Prod.fst
  let own := keys.filter fun k => decide (k < 64)
  let alone := s.lacking own (s.freeRooms ++ s.stagedRooms)
  s.cfg.staged.isSome && (s.lacking keys s.freeRooms).any fun x => decide (x.1 < 64) && !alone.contains x

/-- Rewrites first, then mirrors, in ascending image room number. -/
def State.serveSea (s : State) : State :=
  let s0 := if s.seaCosts then s.endStage .capacity else s
  let s1 := s0.waiting.foldl State.startRewrite s0
  (s1.sea.imap.map Prod.fst).foldl State.startMirror s1

/-! ### Failures (R91 to R95) -/

/-- The room of an image room has failed: its mirror takes over, or its latches freeze and it waits
for a rewrite. -/
def State.failImage (s0 : State) (key : Nat) : State :=
  let s := s0.markLatches key
  let v := s.irm key
  match v.room with
  | none => s
  | some r =>
    match v.mirror with
    | some x =>
      let s1 := s.setIrm key { v with room := some x, mirror := none, building := none, built := false }
      let w := s1.room x
      let as_ : RoomSt := if 64 ≤ key then .staged else .active
      let s2 := s1.setRoom x { w with st := if w.st = .held then .held else as_,
                                      heldAs := if w.st = .held then as_ else w.heldAs,
                                      differs := false }
      let s3 := (s2.dropRoom r).roomRecord x key 2 0x3FF
      s3.latchEdges s key
    | none =>
      let s1 := s.dropMirror key false
      let c := (s1.room r).cells
      let frozen := match s1.keyImg key with
        | some m => if c.committed then c.latches
            else m.latches.foldl (fun acc x => Tab.set false acc x.latch x.demand) []
        | none => []
      let s2 := s1.setIrm key { s1.irm key with failedAt := some (v.failedAt.getD s.tb),
                                                frozen := frozen }
      s2.setRoom r { s2.room r with st := .failed, differs := false }

/-- A room is failed by its second disagreement (R91). -/
def State.failRoom (s : State) (r site : Nat) : State :=
  let v := s.room r
  let s0 := s.setRoom r { v with st := v.heldAs, fails := satAdd 0xFFFF v.fails 1 }
  match s0.part r with
  | none => s0
  | some (key, part) =>
    let s1 := { s0 with sea := { s0.sea with last := some (site, key % 64, r) } }
    let s2 := if part = 1 ∨ part = 2 then (s1.roomRecord r key 8 site).dropMirror key true
      else if part = 3 then
        ((s1.roomRecord r key 1 site).setIrm key { s1.irm key with rewrite := none }).dropRoom r
      else (s1.roomRecord r key 1 site).failImage key
    s2.serveSea

/-- An evaluation that does not commit: held first, failed the second time (R91). -/
def State.disagreeRoom (s : State) (r site : Nat) : State :=
  let v := s.room r
  if v.st = .held then s.failRoom r site
  else
    let c := { v.cells with due := true, lastEval := s.tb }
    s.setRoom r { v with st := .held, heldAs := v.st, heldSite := site, cells := c }

/-! ### Room and mirror (R93) -/

/-- Compares a room with its mirror where both have settled on the same ports: output latches, state elements,
and the outputs of delay sites and long delay units with them (DESIGN CHOICE, log 95). -/
def State.compareMirror (s : State) (key : Nat) : State :=
  let v := s.irm key
  match v.room, v.mirror.or (if v.built then v.building.map Prod.fst else none) with
  | some r, some x =>
    let a := s.room r
    let b := s.room x
    if a.st = .held || b.st = .held || !a.cells.committed || !b.cells.committed || a.cells.due ||
        b.cells.due || a.cells.ports != b.cells.ports then s
    else if a.cells.latches = b.cells.latches ∧ a.cells.q = b.cells.q ∧ a.cells.ld = b.cells.ld then
      (s.setRoom r { a with differs := false }).setIrm key
        { v with mirror := some x, building := none, built := false }
    else if a.differs then
      let s1 := (s.setRoom r { a with differs := false }).setRoom x
        { b with fails := satAdd 0xFFFF b.fails 1 }
      let s2 := { s1 with sea := { s1.sea with last := some (0x3FF, key % 64, x) } }
      ((s2.roomRecord x key 8 0x3FF).dropMirror key true).serveSea
    else
      let ca := { a.cells with due := true }
      let cb := { b.cells with due := true }
      (s.setRoom r { a with differs := true, cells := ca }).setRoom x { b with cells := cb }
  | _, _ => s

/-- An evaluation of room `r` commits (R89 step 5). -/
def State.commitRoom (s : State) (r key part : Nat) (m : RoomImg) : State :=
  let st := decide (64 ≤ key)
  let v := s.room r
  let ports := s.portsOf st v m
  let c := commitCells m v.cells ports s.tb
  let held := decide (v.st = .held)
  let back := if held then v.heldAs else v.st
  let s1 := s.setRoom r { v with st := back, cells := c,
                                 first := if held then satAdd 0xFFFF v.first 1 else v.first }
  let s2 := if held then s1.roomRecord r key 0 v.heldSite else s1
  let s3 :=
    if part = 3 then
      let s2 := s2.markLatches key
      let im := s2.irm key
      let t1 := s2.setIrm key { im with room := some r, rewrite := none, failedAt := none,
                                        frozen := [], demand := false }
      let t2 := t1.setRoom r { t1.room r with st := if st then .staged else .active }
      let t3 := match im.room with
        | some o => t2.dropRoom o
        | none => t2
      let t4 := t3.roomRecord r key 3 0x3FF
      (if st then t4.restartClock else t4).serveSea
    else s2
  let s4 := s3.latchEdges s key
  s4.compareMirror key

/-- An evaluation of room `r` is called for: a port, an expiry, a changed element, a re-evaluation, or
1 ms without one (R89, R91, R421). -/
def State.evalDue (s : State) (r : Nat) (key : Nat) (m : RoomImg) : Bool :=
  let v := s.room r
  v.cells.loaded && (v.st == .held || v.cells.due || !v.cells.expired.isEmpty ||
    v.cells.ports != s.portsOf (decide (64 ≤ key)) v m ||
    decide (v.cells.lastEval + 200000 ≤ s.tb))

/-- The image room and part of a room that can evaluate now. -/
def State.evaluable (s : State) (r : Nat) : Option (Nat × Nat × RoomImg) :=
  if !s.alive || !s.roomOn r || decide (s.pwr.step < 8) then none
  else
    match s.part r with
    | none => none
    | some (key, part) =>
      match s.keyImg key with
      | none => none
      | some m =>
        let failed := part == 0 && (s.room r).st == .failed
        if failed then none else some (key, part, m)

end Sys2Proof.Machine
end

