-- ==== Sys2Proof/Machine/Validate.lean ====
section
/-! DEFINITION. Validation of an image (R313 to R316) and the placement of its rooms and instances
(R98, R316, R423). -/

namespace Sys2Proof.Machine

/-! ### Identity and keys (Table 18.1, R314) -/

/-- The device UID as the fuse bank holds it. -/
def State.uidRaw (s : State) : Nat :=
  (Tab.get 0#32 s.fus.shadow 0).toNat * 2 ^ 32 + (Tab.get 0#32 s.fus.shadow 1).toNat

/-- DEV_UID (R33). -/
def State.uid (s : State) : Nat := if s.fus.uidFail then 0 else s.uidRaw

/-- Digest of key slot `k`. -/
def State.digest (s : State) (k : Nat) : List Byte :=
  (List.range 8).flatMap fun j => wordBytes (Tab.get 0#32 s.fus.shadow (16 + 8 * k + j))

def State.programmed (s : State) (k : Nat) : Bool := (s.digest k).any fun b => b != 0#8

def State.revoked (s : State) (k : Nat) : Bool := decide (k < s.revoke)

/-- R314. -/
def State.signatureOk (s : State) (bs : List Byte) : Bool :=
  let h := parseHeader bs
  let any := (List.range 4).any s.programmed
  if !h.signed then !any
  else
    let n := bs.length - 100
    let key := bytesAt bs n 32
    decide (h.keyslot < 4) && s.programmed h.keyslot && !s.revoked h.keyslot &&
      sha256 key == s.digest h.keyslot && edVerify key (bytesAt bs (n + 32) 64) (bs.take n)

/-! ### Slots as bytes -/

def State.slotBytes (s : State) (k : Nat) : List Byte := (s.slot k).mem.readList 0 (s.slot k).len

/-- The header of the image in a slot, if one can be read. -/
def State.slotHeader (s : State) (k : Nat) : Option ImgHeader :=
  let bs := (s.slot k).mem.readList 0 (min 128 (s.slot k).len)
  if headerReadable bs then some (parseHeader bs) else none

/-! ### Placement of instances (R128, R423) -/

/-- Items in order, each to its home engine where it fits there, else by R128. -/
def placeHome (home : Nat → Nat) : List Item → List Budget → List (Item × Option Nat)
  | [], _ => []
  | x :: xs, bs =>
    let e := home x.num
    let fits := bs.any fun b => b.eng == e && decide (x.load ≤ b.free ∧ 0 < b.slots)
    match (if fits then some e else (bestOf bs x.load).map Budget.eng) with
    | some k => (x, some k) :: placeHome home xs (takeBudget bs k x.load)
    | none => (x, none) :: placeHome home xs bs

/-- P0 and P1 instances of an image as items without an engine. -/
def Image.newItems (m : Image) (st : Bool) : List Item :=
  sortItems ((m.insts.filter fun i => decide (i.prio < 2)).map fun i => itemOf (instKey st i.num) i none)

def Image.homeOf (m : Image) (n : Nat) : Nat :=
  ((m.insts.find? fun i => i.num == n).map InstImg.home).getD 0

/-- Where the instances of an image go beside the instances that run. -/
def State.placeNew (s : State) (m : Image) (st : Bool) : List (Item × Option Nat) :=
  placeHome m.homeOf (m.newItems st)
    (budgets s.inService (if st then s.items false else []) fun _ => true)

/-! ### Placement of rooms (R93, R94, R98) -/

/-- Rooms taken in the given order; `pick` chooses among the free ones. -/
def takeRooms {α : Type} (pick : List Nat → α → Option Nat) :
    List α → List Nat → List (α × Option Nat) × List Nat
  | [], free => ([], free)
  | x :: xs, free =>
    match pick free x with
    | some r => let t := takeRooms pick xs (free.erase r); ((x, some r) :: t.1, t.2)
    | none => let t := takeRooms pick xs free; ((x, none) :: t.1, t.2)

/-- The room of a mirror: the one that MROOM names, else by R93. -/
def pickMirror (free : List Nat) (x : RoomImg × Nat) : Option Nat :=
  if free.contains x.1.mroom && x.1.mroom / 32 != x.2 / 32 then some x.1.mroom
  else chooseMirror free x.2

/-- A room for an image room, with its mirror. -/
structure RoomPlan where
  rooms   : List (RoomImg × Option Nat)
  mirrors : List ((RoomImg × Nat) × Option Nat)
  free    : List Nat
  deriving DecidableEq, Repr

/-- Mirrors of the rooms that are placed. -/
def planMirrors (rooms : List (RoomImg × Option Nat)) (free : List Nat) : RoomPlan :=
  let need := rooms.filterMap fun x => if x.1.mirrored then x.2.map fun r => (x.1, r) else none
  let t := takeRooms pickMirror need free
  { rooms := rooms, mirrors := t.1, free := t.2 }

/-- R316, R320: every image room by the preference of R94, then the mirrors. -/
def planStaged (m : Image) (free : List Nat) : RoomPlan :=
  let t := takeRooms (fun f (x : RoomImg) => chooseRoom f x.iroom none) m.rooms free
  planMirrors t.1 t.2

/-- R98: rooms of their own number first, the rest by R94, then the mirrors. -/
def planStart (m : Image) (free : List Nat) : RoomPlan :=
  let t1 := takeRooms (fun f (x : RoomImg) => if f.contains x.iroom then some x.iroom else none)
    m.rooms free
  let t2 := takeRooms (fun f (x : RoomImg) => chooseRoom f x.iroom none)
    ((t1.1.filter fun x => x.2.isNone).map Prod.fst) t1.2
  let all := t1.1.map fun x =>
    if x.2.isSome then x else (x.1, (t2.1.find? fun y => y.1.iroom == x.1.iroom).bind Prod.snd)
  planMirrors all t2.2

def RoomPlan.whole (p : RoomPlan) : Bool :=
  (p.rooms.all fun x => x.2.isSome) && p.mirrors.all fun x => x.2.isSome

/-! ### Steps 7 and 8 (R315, R316) -/

/-- Every item places on the engines `engs`, none of which carries anything. -/
def allPlace (engs : List Nat) (its : List Item) : Bool :=
  (placeAll (sortItems its) (budgets engs [] fun _ => true)).all fun r => r.2.isSome

/-- R315. -/
def State.spareOk (s : State) (m : Image) : Bool :=
  let engs := s.inService
  let its := m.newItems false
  let p0 := its.filter fun x => x.prio == 0
  let lost := if m.hdr.spare = 2 then pairsIn engs else engs.map fun e => [e]
  allPlace engs its && lost.all fun l => allPlace (engs.filter fun e => !l.contains e) p0

/-- R316. -/
def State.fitOk (s : State) (m : Image) : Bool :=
  let plan := planStaged m s.freeRooms
  let placed := s.placeNew m true
  let its := s.items false ++ placed.map fun r => { r.1 with eng := r.2 }
  plan.whole && (placed.all fun r => r.2.isSome) &&
    (s.cfg.image.isNone || decide (s.policy ≤ coverageOf s.inService its)) &&
    (s.sea.imap.all fun e => decide (64 ≤ e.1) || s.noFree s.freeRooms e.1 || !s.noFree plan.free e.1) &&
    timersFit ((s.cfg.image.map Image.timers).getD []) m.timers

/-! ### The steps of Table 15.6 -/

/-- Step at fault (0 where all pass) and section. -/
abbrev Verdict := Nat × Nat

def noSect : Nat := 0xFFFF

/-- Step 1: the layout of R307 and R308, the bodies of Tables 15.3, 15.8 and 15.9 and the reserved fields with it. -/
def formatOk (bs : List Byte) (len : Nat) : Except Nat (List Sect) :=
  if !headerOk bs len then .error noSect
  else
    match sectsOf bs with
    | .error n => .error n
    | .ok l =>
      match placedAll l none with
      | some n => .error n
      | none =>
        if ! [0x0001, 0x0002, 0x0003].all (fun t => l.any fun x => x.type == t) then .error noSect
        else match l.find? fun x => !x.reserved || !x.shaped with
          | some x => .error x.no
          | none => .ok l

/-- Step 6. -/
def State.contentFlaw (s : State) (bs : List Byte) (l : List Sect) : Option Nat :=
  let m := buildImage bs l
  match (m.checks s.uid ((s.cfg.image.map Image.timers).getD [])).find? fun c => !c.2.2 with
  | some c => some (((l.find? fun x => x.type == c.1 && x.index == c.2.1).map Sect.no).getD noSect)
  | none => none

/-- The active processor's unit checks the sections in turn: the first that fails (R301, R308). -/
def State.sectCrcs (s : State) : List Sect → State × Option Nat
  | [] => (s, none)
  | x :: l =>
    let r := s.checkWith (procUnit s.por.active) 3#2 (x.head ++ x.body) x.crc
    if r.2 then r.1.sectCrcs l else (r.1, some x.no)

/-- Step 2: the CRC-32 of the image, then the CRC-32C of every section (R301). -/
def State.imageCrc (s : State) (bs : List Byte) (len : Nat) (l : List Sect) : State × Option Nat :=
  let r := s.checkWith (procUnit s.por.active) 2#2 (bs.take (len - 4)) (numAt bs (len - 4) 4)
  if r.2 then r.1.sectCrcs l else (r.1, some noSect)

/-- All eight steps, on what step 2 has found. -/
def State.verdictOf (s : State) (bs : List Byte) (len : Nat) (crc : List Sect → Option Nat) : Verdict :=
  match formatOk bs len with
  | .error n => (1, n)
  | .ok l =>
    match crc l with
      | some n => (2, n)
      | none =>
        if !s.signatureOk bs then (3, noSect)
        else if s.cfg.sealNow ≠ 0 then (4, noSect)
        else if s.cfg.image.any (fun m => decide ((parseHeader bs).gen ≤ m.hdr.gen)) then (5, noSect)
        else match s.contentFlaw bs l with
          | some n => (6, n)
          | none =>
            let m := buildImage bs l
            if !s.spareOk m then (7, noSect)
            else if !s.fitOk m then (8, noSect)
            else (0, noSect)

/-- The state after the checks of step 2, and the verdict. -/
def State.verdict (s : State) (bs : List Byte) (len : Nat) : State × Verdict :=
  (match formatOk bs len with
   | .error _ => s
   | .ok l => (s.imageCrc bs len l).1,
   s.verdictOf bs len fun l => (s.imageCrc bs len l).2)

/-- Status of a verdict, and its code in CFG_VALWHY.RESULT. -/
def verdictStatus (step : Nat) : Nat × Nat :=
  match step with
  | 0 => (stOk, 1)
  | 4 => (stSeal, 3)
  | 7 => (stCapacity, 4)
  | 8 => (stCapacity, 4)
  | _ => (stInvalid, 2)

/-- CFG_VALWHY. -/
def State.valWhy (s : State) : Word :=
  mkWord [(s.cfg.valSect, 16), (s.cfg.valSlot, 8), (s.cfg.valStep, 4), (s.cfg.valResult, 0)]

/-- VALIDATION_DONE: a validation run ends (R313). -/
def execValidationDone (s : State) : Host.Outcome State Fault Refusal :=
  .next <|
    match s.cfg.running with
    | none => s
    | some (k, op) =>
      if !s.alive then s
      else
        let bs := s.slotBytes k
        let r := s.verdict bs (s.slot k).len
        let v := r.2
        let st := verdictStatus v.1
        let c := { r.1.cfg with running := none, valSect := v.2, valSlot := k, valStep := v.1,
                                valResult := st.2 }
        let s1 := { r.1 with cfg := c }
        let s2 := s1.setSlotSt k (if v.1 = 0 then .valid else .invalid)
        let w := s2.valWhy
        (s2.record 0x0A03 1 ([BitVec.ofNat 8 k] ++ wordBytes w ++ be32 (parseHeader bs).gen)).finish
          op st.1 (wordBytes w)

end Sys2Proof.Machine
end

