-- ==== Sys2Proof/Machine/FabricOps.lean ====
section
/-! DEFINITION. The Renig link: addresses and peers, topology and routes, frames, connections
(chapter 17). -/

namespace Sys2Proof.Machine

/-! ### The running FABRIC section (R354, R360) -/

def State.fab (s : State) : Option FabricImg := (s.img false).bind Image.fabric

def State.linkOn (s : State) : Bool := s.alive && s.powered 6

/-- Role of a port; without a FABRIC section every port greets as a FABRIC port. -/
def State.portRole (s : State) (p : Nat) : Nat :=
  match s.fab with
  | some f => nth f.ports p 0
  | none => 1

/-- Address coding of a fabric and a node. -/
def addrOf (fabric node : Nat) : Nat := fabric * 256 + node

/-- Node that the map gives a UID. -/
def FabricImg.nodeOf (f : FabricImg) (uid : Nat) : Option Nat :=
  (f.maps.find? fun x => x.uid.toNat == uid).map MapImg.node

/-- The device's own address (R360). -/
def State.ownAddr (s : State) : Option Nat :=
  s.fab.bind fun f => (f.nodeOf s.uid).map fun n => addrOf f.fabric n

def State.role (s : State) : Nat := (s.fab.map FabricImg.role).getD 0

/-- The device's address on the roof: node 0 for the master, 1 for the standby (R371). -/
def State.roofAddr (s : State) : Option Nat :=
  s.fab.bind fun f => if f.role = 0 then none else some (0x8000 + addrOf f.fabric (f.role - 1))

def State.port (s : State) (p : Nat) : Port := Tab.get .start s.lnk.ports p

def State.setPort (s : State) (p : Nat) (v : Port) : State :=
  { s with lnk := { s.lnk with ports := Tab.set .start s.lnk.ports p v } }

/-- Mean of the measured link delays, in ticks (R357). -/
def Port.delay (v : Port) : Nat := if v.delays.isEmpty then 0 else v.delays.sum / v.delays.length

/-- SLOAD: the highest safety load of the last second, in 0.1 %. -/
def Port.sload (v : Port) (now : Nat) : Nat :=
  ((v.loads.filter fun x => decide (now < x.1 + 200000000)).map Prod.snd).foldl max 0

def State.portRecord (s : State) (p old new : Nat) : State :=
  s.record 0x0C05 2 [BitVec.ofNat 8 p, BitVec.ofNat 8 old, BitVec.ofNat 8 new,
    BitVec.ofNat 8 (min 255 ((s.port p).delay / 2)), BitVec.ofNat 8 (b2n s.lnk.clash)]

/-- The database changed: routes are due within 2 ms (R359). -/
def State.routesDue (s : State) : State :=
  { s with lnk := { s.lnk with routeDue := some (s.lnk.routeDue.getD s.tb) } }

/-- A port that leaves UP loses the frames that wait for it; only greetings go out on a DOWN port. -/
def Port.flushed (v : Port) (st : PortSt) : Port :=
  let hello (w : Waiting) : Bool := decide (192 ≤ byteAt w.frame 0)
  let kept := if st = .down then v.safeQ.filter hello else []
  let gone := (v.safeQ.filter fun w => !hello w).length
  { v with safeQ := kept, ctrlQ := [], bulkQ := [], ctrlShare := 0, bulkShare := 0,
           busyTo := if st = .down then v.busyTo else 0
           safedrop := satAdd 0xFF v.safedrop gone, cfull := satAdd 0xFFFF v.cfull v.ctrlQ.length
           bdrop := satAdd 0xFFFF v.bdrop v.bulkQ.length
           lost := v.lost + gone + v.ctrlQ.length + v.bulkQ.length }

/-- A frame of a class is discarded for another reason than a full queue or its AGE: the class's discard counter counts
it too, so that no discarded frame goes uncounted (R370; DESIGN CHOICE, log 101). -/
def Port.drop (v : Port) (cls : Nat) : Port :=
  let w := { v with lost := v.lost + 1 }
  match cls with
  | 1 => { w with cfull := satAdd 0xFFFF v.cfull 1 }
  | 2 => { w with bdrop := satAdd 0xFFFF v.bdrop 1 }
  | _ => { w with safedrop := satAdd 0xFF v.safedrop 1 }

def State.discard (s : State) (p cls : Nat) : State := s.setPort p ((s.port p).drop cls)

/-- A neighbour whose port leaves UP departs, though another path may lead to it (R363). -/
def State.departed (s : State) (v : Port) : State :=
  let old := Tab.get (0, false) s.lnk.peers v.nuid
  if old.1 ≠ 1 then s
  else
    ({ s with lnk := { s.lnk with peers := Tab.set (0, false) s.lnk.peers v.nuid (0, old.2) } } : State).record 0x0C01 2
      (be64 v.nuid ++ be16 (v.naddr % 0x4000) ++ [1#8, 0#8])

/-- A port changes its state (R354, R358). -/
def State.portTo (s : State) (p : Nat) (st : PortSt) : State :=
  let v := s.port p
  if v.st = st then s
  else
    let w := if st = .up then v else v.flushed st
    let s1 := s.setPort p { w with st := st, run := if st = .up then v.run else 0 }
    let s2 := { s1 with lnk := { s1.lnk with lsaDue := true } }
    let s3 := (s2.routesDue).portRecord p v.st.code st.code
    if v.st = .up then s3.departed v else s3

/-- The failure of a port's check unit puts the port out of service (Table 14.4). -/
def State.chargePort (s : State) (p : Nat) : State :=
  if (s.unit (8 + p)).due then (s.charged (8 + p)).portTo p .failed else s

/-! ### Peers (R361, R362) -/

def State.lsaOf (s : State) (uid : Nat) : Option Lsa := s.lnk.db.find? fun x => x.uid == uid

/-- A UID claims the node number of another mapped UID that is present. -/
def State.blocked (s : State) (f : FabricImg) (l : Lsa) : Bool :=
  f.maps.any fun x => x.uid.toNat != l.uid && addrOf f.fabric x.node == l.addr &&
    (s.lsaOf x.uid.toNat).isSome && !s.nv.expel.contains x.uid.toNat

/-- State of a peer: 0 ABSENT, 1 MEMBER, 2 GUEST, 3 EXPELLED. -/
def State.peerState (s : State) (uid : Nat) : Nat :=
  if s.nv.expel.contains uid then 3
  else
    match s.fab, s.lsaOf uid with
    | some f, some l =>
      if some l.addr = s.ownAddr then 2
      else if (f.nodeOf uid).map (addrOf f.fabric) == some l.addr then 1
      else if s.nv.accept.contains uid && !s.blocked f l then 1
      else 2
    | _, none => 0
    | none, some _ => 2

/-- UIDs that the peer table is about. -/
def State.peerUids (s : State) : List Nat :=
  let m := ((s.fab.map FabricImg.maps).getD []).map fun x => x.uid.toNat
  let d := s.lnk.db.map Lsa.uid
  ((m ++ d ++ s.nv.accept ++ s.nv.expel).eraseDups).filter fun u => u != s.uid

/-- An address of the fabric is clashing (R361, R362). -/
def State.clashNow (s : State) : Bool :=
  match s.fab with
  | none => false
  | some f => s.lnk.db.any fun l => l.uid != s.uid &&
      (some l.addr == s.ownAddr || (s.nv.accept.contains l.uid && s.blocked f l))

/-! ### Topology (R358, R359) -/

/-- Links of the device that an LSA reports: its UP ports of one role. -/
def State.selfLinks (s : State) (role : Nat) : List LsaLink :=
  ((List.range 4).filter fun p => (s.port p).st == .up && s.portRole p == role).map fun p =>
    { uid := (s.port p).nuid, addr := (s.port p).naddr, port := p, sload := (s.port p).sload s.tb }

/-- The device as a node of its fabric, or of the roof. -/
def State.selfLsa (s : State) (roof : Bool) : Lsa :=
  { uid := s.uid, addr := ((if roof then s.roofAddr else s.ownAddr).getD 0), seq := s.lnk.lsaSeq,
    master := s.role == 1, standby := s.role == 2, taint := s.eng.taint,
    links := s.selfLinks (if roof then 2 else 1), lastAt := s.tb }

def State.graph (s : State) (roof : Bool) : List Lsa :=
  s.selfLsa roof :: (if roof then s.lnk.roof else s.lnk.db).filter fun x => x.uid != s.uid

/-- Links of a node that both ends report, with the neighbour. -/
def bothWays (g : List Lsa) (u : Lsa) : List (Nat × Lsa) :=
  u.links.filterMap fun k =>
    match g.find? fun x => x.uid == k.uid with
    | some v => if v.links.any fun y => y.uid == u.uid then some (k.port, v) else none
    | none => none

/-- One hop: the port it leaves by, and the node it reaches. -/
abbrev Hop := Nat × Lsa

/-- Every path of at most `n` hops to `target` that passes no node twice, through nodes that `ok`
admits. -/
def pathsTo (g : List Lsa) (ok : Lsa → Bool) (target : Nat) : Nat → List Nat → Lsa → List (List Hop)
  | 0, _, _ => []
  | n + 1, seen, u =>
    (bothWays g u).flatMap fun h =>
      if h.2.uid = target then [[h]]
      else if seen.contains h.2.uid || !ok h.2 then []
      else (pathsTo g ok target n (h.2.uid :: seen) h.2).map fun p => h :: p

/-- Order among paths of one length: first port, then addresses of the later neighbours (R366). -/
def pathKey (p : List Hop) : List Nat :=
  p.length :: ((p.head?.map Prod.fst).getD 0 :: (p.drop 1).flatMap fun h => [h.2.addr, h.1])

def lexLt : List Nat → List Nat → Bool
  | _, [] => false
  | [], _ :: _ => true
  | x :: xs, y :: ys => decide (x < y) || (x == y && lexLt xs ys)

def bestPath (l : List (List Hop)) : Option (List Hop) :=
  l.foldl (fun acc p =>
    match acc with
    | none => some p
    | some q => if lexLt (pathKey p) (pathKey q) then some p else some q) none

def inner (p : List Hop) : List Nat := (p.take (p.length - 1)).map fun h => h.2.uid

/-- Two paths share no link and no intermediate node. -/
def disjoint (p q : List Hop) : Bool :=
  ((inner p).all fun u => !(inner q).contains u) &&
    !(p.length == 1 && q.length == 1 && p.map Prod.fst == q.map Prod.fst)

/-- The pair of R366: least total length, route 1 first. -/
def bestPair (l : List (List Hop)) : Option (List Hop × List Hop) :=
  let pairs := l.flatMap fun p =>
    (l.filter fun q => lexLt (pathKey p) (pathKey q) && disjoint p q).map fun q => (p, q)
  let key (x : List Hop × List Hop) : List Nat :=
    (x.1.length + x.2.length) :: (pathKey x.1 ++ pathKey x.2)
  pairs.foldl (fun acc x =>
    match acc with
    | none => some x
    | some y => if lexLt (key x) (key y) then some x else some y) none

/-- Paths from the device over MEMBER nodes, at most 16 hops (R366). -/
def State.memberPaths (s : State) (uid : Nat) : List (List Hop) :=
  let ok (l : Lsa) : Bool := s.peerState l.uid == 1
  if s.peerState uid ≠ 1 then []
  else pathsTo (s.graph false) ok uid 16 [s.uid] (s.selfLsa false)

/-- Paths over nodes that are not EXPELLED, however long, in the device's fabric or on the roof (R359, R371). -/
def State.pathsOver (s : State) (roof : Bool) (uid : Nat) : List (List Hop) :=
  pathsTo (s.graph roof) (fun l => !s.nv.expel.contains l.uid) uid (s.graph roof).length [s.uid] (s.selfLsa roof)

/-- Paths on the roof, at most two hops (R372). -/
def State.roofPaths (s : State) (uid : Nat) : List (List Hop) :=
  pathsTo (s.graph true) (fun l => !s.nv.expel.contains l.uid) uid 2 [s.uid] (s.selfLsa true)

/-- UID that holds an address of the device's fabric: an accepted UID takes a mapped one's place
(R362). -/
def State.uidAt (s : State) (addr : Nat) : Option Nat :=
  match s.lnk.db.find? fun l => l.addr == addr && s.peerState l.uid == 1 with
  | some l => some l.uid
  | none => s.fab.bind fun f =>
      (f.maps.find? fun x => addrOf f.fabric x.node == addr).map fun x => x.uid.toNat

/-- Address of a UID of another fabric, which no table of the device gives: a free constant, but for the fabric that a
roof LSA names (R372). -/
def State.foreignAddr (s : State) (f : FabricImg) (uid : Nat) : Option Nat :=
  let a := (Config.foreignAddr (BitVec.ofNat 64 uid)).toNat
  let b := match s.lnk.roof.find? fun l => l.uid == uid with
    | some l => addrOf (l.addr / 256 % 64) (a % 256)
    | none => a
  if b / 256 = f.fabric then none else some b

/-- Address of a UID: its node by the map or by acceptance, else one of another fabric. -/
def State.addrFor (s : State) (uid : Nat) : Option Nat :=
  match s.fab with
  | none => none
  | some f =>
    if uid = s.uid then s.ownAddr
    else match s.lsaOf uid with
      | some l => if s.peerState uid = 1 then some l.addr else (f.nodeOf uid).map (addrOf f.fabric)
      | none =>
        match f.nodeOf uid with
        | some n => some (addrOf f.fabric n)
        | none => s.foreignAddr f uid

/-- Address at which control frames reach a UID: the one that it claims, else as for safety (R361). -/
def State.ctlAddr (s : State) (uid : Nat) : Option Nat :=
  if uid = s.uid then s.ownAddr
  else match s.lsaOf uid with
    | some l => if s.peerState uid = 3 ∨ some l.addr = s.ownAddr then none else some l.addr
    | none => s.addrFor uid

/-- UID of the node at an address of the device's fabric: a MEMBER, else a GUEST that claims it (R361). -/
def State.holder (s : State) (addr : Nat) : Option Nat :=
  let at_ (ok : Lsa → Bool) : Option Nat := (s.lnk.db.find? fun l => l.addr == addr && ok l).map Lsa.uid
  (at_ fun l => s.peerState l.uid == 1).or (at_ fun l => s.peerState l.uid == 2)

/-- UID of the roof node of a fabric: 0 its master, 1 its standby. -/
def State.roofUid (s : State) (fabric k : Nat) : Option Nat :=
  ((s.graph true).find? fun l => l.addr == 0x8000 + addrOf fabric k).map Lsa.uid

/-- The own fabric's master (0) or standby (1) as a node, the other where it is missing. -/
def State.relayUid (s : State) (k : Nat) : Option Nat :=
  match s.fab with
  | none => none
  | some f =>
    let at_ (n : Nat) : Option Nat :=
      match s.uidAt (addrOf f.fabric n) with
      | some u => if u = s.uid ∨ (s.memberPaths u).isEmpty = false then some u else none
      | none => none
    if k = 0 then (at_ f.master).or (at_ f.standby) else (at_ f.standby).or (at_ f.master)

/-- LEG and the candidate paths of one leg of a route from the device toward an address (R366, R372). -/
def State.legPaths (s : State) (addr : Nat) (rt fromRoof : Bool) : Nat × List (List Hop) :=
  match s.fab with
  | none => (0, [])
  | some f =>
    if addr / 256 % 64 = f.fabric then
      (if fromRoof then 2 else 0, ((s.uidAt addr).map s.memberPaths).getD [])
    else
      let k := b2n rt
      match s.relayUid k with
      | some u =>
        if u = s.uid ∨ fromRoof = true then
          (1, (((s.roofUid (addr / 256 % 64) k).or (s.roofUid (addr / 256 % 64) (1 - k))).map s.roofPaths).getD [])
        else (0, s.memberPaths u)
      | none => (0, [])

/-- One leg of a route: LEG and the ports; none where there is no path. -/
def State.legTo (s : State) (addr : Nat) (rt fromRoof : Bool) : Option (Nat × List Nat) :=
  let l := s.legPaths addr rt fromRoof
  (bestPath l.2).map fun p => (l.1, p.map Prod.fst)

/-- Two first legs of a connection to another fabric: they end at different nodes, share no link and no node, and their
total length is least (R366, R372). -/
def bestLegs (l m : List (List Hop)) : Option (List Hop × List Hop) :=
  let apart (p q : List Hop) : Bool := (p.map fun h => h.2.uid).all fun u => !(q.map fun h => h.2.uid).contains u
  let key (x : List Hop × List Hop) : List Nat :=
    (x.1.length + x.2.length) :: (pathKey x.1 ++ pathKey x.2)
  (l.flatMap fun p => (m.filter fun q => apart p q).map fun q => (p, q)).foldl (fun acc x =>
    match acc with
    | none => some x
    | some y => if lexLt (key x) (key y) then some x else some y) none

/-- R366, R372: the routes of one consumer, given the former ones. -/
def State.routesFor (s : State) (dual : Bool) (uid : Nat) (old : List Route) : List Route :=
  match s.addrFor uid, s.fab with
  | some addr, some f =>
    let alone (p : List Nat) (leg : Nat) : Route :=
      let legs := [[leg], p]
      { rt := ((old.find? fun r => r.legs == legs).map Route.rt).getD false, legs := legs }
    if addr / 256 % 64 = f.fabric then
      match s.uidAt addr with
      | none => []
      | some u =>
        let l := s.memberPaths u
        match (if dual then bestPair l else none) with
        | some (p, q) => [{ rt := false, legs := [[0], p.map Prod.fst] },
                          { rt := true, legs := [[0], q.map Prod.fst] }]
        | none => ((bestPath l).map fun p => alone (p.map Prod.fst) 0).toList
    else
      let l := s.legPaths addr false false
      let m := s.legPaths addr true false
      match (if dual && s.relayUid 0 != s.relayUid 1 then bestLegs l.2 m.2 else none) with
      | some (p, q) => [{ rt := false, legs := [[l.1], p.map Prod.fst] },
                        { rt := true, legs := [[m.1], q.map Prod.fst] }]
      | none =>
        match s.legTo addr false false, (if dual then s.legTo addr true false else none) with
        | some a, _ => [alone a.2 a.1]
        | none, some b => [alone b.2 b.1]
        | none, none => []
  | _, _ => []

/-! ### Frames (R355, R356) -/

/-- A frame with its link check. -/
def mkFrame (cls kind ttl dst src : Nat) (taint : Bool) (body : List Byte) : List Byte :=
  let f := [BitVec.ofNat 8 (cls * 64 + kind), BitVec.ofNat 8 ttl] ++ be16 dst ++ be16 src ++
    [BitVec.ofNat 8 body.length, BitVec.ofNat 8 (128 * b2n taint)] ++ body
  f ++ be32 (crc32c f)

/-- A frame as received. -/
structure Frame where
  cls   : Nat
  kind  : Nat
  ttl   : Nat
  dst   : Nat
  src   : Nat
  taint : Bool
  body  : List Byte
  deriving DecidableEq, Repr

/-- Reads a frame whose length and link check hold. -/
def readFrame (f : List Byte) : Option Frame :=
  let n := byteAt f 6
  if f.length = 12 + n ∧ n ≤ 116 ∧ numAt f (8 + n) 4 = crc32c (f.take (8 + n)) then
    some { cls := byteAt f 0 / 64, kind := byteAt f 0 % 64, ttl := byteAt f 1, dst := numAt f 2 2,
           src := numAt f 4 2, taint := decide (128 ≤ byteAt f 7), body := bytesAt f 8 n }
  else none

/-- CLASS and KIND pairs of Table 17.2. -/
def knownFrame (x : Frame) : Bool :=
  [(3, 0x01), (1, 0x02), (0, 0x01), (1, 0x10), (2, 0x20)].contains (x.cls, x.kind)

/-- Ticks that a frame takes on a port: 40 bytes per µs, with the start character (R353). -/
def frameTicks (f : List Byte) : Nat := 5 * (f.length + 4)

/-- A check value as the unit that computed it gives it: its complement in FAULT (R303). -/
def Cvu.given (c : Cvu) (v : Nat) : Nat := if c.fault then 0xFFFFFFFF - v else v

/-- A frame with the link check that the port's unit gives. -/
def Cvu.sealed (c : Cvu) (f : List Byte) : List Byte :=
  if c.fault then f.take (f.length - 4) ++ be32 (c.given (numAt f (f.length - 4) 4)) else f

/-- The transmission of a frame begins on a port; safety frames count toward its load. -/
def State.transmit (s : State) (p : Nat) (f : List Byte) : State :=
  let n := 8 + p
  let s1 := s.runUnit n fun c => c.payload 3#2 (f.take (f.length - 4))
  let s2 := { s1 with sent := s1.sent ++ [Sent.fabric p ((s1.unit n).sealed f)] }
  let v := s2.port p
  (s2.setPort p { v with
    busyTo := s.tb + frameTicks f
    safeBytes := if byteAt f 0 / 64 = 0 then v.safeBytes + f.length + 4 else v.safeBytes }).chargePort p

/-- The device itself originates a frame. -/
def State.isOwn (s : State) (f : List Byte) : Bool := some (numAt f 4 2) == s.ownAddr

/-- A frame takes its place in the queue of its class, or is counted where that is full (R370). -/
def State.enqueue (s : State) (p : Nat) (f : List Byte) : State :=
  let v := s.port p
  let w : Waiting := { frame := f, since := s.tb }
  match byteAt f 0 / 64 with
  | 1 =>
    if v.ctrlQ.length < 256 then s.setPort p { v with ctrlQ := v.ctrlQ ++ [w] }
    else s.setPort p { v with cfull := satAdd 0xFFFF v.cfull 1 }
  | 2 =>
    if v.bulkQ.length < 64 then s.setPort p { v with bulkQ := v.bulkQ ++ [w] }
    else if s.isOwn f then s.setPort p { v with refused := satAdd 0xFFFF v.refused 1 }
    else s.setPort p { v with bdrop := satAdd 0xFFFF v.bdrop 1 }
  | _ =>
    if v.safeQ.length < 32 then s.setPort p { v with safeQ := v.safeQ ++ [w] }
    else s.setPort p { v with safedrop := satAdd 0xFF v.safedrop 1 }

/-- A frame is due on a port: it leaves at once on a free one and waits for a busy one. -/
def State.emit (s : State) (p : Nat) (f : List Byte) : State :=
  if (s.port p).busyTo ≤ s.tb then s.transmit p f else s.enqueue p f

/-- Post status of a bulk frame at the moment of its post (R370). -/
def State.postStatus (s : State) (p : Nat) : Nat :=
  if s.tb < (s.port p).busyTo ∧ 64 ≤ (s.port p).bulkQ.length then stCapacity else stOk

/-- A frame with a field of two bytes at `o` renewed, and its link check with it. -/
def renewed (f : List Byte) (o v : Nat) : List Byte :=
  let g := f.take o ++ be16 v ++ (f.take (f.length - 4)).drop (o + 2)
  g ++ be32 (crc32c g)

/-- AGE of a waiting control frame with its queueing time, in units of 10 µs; 0 for an LSA (R370). -/
def Waiting.age (w : Waiting) (now : Nat) : Nat :=
  if byteAt w.frame 0 = 0x50 then numAt w.frame 8 2 + (now - w.since) / 2000 else 0

/-- A frame that no node can read: its link check, its kind or its length is wrong (R355). -/
def State.malformed (s : State) (p : Nat) : State :=
  let v := s.port p
  s.setPort p { v with lcrc := satAdd 0xFFFF v.lcrc 1 }

/-- A frame of the given kind is taken in at port `p`; the failures of LCRC and of Table 17.2 are
counted (R355). -/
def State.takeFrame (s : State) (p : Nat) (f : List Byte) (cls kind : Nat) : State × Option Frame :=
  let r := s.checkWith (8 + p) 3#2 (f.take (f.length - 4)) (numAt f (f.length - 4) 4)
  let s1 := r.1.chargePort p
  match readFrame f with
  | none => (s1.malformed p, none)
  | some x =>
    if !r.2 || !knownFrame x then (s1.malformed p, none)
    else if x.cls = cls ∧ x.kind = kind then (s1, some x) else (s, none)

/-- Address that the map gives a UID. -/
def State.mapAddr (s : State) (uid : Nat) : Option Nat :=
  s.fab.bind fun f => (f.nodeOf uid).map (addrOf f.fabric)

/-- A MEMBER holds the address (R361). -/
def State.memberAt (s : State) (addr : Nat) : Bool :=
  s.lnk.db.any fun l => l.addr == addr && s.peerState l.uid == 1

/-- The address belongs to an EXPELLED node, whose place no MEMBER has taken (R362). -/
def State.expelledAddr (s : State) (addr : Nat) : Bool :=
  some addr != s.ownAddr && !s.memberAt addr && s.nv.expel.any fun u =>
    (s.lsaOf u).map Lsa.addr == some addr || s.mapAddr u == some addr || s.lnk.claims.contains (u, addr)

/-- The address that an EXPELLED node claims is kept, though its LSA is dropped (R362). -/
def State.keepClaim (s : State) (uid : Nat) (addr : Option Nat) : State :=
  match addr with
  | none => s
  | some a => { s with lnk := { s.lnk with claims := (uid, a) :: s.lnk.claims.filter fun x => x.1 != uid } }

/-- Node `u` produces the connection: its producer, or the MEMBER in that one's place (R362). -/
def State.feeds (s : State) (u : Nat) (c : ConsImg) : Bool :=
  u == c.uid.toNat || ((s.lsaOf u).any fun l => s.mapAddr c.uid.toNat == some l.addr && s.peerState u == 1)

/-- Bytes that SCRC covers (R356): header bytes 2 to 5, body byte 7, body bytes 10 to 13, the payload. -/
def scrcBytes (dst src : Nat) (body : List Byte) : List Byte :=
  be16 dst ++ be16 src ++ bytesAt body 7 1 ++ bytesAt body 10 4 ++ bytesAt body 16 (byteAt body 11)

/-- SCRC of a copy (R356). -/
def scrc (dst src : Nat) (body : List Byte) : Nat := crcAlive 3#2 (numAt body 14 2) (scrcBytes dst src body)

/-- PATH of Table 17.3. -/
def pathWord (ports : List Nat) : Nat :=
  (ports.zipIdx.map fun x => x.1 * 4 ^ (15 - x.2)).sum

/-- Body bytes 0 to 9 of a copy that leaves by the hop `hop` of a leg. -/
def sdataHead (rt : Bool) (leg hop : Nat) (ports : List Nat) (hops : Nat) (starting : Bool) (acc : Nat) :
    List Byte :=
  [BitVec.ofNat 8 (128 * b2n rt + 32 * leg + hop), BitVec.ofNat 8 ports.length] ++
    be32 (pathWord ports) ++ [BitVec.ofNat 8 hops, BitVec.ofNat 8 (128 * b2n starting)] ++
    be16 (min 0xFFFF acc)

/-! ### Consumed connections (R368, R369) -/

def State.setCons (s : State) (key : Nat) (v : Cons) : State :=
  { s with lnk := { s.lnk with cons := Tab.set .start s.lnk.cons key v } }

/-- N × P in ticks. -/
def ConsImg.limit (c : ConsImg) : Nat := c.n * c.period * 50000

/-- ROUTES: the routes from which a copy was accepted or known for a duplicate within the last N × P (R369). -/
def Cons.routes (v : Cons) (c : ConsImg) (now : Nat) : Nat :=
  let fresh (t : Option Nat) : Bool := (t.map fun x => decide (now < x + c.limit)).getD false
  b2n (fresh v.rt1) + b2n (fresh v.rt2)

/-- What the connection delivers in a state. -/
def ConsImg.value (c : ConsImg) (st : ConSt) (payload : List Byte) : List Byte :=
  if st = .live then payload else c.failsafe

/-- Record CONNECTION; a staged connection writes none into the running image's part. -/
def State.consTo (s : State) (st : Bool) (k : Nat) (c : ConsImg) (old new : Cons) : State :=
  let v := c.value new.st new.payload
  let n1 := if v = old.val then new
    else { new with val := v, prev := if old.valAt = s.tb then old.prev else old.val, valAt := s.tb }
  let s1 := s.setCons (consKey st k) n1
  if old.st = new.st then s1.seeDiffer
  else
    (s1.record 0x0C02 (if new.st = .failsafe then 3 else 2)
      [BitVec.ofNat 8 k, BitVec.ofNat 8 old.st.code, BitVec.ofNat 8 new.st.code,
       BitVec.ofNat 8 (new.routes c s.tb)] st).seeDiffer

/-- Entry into FAILSAFE: both routes are lost, and any ALIVE value is taken next (R368, R369). -/
def State.failCons (s : State) (st : Bool) (k : Nat) (c : ConsImg) : State :=
  let v := s.cons (consKey st k)
  if v.st = .failsafe then s
  else s.consTo st k c v { v with st := .failsafe, succ := 0, rt1 := none, rt2 := none,
                                  alive := none, fsentries := satAdd 255 v.fsentries 1 }

/-- A connection at its start (Table 17.6). -/
def State.startCons (s : State) (st : Bool) (k : Nat) (c : ConsImg) : State :=
  s.setCons (consKey st k) { Cons.start with val := c.failsafe, prev := c.failsafe, valAt := s.tb }

/-- Every consumed connection of an image, with its number. -/
def State.consList (s : State) (st : Bool) : List (Nat × ConsImg) :=
  (((s.img st).bind Image.fabric).map fun f => f.consumed.zipIdx.map fun x => (x.2, x.1)).getD []

/-- Takes `f` over the connections of both images. -/
def State.overCons (s : State) (f : State → Bool → Nat → ConsImg → State) : State :=
  [false, true].foldl (fun acc st =>
    (acc.consList st).foldl (fun a x => f a st x.1 x.2) acc) s

/-- The connections that node `u` of `t` produces take their fail-safe values at once, but for those that a MEMBER has
taken over from it (R362). -/
def State.expelCons (s t : State) (u : Nat) : State :=
  let taken (c : ConsImg) : Bool := t.lnk.db.any fun l => l.uid != u && t.feeds l.uid c
  s.overCons fun a st k c => if t.feeds u c && !taken c then a.failCons st k c else a

/-- The state that an accepted copy calls for (Table 17.6). -/
def Cons.after (v : Cons) (c : ConsImg) (starting taint : Bool) (succ : Nat) : ConSt :=
  if starting then .starting
  else if taint && c.taintfs then .tainted
  else if v.st = .failsafe ∧ succ < 3 then .failsafe
  else .live

/-- A copy reaches a consumed connection of one image; `good`: its SCRC is valid (R368). -/
def State.consume (s : State) (st : Bool) (k : Nat) (c : ConsImg) (x : Frame) (good : Bool) : State :=
  let b := x.body
  let v := s.cons (consKey st k)
  let alive := numAt b 14 2
  let rt := decide (128 ≤ byteAt b 0)
  let plen := byteAt b 11
  let mark (w : Cons) : Cons := if rt then { w with rt2 := some s.tb } else { w with rt1 := some s.tb }
  if plen ≠ c.plen ∨ numAt b 12 2 ≠ c.layout ∨ b.length ≠ 20 + plen then
    s.setCons (consKey st k) { v with layout := satAdd 255 v.layout 1 }
  else if !good then
    s.setCons (consKey st k) { v with badalive := satAdd 255 v.badalive 1 }
  else if 1500 * byteAt b 6 < numAt b 8 2 then
    s.setCons (consKey st k) { v with late := satAdd 255 v.late 1 }
  else if v.alive = some alive then s.setCons (consKey st k) (mark v)
  else
    let any := v.st = .wait ∨ v.st = .failsafe
    let ahead := match v.alive with
      | some a => (alive + 65536 - a) % 65536
      | none => 1
    if any ∨ (1 ≤ ahead ∧ ahead ≤ c.n) then
      let succ := if ahead = 1 then v.succ + 1 else 1
      let new := v.after c (decide (128 ≤ byteAt b 7)) x.taint succ
      s.consTo st k c v { mark v with
        st := new, alive := some alive, lastAt := some s.tb, succ := succ,
        payload := bytesAt b 16 plen, hmax := max v.hmax (byteAt b 6) }
    else s.setCons (consKey st k) { v with badalive := satAdd 255 v.badalive 1 }

/-- The node at an address is the producer of the connection, or the MEMBER in its place; a GUEST that claims a mapped
address is none (R362, R368, Table 17.8). -/
def State.names (s : State) (src : Nat) (c : ConsImg) : Bool :=
  let held := s.lnk.db.any fun l => l.addr == src
  let from_ := if src / 256 % 64 = ((s.fab.map FabricImg.fabric).getD 0) then
      (if held && !s.memberAt src then none else s.uidAt src)
    else if s.addrFor c.uid.toNat = some src then some c.uid.toNat else none
  let taken := match from_, (s.fab.bind fun f => f.nodeOf c.uid.toNat) with
    | some u, some n => u == c.uid.toNat || addrOf (src / 256 % 64) n == src
    | some u, none => u == c.uid.toNat
    | none, _ => false
  taken && !(from_.any s.nv.expel.contains)

/-- A copy addressed to the device goes to the connections that CONN and its producer name; one that names none is
counted as discarded. The port's unit checks SCRC with the carried ALIVE (R301, R368). -/
def State.deliver (s : State) (p : Nat) (x : Frame) : State :=
  let b := x.body
  let hit (c : ConsImg) : Bool := !c.control && c.conn == byteAt b 10 && s.names x.src c
  let s1 := s.runUnit (8 + p) fun c => c.aliveCheck false (numAt b 14 2) (scrcBytes x.dst x.src b)
  let u := (s1.unit (8 + p)).expect (numAt b (16 + byteAt b 11) 4)
  let s2 := (s1.setUnit (8 + p) u).chargePort p
  if (s.consList false ++ s.consList true).any fun e => hit e.2 then
    s2.overCons fun a st k c => if hit c then a.consume st k c x u.match_ else a
  else s2.discard p 0

/-! ### Peer table and records (R361, R363, R373) -/

/-- The node can be reached over two-way links. -/
def State.reachable (s : State) (uid : Nat) : Bool := !(s.pathsOver false uid).isEmpty

/-- State of a peer as its arrivals and departures show it. -/
def State.peerShown (s : State) (uid : Nat) : Nat :=
  let st := s.peerState uid
  if st = 1 ∧ s.reachable uid = false then 0 else st

/-- A change of TAINT of a node of another fabric is recorded (R373). -/
def State.judgeRoof (s : State) : State :=
  (s.lnk.roof.filter fun l => l.uid != s.uid && (s.lsaOf l.uid).isNone).foldl (fun acc l =>
    let old := Tab.get (0, false) acc.lnk.peers l.uid
    if old.2 = l.taint then acc
    else
      ({ acc with lnk := { acc.lnk with peers := Tab.set (0, false) acc.lnk.peers l.uid (old.1, l.taint) } } : State).record
        0x0C04 2 (be64 l.uid ++ [BitVec.ofNat 8 (b2n l.taint)])) s

/-- Judges every peer, and records what has changed. -/
def State.judgePeers (s : State) : State :=
  let s0 := if s.clashNow && !s.lnk.clash then
      let s1 := { s with lnk := { s.lnk with clash := true } }
      s1.portRecord 0 (s1.port 0).st.code (s1.port 0).st.code
    else s
  (s0.peerUids.foldl (fun acc u =>
    let old := Tab.get (0, false) acc.lnk.peers u
    let st := acc.peerShown u
    let taint := ((acc.lsaOf u).map Lsa.taint).getD old.2
    let addr := ((acc.addrFor u).getD 0)
    let a1 := { acc with lnk := { acc.lnk with peers := Tab.set (0, false) acc.lnk.peers u (st, taint) } }
    let a2 := if old.1 = st then a1
      else a1.record 0x0C01 2 (be64 u ++ be16 addr ++ [BitVec.ofNat 8 old.1, BitVec.ofNat 8 st])
    if old.2 = taint then a2 else a2.record 0x0C04 2 (be64 u ++ [BitVec.ofNat 8 (b2n taint)])) s0).judgeRoof

/-- Recomputes the routes of the produced connections and the standby's part (R359, R371). -/
def State.recompute (s : State) : State :=
  match s.fab with
  | none => { s with lnk := { s.lnk with routeDue := none } }
  | some f =>
    let prod := f.produced.zipIdx.foldl (fun (acc : Tab Prod) x =>
      let v := Tab.get Prod.start acc x.2
      let rs := x.1.consumers.zipIdx.map fun u =>
        s.routesFor x.1.dual u.1.toNat (nth v.routes u.2 [])
      Tab.set Prod.start acc x.2 { v with routes := rs }) s.lnk.prod
    let acting := f.role == 2 && match s.uidAt (addrOf f.fabric f.master) with
      | some u => !s.reachable u
      | none => true
    { s with lnk := { s.lnk with prod := prod, acting := acting, routeDue := none } }

/-! ### Hand-over (R374) -/

def ProdImg.same (x y : ProdImg) : Bool :=
  x.conn == y.conn && x.period == y.period && x.plen == y.plen && x.layout == y.layout &&
    x.dual == y.dual && x.consumers == y.consumers && x.control == y.control

def ConsImg.same (x y : ConsImg) : Bool :=
  x.uid == y.uid && x.conn == y.conn && x.period == y.period && x.plen == y.plen &&
    x.layout == y.layout && x.dual == y.dual && x.n == y.n && x.control == y.control

/-- The connections of `new` take the place of those of `old`; the image in force is the new one. -/
def State.switchFabric (s : State) (old new : Option FabricImg) : State :=
  let op := (old.map FabricImg.produced).getD []
  let np := (new.map FabricImg.produced).getD []
  let oc := (old.map FabricImg.consumed).getD []
  let nc := (new.map FabricImg.consumed).getD []
  let prod := np.zipIdx.foldl (fun (acc : Tab Prod) x =>
    match op.findIdx? fun y => y.same x.1 with
    | some j => Tab.set Prod.start acc x.2 (Tab.get Prod.start s.lnk.prod j)
    | none => acc) []
  let cons := nc.zipIdx.foldl (fun (acc : Tab Cons) x =>
    let v := match oc.findIdx? fun y => y.same x.1 with
      | some j =>
        let v := Tab.get Cons.start s.lnk.cons j
        let w := x.1.value v.st v.payload
        if w = v.val then v
        else { v with val := w, prev := if v.valAt = s.tb then v.prev else v.val, valAt := s.tb }
      | none => { Cons.start with val := x.1.failsafe, prev := x.1.failsafe, valAt := s.tb }
    Tab.set Cons.start acc x.2 v) []
  let control := nc.zipIdx.foldl (fun (acc : Tab Ctl) x =>
    match oc.findIdx? fun y => y.same x.1 with
    | some j => Tab.set Ctl.none acc x.2 (Tab.get Ctl.none s.lnk.control j)
    | none => acc) []
  let s1 := { s with lnk := { s.lnk with prod := prod, cons := cons, control := control, claims := [],
                                         lsaDue := true, since := s.tb } }
  let s2 := (List.range 4).foldl (fun acc p =>
    let r := acc.portRole p
    let v := acc.port p
    if r = 0 then (if v.st = .failed then acc else acc.portTo p .off)
    else if v.st = .off && acc.linkOn then acc.portTo p .down else acc) s1
  (s2.judgePeers).recompute

/-- The LINK domain starts or is lost (R354, R374). -/
def State.linkStart (s : State) : State :=
  let s1 := { s with lnk := { s.lnk with db := [], roof := [], lsaAt := none, lsaDue := true } }
  ((List.range 4).foldl (fun acc p =>
    if acc.portRole p = 0 then acc
    else (acc.setPort p { (acc.port p) with helloAt := none, nuid := 0, run := 0, delays := [], slow := false,
                                            sentAt := none, st := .off }).portTo p .down) s1).recompute

def State.linkLoss (s : State) : State :=
  let s1 := (List.range 4).foldl (fun acc p => acc.portTo p .off) s
  let s2 := { s1 with lnk := { s1.lnk with db := [], roof := [], control := [] } }
  let s3 := s2.overCons fun a st k c => a.failCons st k c
  (s3.judgePeers).recompute

end Sys2Proof.Machine
end

