-- ==== Sys2Proof/Machine/Placement.lean ====
section
/-! DEFINITION. An image takes its place: rooms, instances, timers, connections, addresses
(R98, R128, R320, R423). -/

namespace Sys2Proof.Machine

/-! ### Rooms -/

/-- Physical room `r` starts to carry image room `m` from its start values. -/
def State.putRoom (s : State) (key r : Nat) (m : RoomImg) (mirror : Bool) : State :=
  let st := if 64 ≤ key then RoomSt.staged else if mirror then .mirror else .active
  s.setRoom r { s.room r with st := st, iroom := key,
                              cells := startCells m s.tb, differs := false, rideEnded := [] }

/-- One image room of a plan. A room without a place waits for one, its latches at demand (R98). -/
def State.putImageRoom (s : State) (st : Bool) (x : RoomImg × Option Nat) : State :=
  let key := roomKey st x.1.iroom
  match x.2 with
  | some r =>
    let s1 := (s.putRoom key r x.1 false).setIrm key { IRoom.none with room := some r }
    if st || r == x.1.iroom then s1 else s1.roomRecord r key 4 0x3FF
  | none => s.setIrm key { IRoom.none with failedAt := some s.tb, demand := true }

/-- One mirror of a plan: it starts together with its room. -/
def State.putImageMirror (s : State) (st : Bool) (x : (RoomImg × Nat) × Option Nat) : State :=
  let key := roomKey st x.1.1.iroom
  match x.2 with
  | some r => (s.putRoom key r x.1.1 true).setIrm key
      { s.irm key with building := some (r, s.tb), built := true }
  | none => s

def State.putPlan (s : State) (st : Bool) (p : RoomPlan) : State :=
  p.mirrors.foldl (fun acc x => acc.putImageMirror st x)
    (p.rooms.foldl (fun acc x => acc.putImageRoom st x) s)

/-! ### Instances -/

/-- An instance that starts on engine `e`, in DEMAND (R143); P2 work waits for its engine to be SPLIT
(R423). -/
def State.freshInst (s : State) (i : InstImg) (e : Option Nat) : Inst :=
  { st := s.startFn i, engine := e, status := if i.prio = 2 then 1 else 0, started := false,
    moving := false, restore := false, wins := [], spec := none, lastHash := none, lastWin := 0,
    lastAt := 0, prevOuts := 0, hold := none, safe := true, ckpt := none, ckIn := .a, ckBad := false, from_ := none,
    left := none,
    began := s.tb, resets := [] }

def State.putInsts (s : State) (m : Image) (st : Bool) : State :=
  let placed := s.placeNew m st
  let put := m.insts.foldl (fun acc i =>
    let e := (placed.find? fun r => r.1.key == instKey st i.num).bind Prod.snd
    acc.setInst st i.num (some (acc.freshInst i e))) s
  put.settle

/-! ### Timers (R292) -/

/-- Timer `n` as two images define it. -/
def timerOf (l : List TimerImg) (n : Nat) : Option TimerImg :=
  match l[n]? with
  | some x => if x.used then some x else none
  | none => none

/-- The timers that only the staged image defines run in shadow. -/
def State.shadowTimers (s : State) (old new : List TimerImg) : State :=
  (List.range 64).foldl (fun acc n =>
    match timerOf old n, timerOf new n with
    | none, some x => acc.setTimer n { x.asTimer with shadowed := true }
    | _, _ => acc) s

/-- At the hand-over commit. -/
def State.switchTimers (s : State) (old new : List TimerImg) : State :=
  (List.range 64).foldl (fun acc n =>
    match timerOf old n, timerOf new n with
    | some _, none => acc.setTimer n .unused
    | none, some _ => acc.updTimer n fun t => { t with shadowed := false }
    | _, _ => acc) s.takeDues

/-- At start-up. -/
def State.startTimers (s : State) (l : List TimerImg) : State :=
  let put := (List.range 64).foldl (fun (acc : Tab Timer) n =>
    match timerOf l n with
    | some x => Tab.set .unused acc n x.asTimer
    | none => acc) []
  { s with tmr := { timers := put, readers := [] } }

/-! ### Porch addresses (R329) -/

def State.usePorch (s : State) (m : Option Image) : State :=
  let p := match m.bind Image.porch with
    | some x => { s.por with prp := x.prp, h1 := x.h1, h2 := x.h2, secret := x.secret }
    | none => { s.por with prp := false, h1 := defaultH1, h2 := defaultH2, secret := List.replicate 32 0#8 }
  { s with por := p }

/-! ### Switching and power-fail -/

/-- A domain is switching. -/
def State.switching (s : State) : Bool :=
  (List.range 8).any fun d => (s.dom d).st == .goingDown || (s.dom d).st == .comingUp

/-- A domain other than `d` is switching (R273). -/
def State.switchingBut (s : State) (d : Nat) : Bool :=
  (List.range 8).any fun x =>
    x != d && ((s.dom x).st == .goingDown || (s.dom x).st == .comingUp)

/-- The BUSY of R320 and R324. -/
def State.busy (s : State) : Bool := s.switching || s.migrating || s.pwr.pfail

/-! ### The seal (R317) -/

/-- The code against which the seal is judged. -/
def State.expectedSeal (s : State) : Byte :=
  match s.cfg.image with
  | some m => m.hdr.sealCode
  | none => ((s.slotHeader s.nv.active).map ImgHeader.sealCode).getD 0

/-- DEV_STATUS.SEAL: 0 ENGINEER, 1 RUN, 2 LOCKED-OUT. -/
def State.sealJudge (s : State) : Nat :=
  if s.cfg.sealNow = 0 then 0 else if s.cfg.sealNow = s.expectedSeal then 1 else 2

/-! ### Loads (R312) -/

/-- A load in progress is abandoned, if `who` names its session. -/
def State.abandonLoad (s : State) (who : Nat → Bool) : State :=
  match s.cfg.load with
  | none => s
  | some l => if who l.session then
      ({ s with cfg := { s.cfg with load := none } }).setSlot l.slot .empty
    else s

/-- A firmware load in progress is abandoned (R349). -/
def State.abandonFw (s : State) : State :=
  match s.por.fw with
  | some f => if f.phase = .loading then { s with por := { s.por with fw := none } } else s
  | none => s

/-- A validation run is lost; its slot keeps its state (Table 15.7). -/
def State.loseRun (s : State) : State :=
  if s.cfg.running.isNone then s
  else { s with cfg := { s.cfg with running := none, valStep := 0, valResult := 0 } }

end Sys2Proof.Machine
end

