-- ==== Sys2Proof/Machine/ImageCmds.lean ====
section
/-! DEFINITION. Loading, validating, staging and handing over images; the seal and the cover
(chapter 15). -/

namespace Sys2Proof.Machine

/-! ### Loading (Table 15.5) -/

/-- The slot that a load takes: the free one; while no image executes, the one that the active-slot
pointer does not name. -/
def State.loadSlot (s : State) : Nat :=
  if s.cfg.image.isSome then 1 - s.cfg.slot else 1 - s.nv.active

def State.imageBegin (s : State) (session len : Nat) : Answer :=
  let k := s.loadSlot
  if (s.slot k).st = .staged then (s, stState, [])
  else if s.cfg.load.isSome || s.cfg.running.map Prod.fst == some k then (s, stBusy, [])
  else
    let l : Load := { session := session, slot := k, len := len, next := 0, lastAt := s.tb }
    (({ s with cfg := { s.cfg with load := some l } }).setSlot k
      { st := .loading, mem := [], len := 0 }, stOk, [BitVec.ofNat 8 k])

/-- The offset rules of Table 15.5: none, or whether the bytes are new. -/
def chunkFits (mem : Memory) (next len off : Nat) (data : List Byte) : Option Bool :=
  if len < off + data.length then none
  else if off = next then some true
  else if off + data.length ≤ next ∧ mem.readList off data.length = data then some false
  else none

def State.imageChunk (s : State) (session off : Nat) (data : List Byte) : Answer :=
  match s.cfg.load with
  | none => (s, stState, [])
  | some l =>
    if l.session ≠ session then (s, stState, [])
    else
      let v := s.slot l.slot
      let seen (t : State) (n : Nat) : State :=
        { t with cfg := { t.cfg with load := some { l with next := n, lastAt := t.tb } } }
      match chunkFits v.mem l.next l.len off data with
      | none => (s, stArg, [])
      | some false => (seen s l.next, stOk, [])
      | some true =>
        (seen (s.setSlot l.slot { v with mem := v.mem.writeList off data }) (off + data.length),
          stOk, [])

def State.imageEnd (s : State) (session : Nat) : Answer :=
  match s.cfg.load with
  | none => (s, stState, [])
  | some l =>
    if l.session ≠ session then (s, stState, [])
    else if l.next ≠ l.len then (s, stArg, [])
    else
      (({ s with cfg := { s.cfg with load := none } }).setSlot l.slot
        { s.slot l.slot with st := .loaded, len := l.len }, stOk, [])

def State.imageAbandon (s : State) (session : Nat) : Answer :=
  if (s.cfg.load.map Load.session) = some session then (s.abandonLoad fun _ => true, stOk, [])
  else if s.cfg.staged.isSome then (s.endStage .abandon, stOk, [])
  else (s, stState, [])

/-- IMAGE_BEGIN (R312). -/
def execImageBegin (h : Hdr) (body : List Byte) (s : State) : Host.Outcome State Fault Refusal :=
  .next (s.request h (engineer 0x20) (body.length == 4 && decide (numAt body 0 4 ≤ 8388608)) fun t _ =>
    t.imageBegin h.session.toNat (numAt body 0 4))

/-- IMAGE_CHUNK (R312). -/
def execImageChunk (h : Hdr) (body : List Byte) (s : State) : Host.Outcome State Fault Refusal :=
  .next (s.request h (engineer 0x21) (decide (5 ≤ body.length ∧ body.length ≤ 1004)) fun t _ =>
    t.imageChunk h.session.toNat (numAt body 0 4) (body.drop 4))

/-- IMAGE_END (R312). -/
def execImageEnd (h : Hdr) (body : List Byte) (s : State) : Host.Outcome State Fault Refusal :=
  .next (s.request h (engineer 0x22) body.isEmpty fun t _ => t.imageEnd h.session.toNat)

/-- IMAGE_ABANDON (R312). -/
def execImageAbandon (h : Hdr) (body : List Byte) (s : State) : Host.Outcome State Fault Refusal :=
  .next (s.request h (engineer 0x26) body.isEmpty fun t _ => t.imageAbandon h.session.toNat)

/-- LOAD_TIMEOUT: no chunk for 600 s (R312). -/
def execLoadTimeout (s : State) : Host.Outcome State Fault Refusal :=
  .next <|
    match s.cfg.load with
    | some l => if decide (l.lastAt + 120000000000 ≤ s.tb) && s.alive then s.abandonLoad fun _ => true
      else s
    | none => s

/-! ### Validation (R313) -/

def State.imageValidate (s : State) (k op : Nat) : Answer :=
  if 2 ≤ k then (s, stArg, [])
  else if !([SlotSt.loaded, .valid, .invalid].contains (s.slot k).st) then (s, stState, [])
  else if s.cfg.running.isSome then (s, stBusy, [])
  else
    ({ s with cfg := { s.cfg with running := some (k, op), valSect := noSect, valSlot := k,
                                  valStep := 0, valResult := 5 } }, stAccepted, [])

/-- IMAGE_VALIDATE: a run of Table 15.6 begins; VALIDATION_DONE ends it. -/
def execImageValidate (h : Hdr) (body : List Byte) (s : State) : Host.Outcome State Fault Refusal :=
  .next (s.request h (engineer 0x23) (body.length == 1) fun t op =>
    t.imageValidate (numAt body 0 1) op)

/-! ### Staging (R320) -/

/-- The image in a slot. -/
def State.slotImage (s : State) (k : Nat) : Option Image := parseImage (s.slotBytes k)

def State.imageStage (s : State) (k op : Nat) : Answer :=
  if 2 ≤ k then (s, stArg, [])
  else if (s.slot k).st ≠ .valid ∨ s.cfg.staged.isSome = true then (s, stState, [])
  else if s.busy || s.cfg.running.map Prod.fst == some k then (s, stBusy, [])
  else
    match s.slotImage k with
    | none => (s, stState, [])
    | some m =>
      if decide (0 < s.eng.thresh) || !s.spareOk m || !s.fitOk m then (s, stCapacity, [])
      else
        let c := { s.cfg with staged := some m, stagedSlot := k, clock0 := s.pwr.opsec, ready := false,
                              dseen := 0 }
        let s1 := ({ s with cfg := c }).putPlan true (planStaged m s.freeRooms)
        let s2 := (s1.putInsts m true).shadowTimers ((s.cfg.image.map Image.timers).getD []) m.timers
        let s3 := (s2.consList true).foldl (fun acc x => acc.startCons true x.1 x.2) s2
        let s4 := (s3.setSlotSt k .staged).seeDiffer
        let s5 := s4.record 0x0A04 2 ([BitVec.ofNat 8 k, 0#8] ++ wordBytes s4.stageWord) true
        (s5.finish op stOk, stAccepted, [])

/-- IMAGE_STAGE. -/
def execImageStage (h : Hdr) (body : List Byte) (s : State) : Host.Outcome State Fault Refusal :=
  .next (s.request h (engineer 0x24) (body.length == 1) fun t op => t.imageStage (numAt body 0 1) op)

/-- READY: the shadow clock has reached SHADOW (R322). -/
def execReady (s : State) : Host.Outcome State Fault Refusal :=
  .next <|
    if s.stageDue && s.alive then { s with cfg := { s.cfg with ready := true } } else s

/-! ### Hand-over (R324 to R326) -/

/-- `H` + 50 µs for a command accepted at tick `t`. -/
def handoverAt (t : Nat) : Nat := (t + 200000 + 1599999) / 1600000 * 1600000 + 10000

def State.imageHandover (s : State) (force : Bool) (op : Nat) : Answer :=
  if s.cfg.staged.isNone || !s.stageReady || s.cfg.handover.isSome then (s, stState, [])
  else if s.busy then (s, stBusy, [])
  else
    ({ s with cfg := { s.cfg with handover := some { force := force, op := op, at_ := handoverAt s.tb } } },
      stAccepted, [])

/-- IMAGE_HANDOVER. -/
def execImageHandover (h : Hdr) (body : List Byte) (s : State) : Host.Outcome State Fault Refusal :=
  .next (s.request h (engineer 0x25) (body.length == 1) fun t op =>
    t.imageHandover ((nth body 0 0#8).getLsbD 0) op)

/-- Mode of an output in an image: used, single-pole, source-only. -/
def Image.outMode (m : Option Image) (k : Nat) : Bool × Bool :=
  match m with
  | some i => (i.pole.getLsbD k, i.sonly.getLsbD k)
  | none => (false, false)

/-- Command of an output under the running image, a held output counting as OFF (R325). -/
def State.runningCmd (s : State) (k : Nat) : Bool :=
  s.command false k && !(s.tripSourced k &&
    ((s.mx .a && s.lgc.tripA.any fun x => x.out == k) ||
      (s.mx .b && s.lgc.tripB.any fun x => x.out == k)))

/-- Outputs that make the hand-over refused (R325): those that differ, under FORCE only those ON in the
new image, and those whose mode differs. -/
def State.bumps (s : State) (force : Bool) : Long :=
  mask64 fun k =>
    let old := s.runningCmd k
    let new := s.command true k
    let mode := s.cfg.image.isSome && Image.outMode s.cfg.image k != Image.outMode s.cfg.staged k &&
      (old || new)
    mode || ((old != new) && (!force || new))

/-- The instances of the new image take the place of those of the old one, whose requests end. -/
def State.switchInsts (s : State) : State :=
  let s1 := s.eng.insts.foldl (fun acc e =>
    match e.2 with
    | some v => if e.1 < 1024 then acc.dropResets v else acc
    | none => acc) s
  let insts := (s1.eng.insts.filter fun e => decide (1024 ≤ e.1)).map fun e => (e.1 - 1024, e.2)
  let masks := (s1.eng.masks.filter fun e => decide (32 ≤ e.1)).map fun e => (e.1 - 32, e.2)
  { s1 with eng := { s1.eng with insts := insts, masks := masks, thresh := 0 } }

/-- A physical room that carried a staged image room, or a copy of one, carries image room `key`. -/
def State.carryAs (s : State) (key : Nat) (r : Option Nat) (st : RoomSt) : State :=
  match r with
  | none => s
  | some x =>
    let v := s.room x
    let held := decide (v.st = .held)
    let keep := v.st == .rewriting || v.st == .failed
    s.setRoom x { v with iroom := key, heldAs := if held then st else v.heldAs,
                         st := if held || keep then v.st else st }

/-- The rooms of the new image take the place of those of the old one, which go to self-test. -/
def State.switchRooms (s : State) : State :=
  let old := s.sea.imap.flatMap fun e =>
    if 64 ≤ e.1 then []
    else e.2.room.toList ++ e.2.mirror.toList ++ (e.2.building.map Prod.fst).toList ++
      (e.2.rewrite.map Prod.fst).toList
  let imap := (s.sea.imap.filter fun e => decide (64 ≤ e.1)).map fun e => (e.1 - 64, e.2)
  let s1 := { s with sea := { s.sea with imap := imap } }
  let s2 := old.foldl (fun acc r => if (acc.room r).st = .failed then acc.dropRoom r
    else acc.roomToTest r false) s1
  imap.foldl (fun acc e =>
    (((acc.carryAs e.1 e.2.room .active).carryAs e.1 e.2.mirror .mirror).carryAs e.1
      (e.2.building.map Prod.fst) .mirror).carryAs e.1 (e.2.rewrite.map Prod.fst) .rewriting) s2

/-- CFG_GEN. -/
def State.genWord (s : State) : Word :=
  let waits := s.nv.blows.any fun x => decide (54 ≤ x.word ∧ x.word < 86) && x.pending && !x.again
  mkWord [(b2n (s.genCount == 1024), 31), (b2n waits, 30), (s.genCount, 0)]

/-- Record HANDOVER. -/
def State.handoverRecord (s : State) (old new status : Nat) (force : Bool) : State :=
  s.record 0x0A05 2 (be32 old ++ be32 new ++ [BitVec.ofNat 8 status, BitVec.ofNat 8 (b2n force)] ++
    wordBytes s.genWord)

/-- Record PEER_LIST: list 0 accept, 1 expel; event 0 entered, 1 left, 2 cleared. -/
def State.peerList (s : State) (uid list event : Nat) : State :=
  s.record 0x0C03 2 (be64 uid ++ [BitVec.ofNat 8 list, BitVec.ofNat 8 event])

/-- Both lists are cleared at a hand-over commit (R362). -/
def State.clearLists (s : State) : State :=
  let s1 := s.nv.accept.foldl (fun acc u => acc.peerList u 0 2) s
  let s2 := s.nv.expel.foldl (fun acc u => acc.peerList u 1 2) s1
  { s2 with nv := { s2.nv with accept := [], expel := [] } }

/-- Step 4 and step 6 of R324: the commit of a hand-over. -/
def State.handoverSwitch (s : State) (new : Image) (o : Handover) : State :=
  let old := s.cfg.image
  let k := s.cfg.stagedSlot
  let s1 := s.switchInsts
  let c := { s1.cfg with image := some new, slot := k, staged := none, ready := false,
                         ended := .handover, handover := none }
  let s1b := { s1 with cfg := c }
  let keep (l : Tab InForm) : Tab InForm := l.filter fun e => s1b.inputsOf.contains e.1
  let s2 := ({ s1b with lgc := { s1b.lgc with tripA := [], tripB := [], bank := !s1b.lgc.bank,
                                               ins := keep s1b.lgc.ins } }).switchRooms
  let s3 := s2.switchTimers ((old.map Image.timers).getD []) new.timers
  let s4 := (s3.clearLists.switchFabric (old.bind Image.fabric) new.fabric).usePorch (some new)
  let s5 := if old.isSome then s4.setSlotSt s.cfg.slot .loaded else s4
  let s6 := (s5.setSlotSt k .running).advanceCounter 54 32 1024
  let s7 := { s6 with nv := s6.nv.point k }
  let s8 := (s7.handoverRecord ((old.map fun m => m.hdr.gen).getD 0) new.hdr.gen stOk o.force).finish o.op
    stOk
  ((s8.redistribute).replace).settle.serveSea

/-- The judgement and the commit of a hand-over at X, once X has come. -/
def State.handoverDue (s : State) : State :=
    match s.cfg.handover, s.cfg.staged with
    | some o, some m =>
      if s.tb < o.at_ ∨ s.ticking = false then s
      else
        let gen := (s.cfg.image.map fun i => i.hdr.gen).getD 0
        let stay := { s with cfg := { s.cfg with handover := none } }
        if s.cfg.sealNow ≠ 0 then
          (stay.handoverRecord gen m.hdr.gen stSeal o.force).finish o.op stSeal
        else if s.bumps o.force = 0 then s.handoverSwitch m o
        else
          let nb := s.bumps o.force
          (({ stay with cfg := { stay.cfg with lastnb := nb } }).handoverRecord gen m.hdr.gen stBump
            o.force).finish o.op stBump (be64 nb.toNat)
    | _, _ => s

/-- HANDOVER_COMMIT. -/
def execHandoverCommit (s : State) : Host.Outcome State Fault Refusal := .next s.handoverDue

/-! ### Seal and cover (R317 to R319) -/

/-- R138: the attached engine is detached because the seal left 0x00. -/
def State.detachEngine (s : State) (event : Nat) : State :=
  match s.eng.attached with
  | none => s
  | some e =>
    let v := s.engine e
    let s1 := s.setEngine e { v with halted := false, breaks := [], drainOp := 0, forDebug := false }
    let s2 := { s1 with eng := { s1.eng with attached := none } }
    let s3 := if v.st = .debug then s2.setEngSt e .split
      else if v.st = .draining then (s2.setEngine e { s2.engine e with forDebug := false }).finish v.drainOp stSeal
      else s2
    ((s3.taintRecord e event).announce).settle

/-- SEAL: a new code, read unchanged for 200 ms, is accepted. -/
def execSealChange (code : Byte) (s : State) : Host.Outcome State Fault Refusal :=
  .next <|
    if code = s.cfg.sealNow ∨ s.alive = false then s
    else
      let old := s.cfg.sealNow
      let s1 := { s with cfg := { s.cfg with sealNow := code } }
      let s2 := s1.record 0x0A01 2 [old, code, BitVec.ofNat 8 s1.sealJudge]
      if old = 0 then
        ((s2.abandonLoad fun _ => true).abandonFw).detachEngine 3
      else s2

/-- COVER: the switch comes to read open, has read open for 100 ms, which counts an opening, or reads closed
(R319, R327). -/
def execCover (c : CoverSwitch) (s : State) : Host.Outcome State Fault Refusal :=
  .next <|
    let shows (b : Bool) (t : Option Nat) : State := { s with cfg := { s.cfg with coverOpen := b, coverAt := t } }
    if !s.alive then s
    else
      match c with
      | .opened => if s.cfg.coverOpen then s else shows true (some s.now)
      | .closed => shows false none
      | .held =>
        match s.cfg.coverAt with
        | none => s
        | some t =>
          if s.now < t + 20000000 then s
          else
            let s1 := (shows true none).advanceCounter 86 16 512
            s1.record 0x0A02 2 ([s1.cfg.sealNow] ++ be16 s1.openings)

end Sys2Proof.Machine
end

