-- ==== Sys2Proof/Machine/Services.lean ====
section
/-! DEFINITION. The redundancy inventory and the service states (chapter 10). -/

namespace Sys2Proof.Machine

/-! ### Members in service (Table 10.1) -/

def State.supplyOk (s : State) : Side → Bool
  | .a => decide (s.pwr.supA.st = .ok)
  | .b => decide (s.pwr.supB.st = .ok)

/-- The link delivers and its matrix copy is powered. -/
def State.linkIn (s : State) (l : Side) : Bool :=
  decide ((s.link l).st = .valid) && !(s.link l).retired && s.mx l

/-- A porch processor serves or stands by. -/
def State.procIn (s : State) (q : Side) : Bool :=
  s.powered 1 && (decide ((s.proc q).st = .active) || decide ((s.proc q).st = .standby))

def State.oscIn (s : State) (q : Side) : Bool :=
  match (match q with | .a => s.pwr.osc.a | .b => s.pwr.osc.b) with
  | .selected => true
  | .standby => true
  | _ => false

/-- Members of a pair that `f` finds in service. -/
def bothSides (f : Side → Bool) : Nat := b2n (f .a) + b2n (f .b)

/-- Supplies are lost while the power-fail sequence rides through. -/
def State.riding (s : State) : Bool := s.pwr.pfail && !s.supplyOk .a && !s.supplyOk .b

/-! ### Connections (R239 ROUTES) -/

/-- How many routes a consumed DUAL connection counts as having: none in FAILSAFE, one left only in LIVE (R369). -/
def Cons.routesLeft (v : Cons) (c : ConsImg) (now : Nat) : Nat :=
  let n := v.routes c now
  if v.st = .failsafe then 0 else if v.st ≠ .live ∧ n = 1 then 2 else n

/-- Routes of the DUAL safety connections: consumed ones by number, then produced ones. -/
def State.dualRoutes (s : State) : List Nat :=
  match s.fab with
  | none => []
  | some f =>
    (f.consumed.zipIdx.filter fun x => x.1.dual && !x.1.control).map (fun x => (s.cons x.2).routesLeft x.1 s.tb)
    ++ (f.produced.zipIdx.filter fun x => x.1.dual && !x.1.control).map fun x =>
      ((Tab.get .start s.lnk.prod x.2).routes.map List.length).foldl min 2

/-- A consumed DUAL connection has one route left (R369). -/
def State.oneRoute (s : State) (k : Nat) : Bool :=
  match s.consImg false k with
  | some c => c.dual && !c.control && (s.cons k).routesLeft c s.tb == 1
  | none => false

/-! ### The sea (Table 4.4) -/

def State.freeAny (s : State) : Bool := !s.freeRooms.isEmpty

/-- 1 CLEAR, 2 HAZE, 3 OVERCAST for one image room. -/
def State.roomShow (s : State) (m : RoomImg) : Nat :=
  let mir := (s.irm m.iroom).mirror.isSome
  if m.mirrored then (if mir then 1 else if s.freeAny then 2 else 3)
  else if s.freeAny then 1 else if mir then 2 else 3

/-! ### What stands once for all functions -/

/-- Facts that the judgement of every function shares. -/
structure Shared where
  image     : Image
  cover     : Nat
  uncovered : List Nat
  unrest    : Bool
  cmps      : Nat
  links     : Nat
  seqs      : Nat
  supplies  : Nat
  oscs      : Nat
  riding    : Bool
  stopped   : Bool
  deriving DecidableEq, Repr

/-- A sequencer is out: declared dead or retired, or stopped with no partner left to declare it, once
its frames stay away (DESIGN CHOICE, log 80). -/
def State.seqOut (s : State) (q : Side) : Bool :=
  s.fsCode q != 0 || (decide ((s.seq q).st ≠ .alive) && decide ((s.seq (otherSide q)).st ≠ .alive) &&
    decide (2 ≤ (s.link q).missRun))

def State.seqsIn (s : State) : Nat := if s.fieldOn then bothSides fun q => !s.seqOut q else 0

def State.shared (s : State) (m : Image) : Shared :=
  { image := m, cover := s.coverage true, uncovered := s.uncovered,
    unrest := (List.range 8).any fun e => (s.engine e).st == .suspect || (s.engine e).st == .testing,
    cmps := bothSides s.cmpOk, links := bothSides s.linkIn, seqs := s.seqsIn,
    supplies := bothSides s.supplyOk, oscs := bothSides s.oscIn, riding := s.riding,
    stopped := s.pwr.osc.stopped }

/-- Contributions of Table 10.2: cause and 2 HAZE or 3 OVERCAST. -/
abbrev Contribs := List (Nat × Nat)

def contrib (cause : Nat) (haze excess : Bool) : Contribs :=
  if excess then [(cause, 3)] else if haze then [(cause, 2)] else []

/-- Contributions that every P0 and P1 function takes. -/
def Shared.common (x : Shared) : Contribs :=
  contrib 4 (decide (x.links < 2)) false ++ contrib 5 (decide (x.seqs < 2)) false ++
    contrib 8 (decide (x.supplies < 2)) x.riding ++ contrib 9 (decide (x.oscs < 2)) false

def worstOf (l : Contribs) : Nat := (l.map Prod.snd).foldl max 1

def causesOf (l : Contribs) : Nat := ((l.map Prod.fst).eraseDups.map fun c => 2 ^ c).sum

/-- The checkpoint memory that serves an instance is unavailable to it (R26, R275). -/
def State.noCkm (s : State) (v : Inst) : Bool :=
  match v.engine with
  | some e => !s.ckmFor e || (v.started && v.ckpt.isNone)
  | none => false

def readsOne (s : State) (l : List Source) : Bool :=
  l.any fun x => match x with
    | .conn k _ => s.oneRoute k
    | _ => false

/-- R242 for an engine instance; after the switch-off every function is SAFE (R260). -/
def State.instShow (s : State) (x : Shared) (i : InstImg) : FnShow :=
  match s.inst false i.num with
  | none =>
    if !s.pwr.off then .none
    else if i.prio = 2 then { state := 4, istate := 0, cause := 0 }
    else { state := 4, istate := worstOf x.common, cause := causesOf x.common }
  | some v =>
    if i.prio = 2 then
      { state := if v.engine.isSome && v.status == 0 && !x.stopped then 1 else 4, istate := 0, cause := 0 }
    else
      let l := contrib 0 (decide (x.cover < x.image.hdr.spare) || x.unrest) (x.uncovered.contains i.num)
        ++ contrib 1 false (s.noCkm v) ++ contrib 2 (decide (x.cmps < 2)) false ++ x.common
        ++ contrib 7 false (readsOne s (i.binds.map BindImg.source))
        ++ contrib 10 false (v.st.motion.isSome && v.st.diags.contains 13 && v.st.logic != 3)
        ++ contrib 11 false (i.type == 0x0E && v.st.diags.contains 10)
      let safe := safeLogic v.st.logic || (v.safe && v.started) || v.status == 2 || x.stopped ||
        x.cmps == 0
      { state := if safe then 4 else worstOf l, istate := worstOf l, cause := causesOf l }

/-- R99, R242 for a sea function. -/
def State.seaShow (s : State) (x : Shared) (f : SFuncImg) : FnShow :=
  let rooms := x.image.rooms.filter fun m => f.rooms.contains m.iroom
  let w := (rooms.map s.roomShow).foldl max 1
  let l := contrib 3 (w == 2) (w == 3) ++ x.common ++
    contrib 7 false (readsOne s (rooms.flatMap fun m => m.ports.map PortImg.source))
  let safe := (rooms.any fun m => (s.irm m.iroom).demand) || x.stopped || s.pwr.off
  { state := if safe then 4 else worstOf l, istate := worstOf l, cause := causesOf l }

/-- Functions of the running image by number, each with its priority. -/
def State.showAll (s : State) : List (Nat × Nat × FnShow) :=
  match s.img false with
  | none => []
  | some m =>
    let x := s.shared m
    m.insts.map (fun i => (i.num, i.prio, s.instShow x i)) ++
      m.sfuncs.map fun f => (f.num, f.prio, s.seaShow x f)

/-! ### The device (R244, R245) -/

/-- Items of Table 10.1 that are consumed. -/
def State.consumed (s : State) : List Nat :=
  let cover := match s.img false with
    | some m => decide (s.coverage true < m.hdr.spare)
    | none => false
  let unrest := (List.range 8).any fun e => (s.engine e).st == .suspect || (s.engine e).st == .testing
  let rooms := match s.img false with
    | some m => m.rooms.any fun r => decide (1 < s.roomShow r)
    | none => false
  [(0, cover || unrest), (1, !(s.ckmOk .a && s.ckmOk .b)), (2, decide (bothSides s.cmpOk < 2)),
    (3, rooms), (4, decide (bothSides s.linkIn < 2)), (5, decide (s.seqsIn < 2)),
    (6, decide (bothSides s.procIn < 2)), (7, s.dualRoutes.any fun n => decide (n < 2)),
    (8, decide (bothSides s.supplyOk < 2)), (9, decide (bothSides s.oscIn < 2))].filterMap fun x =>
      if x.2 then some x.1 else none

/-- DEV_STATUS.STATE from the states of the P0 and P1 functions and the device ISTATE. -/
def State.devState (s : State) (fns : List FnShow) (ist : Nat) : Nat :=
  if s.pwr.step < 9 then 0
  else if s.pwr.off || s.cfg.image.isNone || s.seqsIn == 0 || s.pwr.osc.stopped then 4
  else if ((List.range 8).any fun e => (s.engine e).st == .debug) || s.cfg.staged.isSome then 5
  else if !fns.isEmpty && fns.all fun f => f.state == 4 then 4
  else ist

/-- SVC_DEVICE. -/
def Svc.word (v : Svc) : Word :=
  mkWord [(v.cause, 8), (b2n v.replace, 7), (v.istate, 4), (v.state, 0)]

/-- Record SERVICE. -/
def State.serviceRecord (s : State) (f : Nat) (old new : FnShow) : State :=
  s.record 0x0802 (if new.state = 4 then 3 else 2)
    (be16 f ++ [BitVec.ofNat 8 old.state, BitVec.ofNat 8 new.state, BitVec.ofNat 8 old.istate,
      BitVec.ofNat 8 new.istate] ++ be16 new.cause)

/-- One function's entry takes what is judged now; a function that appears has not changed. -/
def State.showFn (s : State) (f : Nat) (new : FnShow) : State :=
  let old := Tab.get FnShow.none s.svc.fns f
  let s1 := { s with svc := { s.svc with fns := Tab.set FnShow.none s.svc.fns f new } }
  if old.state = 0 ∨ (old.state = new.state ∧ old.istate = new.istate) then s1
  else
    ({ s1 with svc := { s1.svc with change := (s1.svc.change + 1) % 2 ^ 32 } }).serviceRecord f old new

/-- Recomputes STATE and ISTATE of every function and of the device (R243 to R245). -/
def State.recomputeServices (s : State) : State :=
  let all := s.showAll
  let keep := s.svc.fns.filter fun e => all.any fun x => x.1 == e.1
  let s0 := { s with svc := { s.svc with fns := keep } }
  let s1 := all.foldl (fun acc x => acc.showFn x.1 x.2.2) s0
  let fns := (all.filter fun x => decide (x.2.1 < 2)).map fun x => x.2.2
  let items := s1.consumed
  let worst := (fns.map FnShow.istate).foldl max 1
  let ist := if items.isEmpty then worst else max worst 2
  let bits (c : Nat) : Bool := items.contains c || fns.any fun f => f.cause.testBit c
  let cause := ((List.range 12).map fun c => if bits c then 2 ^ c else 0).sum
  let excess (c : Nat) : Bool := match s1.img false with
    | none => false
    | some m =>
      let x := s1.shared m
      if c = 0 then m.insts.any fun i => decide (i.prio < 2) && x.uncovered.contains i.num
      else if c = 1 then m.insts.any fun i => decide (i.prio < 2) &&
        ((s1.inst false i.num).map s1.noCkm).getD false
      else m.sfuncs.any fun f => m.rooms.any fun r => f.rooms.contains r.iroom && s1.roomShow r == 3
  let replace := ist == 3 && (excess 0 || excess 1 || excess 3)
  let old : Svc := s1.svc
  let new : Svc :=
    { old with state := s1.devState fns ist, istate := ist, cause := cause, replace := replace }
  let s2 := { s1 with svc := new }
  if old.state = new.state ∧ old.istate = new.istate ∧ old.replace = new.replace then s2
  else
    let n := if old.state = new.state ∧ old.istate = new.istate then 0 else 1
    ({ s2 with svc := { s2.svc with change := (s2.svc.change + n) % 2 ^ 32 } }).record 0x0901 2
      (wordBytes old.word ++ wordBytes new.word)

/-! ### Registers of the inventory -/

def State.svcInv0 (s : State) : Word :=
  mkWord [(bothSides s.oscIn, 12), (bothSides s.supplyOk, 10), (bothSides s.procIn, 8), (s.seqsIn, 6),
    (bothSides s.linkIn, 4), (bothSides s.cmpOk, 2), (bothSides s.ckmOk, 0)]

def State.countEng (s : State) (st : EngSt) : Nat :=
  ((List.range 8).filter fun e => (s.engine e).st == st).length

def State.svcInv1 (s : State) : Word :=
  let retired := ((List.range 8).filter fun e => (Tab.get 0#32 s.fus.shadow 104).getLsbD e).length
  mkWord [(s.uncovered.length, 16), (s.coverage true, 14), (s.policy, 12), (retired, 8),
    (s.countEng .split, 4), (s.inService.length, 0)]

def State.svcInv2 (s : State) : Word :=
  let rooms := ((s.img false).map Image.rooms).getD []
  let no := rooms.filter fun m => s.roomShow m == 3
  let mir := rooms.filter fun m => m.mirrored && (s.irm m.iroom).mirror.isNone
  mkWord [(no.length, 8), (mir.length, 0)]

def State.svcInv3 (s : State) : Word :=
  let l := s.dualRoutes
  mkWord [((l.filter fun n => n == 0).length, 20), ((l.filter fun n => n == 1).length, 10),
    (l.length, 0)]

/-- SVC_CNT0 (best true) and SVC_CNT1. -/
def State.svcCnt (s : State) (best : Bool) : Word :=
  let p := s.showAll.filter fun x => decide (x.2.1 < 2)
  let n (st : Nat) : Nat := (p.filter fun x => (Tab.get FnShow.none s.svc.fns x.1).state == st).length
  if best then mkWord [(n 2, 16), (n 1, 0)] else mkWord [(n 4, 16), (n 3, 0)]

end Sys2Proof.Machine
end

