-- ==== Sys2Proof/Machine/FunctionTable.lean ====
section
/-! DEFINITION. The function table: LIMITED, SVC_FN, SVC_FNWHY, ENG_INST and FUNCTION_QUERY (R52, R139,
R251, Table 16.8). -/

namespace Sys2Proof.Machine

/-! ### LIMITED (R52) -/

/-- A place that a function's value passes on its way to a field output. -/
inductive PathNode where
  | inst (i : Nat)
  | latch (room l : Nat)
  | site (room n : Nat)
  | ld (room u : Nat)
  | port (room p : Nat)
  | conn (k b : Nat)
  deriving DecidableEq, Repr

def Source.node : Source → List PathNode
  | .inst i _ => [.inst i]
  | .latch r l => [.latch r l]
  | .conn k b => [.conn k b]
  | _ => []

def Selector.node (r : Nat) : Selector → List PathNode
  | .const _ => []
  | .site n => [.site r n]
  | .port p => [.port r p]
  | .ld u => [.ld r u]

/-- What a place takes its value from. A consumed connection that the device `uid` produces itself carries
the path on; the image says nothing of another producer's functions (R52). -/
def Image.feeds (m : Image) (uid : Nat) (x : PathNode) : List PathNode :=
  let room (r : Nat) : Option RoomImg := m.rooms.find? fun y => y.iroom == r
  match x with
  | .inst i => ((m.insts.find? fun y => y.num == i).map fun y =>
      y.binds.flatMap fun b => b.source.node).getD []
  | .latch r l => (((room r).bind fun y => y.latches.find? fun z => z.latch == l).map fun z =>
      [PathNode.site r z.site]).getD []
  | .site r n => (((room r).bind fun y => y.sites.find? fun z => z.site == n).map fun z =>
      z.in0.node r ++ z.in1.node r ++ z.in2.node r ++ z.in3.node r).getD []
  | .ld r u => (((room r).bind fun y => y.lds.find? fun z => z.unit == u).map fun z =>
      z.input.node r).getD []
  | .port r p => (((room r).bind fun y => y.ports.find? fun z => z.port == p).map fun z =>
      z.source.node).getD []
  | .conn k b =>
    match m.fabric.bind fun f => f.consumed[k]?.map fun c => (f, c) with
    | none => []
    | some (f, c) =>
      if c.uid.toNat ≠ uid then []
      else ((f.produced.find? fun p => p.conn == c.conn && p.control == c.control).map fun p =>
        ((p.sources[b]?).map Source.node).getD []).getD []

/-- Sources of the single-pole outputs. -/
def Image.poleRoots (m : Image) : List PathNode :=
  (List.range 64).flatMap fun k =>
    let w := m.ow k
    if !m.pole.getLsbD k || !bitOf w 31 then []
    else
      (if bitOf w 24 then [PathNode.latch (bf (m.oa k) 31 26) (bf (m.oa k) 25 20)] else []) ++
        (if bitOf w 25 then [PathNode.inst (bf (m.ob k) 25 16)] else []) ++
        (if bitOf w 26 then [PathNode.conn (bf (m.oa k) 16 9) (bf (m.oa k) 8 0)] else [])

/-- Everything that reaches `todo`; `fuel` bounds the number of places. -/
def Image.reach (m : Image) (uid : Nat) : Nat → List PathNode → List PathNode → List PathNode
  | 0, _, done => done
  | _, [], done => done
  | n + 1, x :: todo, done =>
    if done.contains x then m.reach uid n todo done
    else m.reach uid n (m.feeds uid x ++ todo) (x :: done)

/-- Places of an image, and the most steps that a search over them takes. -/
def Image.reachBound (m : Image) : Nat :=
  let per := m.rooms.map fun r => 5 * (r.sites.length + r.ports.length + r.latches.length + r.lds.length)
  let con := (m.fabric.map fun f => 2 * (f.consumed.map fun c => 8 * c.plen).sum).getD 0
  192 + con + per.sum + (m.insts.map fun i => 1 + i.binds.length).sum

def Image.limitedNodes (m : Image) (uid : Nat) : List PathNode := m.reach uid m.reachBound m.poleRoots []

/-- Function `f` is LIMITED. -/
def Image.limited (m : Image) (uid f : Nat) : Bool :=
  let l := m.limitedNodes uid
  if f < 1024 then l.contains (.inst f)
  else match m.sfuncs.find? fun x => x.num == f with
    | some x => l.any fun y => match y with
      | .latch r _ => x.rooms.contains r
      | _ => false
    | none => false

/-! ### Words -/

/-- SVC_FN of function `f`; a staged function shows STATE ENGINEER and ISTATE 0 (R346). -/
def State.svcFn (s : State) (st : Bool) (f : Nat) : Word :=
  match s.img st with
  | none => 0
  | some m =>
    let show_ : FnShow := if st then { state := 5, istate := 0, cause := 0 }
      else Tab.get FnShow.none s.svc.fns f
    let base := [(b2n (m.limited s.uid f), 29), (show_.state, 26), (show_.istate, 23)]
    if f < 1024 then
      match s.instImg st f with
      | none => 0
      | some i =>
        let more := match s.inst st f with
          | some v => [(v.status, 19), (v.st.logic, 15), (v.st.diags.head?.getD 0, 10)]
          | none => []
        mkWord ([(1, 31), (i.prio, 21), (if i.prio = 2 then 0 else i.rank, 0)] ++ base ++ more)
    else
      match m.sfuncs.find? fun x => x.num == f with
      | none => 0
      | some x => mkWord ([(1, 31), (1, 30), (x.prio, 21), (x.rank, 0)] ++ base)

/-- SVC_FNWHY. -/
def State.svcWhy (s : State) (st : Bool) (f : Nat) : Word :=
  if st then 0 else mkWord [((Tab.get FnShow.none s.svc.fns f).cause, 0)]

/-- ENG_INST. An instance that no engine carries shows a free value in ENGINE. -/
def State.engInst (s : State) (st : Bool) (i : Nat) : Word :=
  match s.instImg st i with
  | none => 0
  | some x =>
    let e := ((s.inst st i).bind Inst.engine).getD ((Config.freeWord s.free).toNat % 8)
    x.word ||| mkWord [(1, 31), (e, 28)]

/-! ### FUNCTION_QUERY (Table 16.8) -/

def State.queryInst (s : State) (st : Bool) (m : Image) (i : InstImg) : List Byte :=
  let own := m.owned i.num
  let entry (t : Nat) : List Byte :=
    match m.trigs[t]? with
    | none => []
    | some x =>
      let kind := bf x.word 31 28
      [BitVec.ofNat 8 t, BitVec.ofNat 8 kind, BitVec.ofNat 8 x.sense, 0#8] ++
        (if kind = 2 then wordBytes x.thr else be32 0)
  wordBytes (s.svcFn st i.num) ++ wordBytes (s.svcWhy st i.num) ++ wordBytes (s.engInst st i.num) ++
    [BitVec.ofNat 8 i.type, BitVec.ofNat 8 own.length, 0#8, 0#8] ++
    be32 (((s.inst st i.num).map Inst.lastWin).getD 0 % 2 ^ 32) ++ own.flatMap entry

def State.querySea (s : State) (st : Bool) (f : SFuncImg) : List Byte :=
  wordBytes (s.svcFn st f.num) ++ wordBytes (s.svcWhy st f.num) ++ be32 0 ++
    [0#8, BitVec.ofNat 8 f.rooms.length, 0#8, 0#8] ++ be32 0 ++ f.rooms.map (BitVec.ofNat 8)

def State.functionQuery (s : State) (st : Bool) (f : Nat) : Answer :=
  match s.img st with
  | none => (s, stArg, [])
  | some m =>
    match s.instImg st f, m.sfuncs.find? fun x => x.num == f with
    | some i, _ => (s, stOk, s.queryInst st m i)
    | none, some x => (s, stOk, s.querySea st x)
    | none, none => (s, stArg, [])

/-- FUNCTION_QUERY (R346). -/
def execFunctionQuery (h : Hdr) (body : List Byte) (s : State) : Host.Outcome State Fault Refusal :=
  .next (s.request h (observe 0x31 false) (body.length == 2) fun t _ =>
    t.functionQuery h.staged (numAt body 0 2))

end Sys2Proof.Machine
end

