-- ==== Sys2Proof/Machine/EngineCmds.lean ====
section
/-! DEFINITION. Resets, split and join, and the debugger (R134 to R137, R148, R230, R346, R348). -/

namespace Sys2Proof.Machine

/-! ### Resets (R148, R230, R346) -/

/-- A reset request reaches an instance, unless it is shed (R148, Table 10.4). -/
def State.resetInst (s : State) (st : Bool) (i op : Nat) : Answer :=
  match s.inst st i with
  | none => (s, stArg, [])
  | some v =>
    if v.engine.isNone then (s, stState, [])
    else (s.setInst st i (some { v with resets := v.resets ++ [op] }), stAccepted, [])

def State.resetOutput (s : State) (k op : Nat) : Answer :=
  if (s.oform k).cause = 0 ∨ s.bothOff k = false then (s, stState, [])
  else
    let l := Tab.get [] s.lgc.orst k
    ({ s with lgc := { s.lgc with orst := Tab.set [] s.lgc.orst k (l ++ [op]) } }, stAccepted, [])

/-- FUNCTION_RESET: kind 0 an instance, 1 an output. -/
def State.functionReset (s : State) (st : Bool) (kind n op : Nat) : Answer :=
  match kind with
  | 0 =>
    if 1024 ≤ n then (s, stArg, [])
    else if st && s.cfg.staged.isNone then (s, stState, [])
    else
      match s.instImg st n with
      | none => (s, stArg, [])
      | some i => if i.hostreset then s.resetInst st n op else (s, stArg, [])
  | 1 => if st || decide (64 ≤ n) then (s, stArg, []) else s.resetOutput n op
  | _ => (s, stArg, [])

/-- The FUNCTION_RESET mailbox. -/
def State.resetRequest (s : State) (h : Hdr) (body : List Byte) : State :=
  s.request h (operate 0x30) (body.length == 4) fun t op =>
    t.functionReset h.staged (numAt body 0 1) (numAt body 2 2) op

/-- FUNCTION_RESET. -/
def execFunctionReset (h : Hdr) (body : List Byte) (s : State) : Host.Outcome State Fault Refusal :=
  .next (s.resetRequest h body)

/-- FUNCTION_RESET naming output `k` (R230). -/
def execOutputReset (h : Hdr) (k : Fin 64) (s : State) : Host.Outcome State Fault Refusal :=
  .next (s.resetRequest h ([1#8, 0#8] ++ be16 k.val))

/-! ### Split and join -/

def State.engineSplit (s : State) (e op : Nat) : Answer :=
  if 8 ≤ e then (s, stArg, [])
  else if s.migrating then (s, stBusy, [])
  else if !s.inService.contains e then (s, stState, [])
  else if !s.splitFits e false then (s, stCapacity, [])
  else
    let s1 := (s.setEngine e { s.engine e with drainOp := op, forDebug := false }).setEngSt e .draining
    (s1.redistribute.settle, stAccepted, [])

def State.engineJoin (s : State) (e op : Nat) : Answer :=
  if 8 ≤ e then (s, stArg, [])
  else if (s.engine e).st ≠ .split then (s, stState, [])
  else (s.startTest e (.join op), stAccepted, [])

/-- ENGINE_SPLIT (R134). -/
def execEngineSplit (h : Hdr) (body : List Byte) (s : State) : Host.Outcome State Fault Refusal :=
  .next (s.request h (operate 0x40) (body.length == 1) fun t op => t.engineSplit (numAt body 0 1) op)

/-- ENGINE_JOIN (R135). -/
def execEngineJoin (h : Hdr) (body : List Byte) (s : State) : Host.Outcome State Fault Refusal :=
  .next (s.request h (operate 0x41) (body.length == 1) fun t op => t.engineJoin (numAt body 0 1) op)

/-! ### The debugger (R136, R348) -/

/-- DEBUG_ATTACH, OP 0. -/
def State.debugAttach (s : State) (e op : Nat) : Answer :=
  let v := s.engine e
  if s.migrating then (s, stBusy, [])
  else if s.eng.attached.isSome || [EngSt.suspect, .testing, .retired, .off].contains v.st then
    (s, stState, [])
  else
    let s1 := s.setEngine e { v with tainted := true, drainOp := op, forDebug := true, halted := false }
    let s2 := { s1 with eng := { s1.eng with taint := true, attached := some e } }
    let s3 := ((s2.taintRecord e 0).announce).evict e
    (((s3.setEngSt e .draining).redistribute).settle, stAccepted, [])

/-- Bytes of a space (Table 5.1). -/
def spaceSize : Nat → Nat
  | 0 => 65536
  | 1 => 32768
  | 2 => 16384
  | _ => Config.coreSpace

/-- A byte as the debugger finds it: what was written since the engine last ran, else a free value.
Instruction memory does not change, and is the same in all eight engines (R104). -/
def Engine.byte (v : Engine) (e space a : Nat) : Byte :=
  if space = 0 then Config.engineByte 0 0 a 0
  else (Tab.get none (Tab.get [] v.spaces space) a).getD (Config.engineByte e space a v.ran)

/-- Engine `e` runs its code: what its memories hold is open again. -/
def State.runs (s : State) (e : Nat) : State :=
  (s.setEngine e { s.engine e with spaces := [], ran := s.free + 1 }).takeFree

/-- A running engine changes its memories between two accesses. -/
def State.settleMemory (s : State) (e : Nat) : State :=
  if (s.engine e).halted then s else s.runs e

def putBytes (t : Tab (Option Byte)) (a : Nat) (bs : List Byte) : Tab (Option Byte) :=
  (bs.zipIdx a).foldl (fun acc x => Tab.set none acc x.2 (some x.1)) t

/-- OP 1 to OP 6 on the engine in DEBUG. -/
def State.debugOp (s : State) (e op space addr len : Nat) (data : List Byte) : Answer :=
  let v := s.engine e
  if v.st ≠ .debug then (s, stState, [])
  else
    match op with
    | 1 => (s.takeDues.setEngine e { v with halted := true }, stOk, [])
    | 2 => (s.setEngine e { v with halted := false }, stOk, [])
    | 3 => (s.runs e, stOk, [])
    | 4 =>
      let s1 := s.settleMemory e
      (s1, stOk, (List.range len).map fun j => (s1.engine e).byte e space (addr + j))
    | 5 =>
      let s1 := s.settleMemory e
      let w := s1.engine e
      (s1.setEngine e { w with
        spaces := Tab.upd [] w.spaces space fun t => putBytes t addr data }, stOk, [])
    | _ =>
      let a := BitVec.ofNat 32 addr
      let rest := v.breaks.filter fun x => x != a
      if len = 0 then (s.setEngine e { v with breaks := rest }, stOk, [])
      else if 8 ≤ rest.length then (s, stCapacity, [])
      else (s.setEngine e { v with breaks := rest ++ [a] }, stOk, [])

/-- Whether a DEBUG_ATTACH body has the layout and the values that its OP takes. -/
def debugShaped (body : List Byte) : Bool :=
  let op := numAt body 1 1
  let space := numAt body 2 1
  let addr := numAt body 4 4
  let len := numAt body 8 2
  decide (12 ≤ body.length ∧ numAt body 0 1 < 8) &&
    match op with
    | 4 => body.length == 12 && decide (1 ≤ len ∧ len ≤ 1000 ∧ space < 4 ∧ addr + len ≤ spaceSize space)
    | 5 => decide (1 ≤ len ∧ len ≤ 992 ∧ body.length = 12 + len ∧ 1 ≤ space ∧ space < 4 ∧
        addr + len ≤ spaceSize space)
    | _ => body.length == 12 && decide (op ≤ 6)

/-- The DEBUG_ATTACH mailbox. -/
def State.debugRequest (s : State) (h : Hdr) (body : List Byte) : State :=
  let e := numAt body 0 1
  let op := numAt body 1 1
  s.request h (engineer 0xA0) (debugShaped body) fun t n =>
    if op = 0 then t.debugAttach e n
    else t.debugOp e op (numAt body 2 1) (numAt body 4 4) (numAt body 8 2) (body.drop 12)

/-- The body of a DEBUG_ATTACH (R348). -/
def debugBody (e op : Nat) (space : Byte) (addr : Nat) (len : Nat) (data : List Byte) : List Byte :=
  [BitVec.ofNat 8 e, BitVec.ofNat 8 op, space, 0#8] ++ be32 addr ++ be16 len ++ [0#8, 0#8] ++ data

/-- DEBUG_ATTACH (R136, R348). -/
def execDebugAttach (h : Hdr) (body : List Byte) (s : State) : Host.Outcome State Fault Refusal :=
  .next (s.debugRequest h body)

/-- HALT: DEBUG_ATTACH with OP 1. -/
def execHalt (h : Hdr) (e : Fin 8) (s : State) : Host.Outcome State Fault Refusal :=
  .next (s.debugRequest h (debugBody e.val 1 0 0 0 []))

/-- RESUME: OP 2. -/
def execResume (h : Hdr) (e : Fin 8) (s : State) : Host.Outcome State Fault Refusal :=
  .next (s.debugRequest h (debugBody e.val 2 0 0 0 []))

/-- DEBUG_STEP: OP 3. -/
def execDebugStep (h : Hdr) (e : Fin 8) (s : State) : Host.Outcome State Fault Refusal :=
  .next (s.debugRequest h (debugBody e.val 3 0 0 0 []))

/-- DEBUG_READ: OP 4. -/
def execDebugRead (h : Hdr) (e : Fin 8) (space : DebugSpace) (addr : Word) (len : Half) (s : State) :
    Host.Outcome State Fault Refusal :=
  .next (s.debugRequest h (debugBody e.val 4 space addr.toNat len.toNat []))

/-- DEBUG_WRITE: OP 5. -/
def execDebugWrite (h : Hdr) (e : Fin 8) (space : DebugSpace) (addr : Word) (data : List Byte)
    (s : State) : Host.Outcome State Fault Refusal :=
  .next (s.debugRequest h (debugBody e.val 5 space addr.toNat data.length data))

/-- BREAK: OP 6. -/
def execBreakSet (h : Hdr) (e : Fin 8) (addr : Word) (set : Half) (s : State) :
    Host.Outcome State Fault Refusal :=
  .next (s.debugRequest h (debugBody e.val 6 0 addr.toNat set.toNat []))

def State.debugDetach (s : State) (e : Nat) : Answer :=
  if 8 ≤ e then (s, stArg, [])
  else if (s.engine e).st ≠ .debug then (s, stState, [])
  else (s.detachEngine 1, stOk, [])

/-- DEBUG_DETACH (R137). -/
def execDebugDetach (h : Hdr) (body : List Byte) (s : State) : Host.Outcome State Fault Refusal :=
  .next (s.request h (engineer 0xA1) (body.length == 1) fun t _ => t.debugDetach (numAt body 0 1))

/-- BREAKPOINT: the attached engine reaches a breakpoint and halts. -/
def execBreakpoint (e : Fin 8) (s : State) : Host.Outcome State Fault Refusal :=
  .next <|
    let v := s.engine e.val
    if v.st ≠ .debug ∨ v.halted = true ∨ v.breaks = [] then s
    else
      let s1 := s.takeDues.runs e.val
      s1.setEngine e.val { s1.engine e.val with halted := true }

end Sys2Proof.Machine
end

