-- ==== Sys2Proof/Machine/Fuses.lean ====
section
/-! DEFINITION. The fuse bank: sensing, blowing, redirection, the programming window (chapter 18,
R347). -/

namespace Sys2Proof.Machine

def FuseRow.bits (r : FuseRow) : Word := r.aNorm ||| r.aStrict ||| r.bNorm ||| r.bStrict

/-- Bits whose four readings are not all equal (R379). -/
def FuseRow.margin (r : FuseRow) : Word :=
  r.bits &&& ~~~(r.aNorm &&& r.aStrict &&& r.bNorm &&& r.bStrict)

def FuseRow.or (r q : FuseRow) : FuseRow :=
  { aNorm := r.aNorm ||| q.aNorm, aStrict := r.aStrict ||| q.aStrict,
    bNorm := r.bNorm ||| q.bNorm, bStrict := r.bStrict ||| q.bStrict }

/-- A row in which every blown bit reads blown in all four readings. -/
def FuseRow.whole (w : Word) : FuseRow := { aNorm := w, aStrict := w, bNorm := w, bStrict := w }

/-- Redirection entry `i`: the main row it serves while in use; whether it is void (R378). -/
def Nv.entryUse (v : Nv) (i : Nat) : Option Nat :=
  let e := (Tab.get .blank v.redir i).bits
  if bitOf e 14 && (bf e 13 7 + bf e 6 0 == 127) then some (bf e 13 7) else none

def Nv.entryVoid (v : Nv) (i : Nat) : Bool :=
  bitOf (Tab.get .blank v.redir i).bits 14 && (v.entryUse i).isNone

/-- Spare rows in use. -/
def Nv.sparesUsed (v : Nv) : Nat := ((List.range 8).filter fun i => (v.entryUse i).isSome).length

/-- A main row as it reads: its own content and that of the spare rows that serve it (R378). -/
def Nv.rowRead (v : Nv) (w : Nat) : FuseRow :=
  (List.range 8).foldl
    (fun acc i => if v.entryUse i = some w then acc.or (Tab.get .blank v.rows (128 + i)) else acc)
    (Tab.get .blank v.rows w)

/-- The four counters: first word and words (Table 18.1). -/
def counters : List (Nat × Nat) := [(49, 4), (53, 1), (54, 32), (86, 16)]

/-- Gaps of the counters in a word (R383). -/
def State.gapBits (s : State) (w : Nat) : Word :=
  match counters.find? (fun c => decide (c.1 ≤ w ∧ w < c.1 + c.2)) with
  | none => 0
  | some c =>
    let v := s.counter c.1 c.2
    maskWord fun b =>
      decide ((w - c.1) * 32 + b < v) && !(Tab.get 0#32 s.fus.shadow w).getLsbD b

/-- Bits to be re-blown, in word order (R385). -/
def State.reblows (s : State) : List (Nat × Nat) :=
  (List.range 128).flatMap fun w =>
    let m := Tab.get 0#32 s.fus.marg w ||| s.gapBits w
    if m = 0 then [] else ((List.range 32).filter fun b => m.getLsbD b).map fun b => (w, b)

/-- The re-blows join the list; a gap that is pending reads 1 from now on (R385, R386). -/
def State.fuseScan (s : State) : State :=
  let pend := !s.fus.window
  let s1 := s.reblows.foldl (fun acc e =>
    if acc.nv.blows.any (fun x => x.word == e.1 && x.bit == e.2) then acc
    else
      let t := acc.addBlow { word := e.1, bit := e.2, pending := pend, advance := false, again := true,
                             arose := s.tb }
      if pend then t.setShadow e.1 e.2 else t) s
  s1.fuseKick

/-- Shadow and margins of a word follow its row, and the shadow never loses a bit (R380). -/
def State.reread (s : State) (w : Nat) : State :=
  let r := s.nv.rowRead w
  let sh := Tab.upd 0#32 s.fus.shadow w (fun v => v ||| r.bits)
  { s with fus := { s.fus with shadow := sh, marg := Tab.set 0#32 s.fus.marg w r.margin } }

/-- The bit of a blow becomes part of its row, whole in all four readings. -/
def State.burn (s : State) (w b : Nat) : State :=
  let bit := BitVec.ofNat 32 (1 <<< b)
  let rows := Tab.upd .blank s.nv.rows w (fun r => r.or (.whole bit))
  ({ s with nv := { s.nv with rows := rows } }).reread w

/-- Spare rows that no entry in use serves, the lowest first. -/
def Nv.spares (v : Nv) : List Nat := (List.range 8).filter fun i => (v.entryUse i).isNone

/-- Steps 1 to 3 of R387 on spare row `i`: the row's content, with the bit that failed, goes into the spare row,
and `entry` into its entry. Fuses only go from 0 to 1, so what an entry holds already stays. -/
def State.copyRow (s : State) (w b i : Nat) (entry : Word) : State :=
  let content := (s.nv.rowRead w).bits ||| BitVec.ofNat 32 (1 <<< b)
  let rows := Tab.upd .blank s.nv.rows (128 + i) (fun r => r.or (.whole content))
  let redir := Tab.upd .blank s.nv.redir i (fun r => r.or (.whole entry))
  ({ s with nv := { s.nv with rows := rows, redir := redir } }).reread w

/-- VALID, ROW and NROW of an entry that serves row `w`. -/
def entryFor (w : Nat) : Word := BitVec.ofNat 32 (2 ^ 14 + w * 128 + (127 - w % 128))

/-- No spare row is left: the row stays in place and is marginal in the bit that failed, so that the OR of its
readings gives the restrictive value. DESIGN CHOICE (log 96): which of the four readings is blown. -/
def State.leaveRow (s : State) (w b : Nat) : State :=
  let bit : FuseRow := { FuseRow.blank with aStrict := BitVec.ofNat 32 (1 <<< b) }
  let rows := Tab.upd .blank s.nv.rows w (fun r => r.or bit)
  let s1 := ({ s with nv := { s.nv with rows := rows }, fus := { s.fus with nospare := true } }).reread w
  s1.record 0x0203 2 [BitVec.ofNat 8 w, 0#8, 1#8]

/-- R387: a bad row is redirected to the lowest spare row that no entry in use serves. An entry that fuses blown
before make void serves no row, and the next spare row is taken (DEDUCED, log 96). -/
def State.redirectTo (s : State) (w b : Nat) : List Nat → State
  | [] => s.leaveRow w b
  | i :: l =>
    let s1 := s.copyRow w b i (entryFor w)
    if s1.nv.entryUse i = some w then s1.record 0x0203 2 [BitVec.ofNat 8 w, BitVec.ofNat 8 i, 0#8]
    else s1.redirectTo w b l

def State.redirect (s : State) (w b : Nat) : State := s.redirectTo w b s.nv.spares

/-- A redirection cut short by a loss of power, with some bits of the entry blown (R387). -/
def State.cutRow (s : State) (w b : Nat) (entry : BitVec 15) : State :=
  match s.nv.spares with
  | [] => s
  | i :: _ => s.copyRow w b i (entryFor w &&& entry.zeroExtend 32)

/-- Counter that FUSE_ADVANCE names (R347). -/
def State.advValue (s : State) (counter : Nat) : Nat :=
  if counter = 0 then s.rollback else s.revoke

/-- FUSE_ADVANCE operations whose target is reached, or whose steps were dropped, end (R347). -/
def State.advanceEnds (s : State) : State :=
  let left := s.nv.blows.any Blow.advance
  s.por.ops.foldl (fun acc e =>
    match e.2 with
    | .fuse c t =>
      let v := acc.advValue c
      if t ≤ v then acc.finish e.1 stOk (be16 v)
      else if left then acc else acc.finish e.1 stState (be16 v)
    | .other => acc) s

/-- FUSE_BLOW: the blow in progress is verified in all four readings, or its row is bad after three
attempts and is redirected (R385, R387); a blow whose redirection is cut short stays on the list. -/
def execFuseBlow (r : BlowEnd) (s : State) : Host.Outcome State Fault Refusal :=
  .next <|
    match s.nv.blows with
    | [] => s
    | x :: rest =>
      if !s.fus.blowing || !s.alive then s
      else
        let s0 := { s with fus := { s.fus with blowing := false } }
        let done (t : State) : State :=
          (t.record 0x0201 1 [BitVec.ofNat 8 x.word, BitVec.ofNat 8 x.bit, 0#8])
        match r with
        | .blown =>
          ((done (({ s0 with nv := { s0.nv with blows := rest } }).burn x.word x.bit)).advanceEnds).fuseKick
        | .bad =>
          let t := s0.redirect x.word x.bit
          let served := (List.range 8).any fun i => t.nv.entryUse i == some x.word && s0.nv.entryUse i != some x.word
          let s1 := if served then done { t with nv := { t.nv with blows := rest } }
            else { t with nv := { t.nv with blows := rest ++ [x] } }
          s1.advanceEnds.fuseKick
        | .cut entry => s0.cutRow x.word x.bit entry

/-- PROGRAMMING_WINDOW: the rail in mV and the die temperature in 0.1 °C as now measured (R385, R386,
R347). -/
def execProgrammingWindow (mV : Nat) (temp : Int) (s : State) : Host.Outcome State Fault Refusal :=
  .next <|
    if !s.alive then s
    else
      let was := s.fus.window
      let s1 := { s with fus := { s.fus with rail := mV, temp := temp } }
      if s1.fus.window then (if was then s1.fuseKick else s1.fuseScan)
      else
        let busy := s1.nv.blows.take (b2n s1.fus.blowing)
        let rest := (s1.nv.blows.drop (b2n s1.fus.blowing)).filter fun x => !x.advance
        let blows := busy ++ rest.map fun x => { x with pending := true }
        let s2 := { s1 with nv := { s1.nv with blows := blows } }
        (rest.foldl (fun acc x => acc.setShadow x.word x.bit) s2).advanceEnds

/-- Body of FUSE_READ (Table 16.4). -/
def State.fuseRead (s : State) : List Byte :=
  let marg := (List.range 128).foldl
    (fun acc w => if Tab.get 0#32 s.fus.marg w = 0 then acc else acc + 2 ^ w) 0
  (List.range 128).flatMap (fun w => wordBytes (Tab.get 0#32 s.fus.shadow w)) ++
    beBytes 16 marg ++ [BitVec.ofNat 8 s.nv.sparesUsed]

end Sys2Proof.Machine
end

