-- ==== Sys2Proof/Machine/RecFuseCmds.lean ====
section
/-! DEFINITION. The mailbox commands of the recorder and of the fuse bank (R347, R400 to R402). -/

namespace Sys2Proof.Machine

/-- REC_INFO (R400). -/
def execRecInfo (h : Hdr) (body : List Byte) (s : State) : Host.Outcome State Fault Refusal :=
  .next (s.request h (observe 0x60 true) body.isEmpty fun t _ => (t, stOk, t.recInfo))

/-- The answer of REC_READ. -/
def State.recAnswer (s : State) (q count : Nat) : Answer :=
  let l := s.recRead q count
  (s.countRead l, stOk, [BitVec.ofNat 8 l.length, 0#8, 0#8, 0#8] ++ l.flatMap Rec.stored)

def recReadShaped (body : List Byte) : Bool :=
  decide (body.length = 5 ∧ numAt body 0 4 ≠ 0 ∧ 1 ≤ numAt body 4 1 ∧ numAt body 4 1 ≤ 15)

/-- REC_READ (R401). -/
def execRecRead (h : Hdr) (body : List Byte) (s : State) : Host.Outcome State Fault Refusal :=
  .next (s.request h (observe 0x61 true) (recReadShaped body) fun t _ =>
    t.recAnswer (numAt body 0 4) (numAt body 4 1))

/-- REC_CLEAR (R402). -/
def execRecClear (h : Hdr) (body : List Byte) (s : State) : Host.Outcome State Fault Refusal :=
  .next (s.request h (observe 0x62 false) body.isEmpty fun t _ =>
    let r := t.recClear h.session.toNat (originIp h.origin)
    (r.1, stOk, be32 r.2))

/-- FUSE_READ. -/
def execFuseRead (h : Hdr) (body : List Byte) (s : State) : Host.Outcome State Fault Refusal :=
  .next (s.request h (observe 0x70 true) body.isEmpty fun t _ => (t, stOk, t.fuseRead))

/-! ### FUSE_ADVANCE (R347) -/

/-- The bank of a processor that holds its running firmware. -/
def State.bankOf (s : State) (q : Side) : FwBank :=
  Tab.get .shipped s.nv.banks (2 * sideNat q + match q with | .a => s.nv.bankA | .b => s.nv.bankB)

/-- A target above the ROLLBACK of the firmware on a processor in service. -/
def State.aboveFirmware (s : State) (target : Nat) : Bool :=
  [Side.a, Side.b].any fun q => s.procIn q && decide ((s.bankOf q).rollback < target)

/-- The steps from value `v` to `target` join the list of blows. -/
def State.addSteps (s : State) (base v target : Nat) : State :=
  (List.range target).foldl (fun acc i =>
    let w := base + i / 32
    let b := i % 32
    if i < v || acc.nv.blows.any (fun x => x.word == w && x.bit == b) then acc
    else acc.addBlow { word := w, bit := b, pending := false, advance := true, again := false, arose := s.tb }) s

def State.fuseAdvance (s : State) (counter target op : Nat) : Answer :=
  let v := s.advValue counter
  if 2 ≤ counter ∨ (if counter = 0 then 128 else 4) < target then (s, stArg, [])
  else if target ≤ v then (s, stOk, be16 v)
  else if counter = 0 && s.aboveFirmware target then (s, stState, [])
  else if !s.fus.window then (s, stState, [])
  else
    let s1 := s.addSteps (if counter = 0 then 49 else 53) v target
    let ops := Tab.set .other s1.por.ops op (.fuse counter target)
    (({ s1 with por := { s1.por with ops := ops } }).fuseKick, stAccepted, [])

/-- FUSE_ADVANCE. -/
def execFuseAdvance (h : Hdr) (body : List Byte) (s : State) : Host.Outcome State Fault Refusal :=
  .next (s.request h (engineer 0x71) (body.length == 4) fun t op =>
    t.fuseAdvance (numAt body 0 1) (numAt body 2 2) op)

end Sys2Proof.Machine
end

