-- ==== Sys2Proof/Machine/Sessions.lean ====
section
/-! DEFINITION. Sessions and streams of the porch (R336, R337, R351, Table 16.10). -/

namespace Sys2Proof.Machine

/-! ### Closing (R337) -/

/-- What ends with a session. -/
def State.closeSession (s : State) (k : Nat) : State :=
  let s1 := (s.setSession k none).abandonLoad fun x => x == k
  let streams := s1.por.streams.filter fun e => (e.2.map Stream.session) != some k
  let cal := s1.cnv.cal.filter fun c => c.session != k
  { s1 with por := { s1.por with streams := streams }, cnv := { s1.cnv with cal := cal } }

/-- Numbers of the sessions that are open. -/
def State.openSessions (s : State) : List Nat :=
  (s.por.sessions.filter fun e => (e.2.map fun v => v.challenge.isNone).getD false).map Prod.fst

/-! ### Opening (R336) -/

/-- The number that a challenge assigns: the lowest that is free. -/
def State.freeSession (s : State) : Option Nat :=
  ((List.range 8).map (· + 1)).find? fun k => (s.session k).isNone

/-- Phase 0. -/
def State.challenge (s : State) (h : Hdr) : Answer :=
  match s.freeSession with
  | none => (s, stCapacity, [])
  | some k =>
    let n := beBytes 16 (Config.nonce s.free).toNat
    let v : Session := { origin := h.origin, challenge := some (n, s.tb), highest := none, cache := [],
                         lastAt := s.tb }
    (s.takeFree.setSession k (some v), stOk, [BitVec.ofNat 8 k, 0#8, 0#8, 0#8] ++ n)

/-- Record SESSION: 0 failed MAC, 1 lock-out. -/
def State.sessionRecord (s : State) (event : Nat) (o : Origin) : State :=
  s.record 0x0B02 2 ([BitVec.ofNat 8 event] ++ be32 (originIp o))

/-- A failed MAC: the session number is discarded, and the fifth within 60 s locks the porch. -/
def State.failMac (s : State) (k : Nat) (o : Origin) : State :=
  let l := s.tb :: s.por.macFails.filter fun t => decide (s.tb < t + 12000000000)
  let s1 := ({ s with por := { s.por with macFails := l } }.setSession k none).sessionRecord 0 o
  if l.length < 5 then s1
  else ({ s1 with por := { s1.por with macFails := [], lockedAt := some s1.tb } }).sessionRecord 1 o

/-- The MAC that opens session `k` (R336). -/
def State.sessionMac (s : State) (nonce : List Byte) (k : Nat) : List Byte :=
  hmac256 s.por.secret (nonce ++ be64 s.uid ++ [BitVec.ofNat 8 k])

/-- Phase 1 for session number `k`. -/
def State.answerChallenge (s : State) (h : Hdr) (k : Nat) (mac : List Byte) : Answer :=
  match s.session k with
  | none => (s, stArg, [])
  | some v =>
    match v.challenge with
    | none => (s, stState, [])
    | some c =>
      let opened := s.setSession k (some { v with challenge := none, lastAt := s.tb })
      if s.por.secret.all fun b => b == 0#8 then
        (if s.cfg.sealNow = 0 then (opened, stOk, []) else (s, stSeal, []))
      else if mac = s.sessionMac c.1 k then (opened, stOk, [])
      else (s.failMac k h.origin, stLevel, [])

def State.sessionOpen (s : State) (h : Hdr) (body : List Byte) : Answer :=
  if s.por.lockedAt.isSome then (s, stLevel, [])
  else if body = [0#8] then s.challenge h
  else if body.length = 36 ∧ body.head? = some 1#8 then
    s.answerChallenge h h.session.toNat (body.drop 4)
  else (s, stArg, [])

/-- SESSION_OPEN. -/
def execSessionOpen (h : Hdr) (body : List Byte) (s : State) : Host.Outcome State Fault Refusal :=
  let k : Kind := { opcode := 0x10, level := .observe, loader := true,
                    opens := body.head? == some 1#8 }
  .next (s.request h k true fun t _ => t.sessionOpen h body)

/-- SESSION_CLOSE. -/
def execSessionClose (h : Hdr) (body : List Byte) (s : State) : Host.Outcome State Fault Refusal :=
  let k : Kind := { opcode := 0x11, level := .operate, loader := true, opens := false }
  .next (s.request h k body.isEmpty fun t _ => (t.closeSession h.session.toNat, stOk, []))

/-- SESSION_TIMEOUT: 600 s without a request and no open stream. -/
def execSessionTimeout (k : Fin 8) (s : State) : Host.Outcome State Fault Refusal :=
  .next <|
    let n := k.val + 1
    match s.session n with
    | none => s
    | some v =>
      let busy := s.por.streams.any fun e => (e.2.map Stream.session) == some n
      if s.porchUp && v.challenge.isNone && !busy && decide (v.lastAt + 120000000000 ≤ s.tb) then
        s.closeSession n
      else s

/-- CHALLENGE_TIMEOUT: a challenge is not answered within 10 s. -/
def execChallengeTimeout (k : Fin 8) (s : State) : Host.Outcome State Fault Refusal :=
  .next <|
    match (s.session (k.val + 1)).bind Session.challenge with
    | none => s
    | some c => if decide (c.2 + 2000000000 ≤ s.tb) && s.porchUp then s.setSession (k.val + 1) none
      else s

/-- LOCK_OUT_END: 60 s after the lock-out. -/
def execLockOutEnd (s : State) : Host.Outcome State Fault Refusal :=
  .next <|
    match s.por.lockedAt with
    | none => s
    | some t => if decide (t + 12000000000 ≤ s.tb) && s.alive then
        { s with por := { s.por with lockedAt := none } } else s

/-! ### Streams (R351) -/

def State.stream (s : State) (k : Nat) : Option Stream := Tab.get none s.por.streams k

def State.setStream (s : State) (k : Nat) (v : Option Stream) : State :=
  { s with por := { s.por with streams := Tab.set none s.por.streams k v } }

/-- Rate estimate in bytes per second. -/
def State.rateOf (s : State) (conv mask dec : Nat) : Rat :=
  match s.convImg conv with
  | none => 0
  | some i =>
    let l := i.list.take (convLen i)
    let n := (l.filter fun w => mask.testBit (bf w 2 0)).length
    (24000000 * n : Nat) / ((max l.length 1 * dec : Nat) : Rat)

/-- The rates of the open streams on a transport. -/
def State.rateSum (s : State) (usb : Bool) : Rat :=
  (s.por.streams.filterMap fun e => e.2.map fun x =>
    if x.usb = usb then s.rateOf x.conv x.mask x.dec else 0).sum

/-- Where a stream's packets go. -/
def streamDest (h : Hdr) (usb : Bool) (port : Nat) : Option Origin :=
  if usb then some .usb
  else match h.origin with
    | .udp ip _ => some (.udp ip (BitVec.ofNat 16 port))
    | .usb => none

def State.streamOpen (s : State) (h : Hdr) (body : List Byte) : Answer :=
  let conv := numAt body 0 1
  let usb := numAt body 1 1 == 1
  let mask := numAt body 4 1
  let dec := numAt body 6 2
  match streamDest h usb (numAt body 2 2) with
  | none => (s, stArg, [])
  | some d =>
    let limit : Rat := if usb then 800000 else 60000000
    match (List.range 4).find? fun k => (s.stream k).isNone with
    | none => (s, stCapacity, [])
    | some k =>
      if limit < s.rateSum usb + s.rateOf conv mask dec then (s, stCapacity, [])
      else
        let x : Stream := { session := h.session.toNat, conv := conv, usb := usb, dest := d, mask := mask,
                            dec := dec, seen := 0, packet := 0, dropped := 0, queue := [] }
        (s.setStream k (some x), stOk, [BitVec.ofNat 8 k])

def streamShaped (body : List Byte) : Bool :=
  decide (body.length = 8 ∧ numAt body 0 1 < 4 ∧ numAt body 1 1 < 2 ∧ 1 ≤ numAt body 6 2)

/-- STREAM_OPEN. -/
def execStreamOpen (h : Hdr) (body : List Byte) (s : State) : Host.Outcome State Fault Refusal :=
  .next (s.request h (operate 0x90) (streamShaped body) fun t _ => t.streamOpen h body)

def State.streamClose (s : State) (k : Nat) : Answer :=
  if 4 ≤ k ∨ (s.stream k).isNone = true then (s, stArg, []) else (s.setStream k none, stOk, [])

/-- STREAM_CLOSE. -/
def execStreamClose (h : Hdr) (body : List Byte) (s : State) : Host.Outcome State Fault Refusal :=
  .next (s.request h (operate 0x91) (body.length == 1) fun t _ =>
    t.streamClose (numAt body 0 1))

/-- Table 16.10, with its check value. -/
def Stream.packetBytes (x : Stream) (k : Nat) (es : List StreamEntry) : List Byte :=
  let e0 := es.head?
  let b := [0x53#8, BitVec.ofNat 8 k] ++ be16 es.length ++ be32 x.packet ++
    be32 ((e0.map StreamEntry.seq).getD 0) ++ be64 ((e0.map StreamEntry.tick).getD 0) ++
    be32 x.dropped ++ es.flatMap fun e => wordBytes e.word
  b ++ be32 (crc32c b)

/-- STREAM_PACKET: 340 entries wait, or 1 ms has passed since the first was written. -/
def execStreamPacket (k : Fin 4) (s : State) : Host.Outcome State Fault Refusal :=
  .next <|
    match s.stream k.val with
    | none => s
    | some x =>
      match x.queue with
      | [] => s
      | e :: _ =>
        if s.porchUp && (decide (340 ≤ x.queue.length) || decide (e.wrote + 200000 ≤ s.tb)) then
          let s1 := s.setStream k.val (some
            { x with packet := (x.packet + 1) % 2 ^ 32, queue := x.queue.drop 340 })
          s1.post (.stream streamPort x.dest (onWire x.dest 1 (x.packetBytes k.val (x.queue.take 340))))
        else s

end Sys2Proof.Machine
end

