-- ==== Sys2Proof/Machine/Sea.lean ====
section
/-! DEFINITION. The commands of the logic sea (chapter 4) and of the speed monitors. -/

namespace Sys2Proof.Machine

/-- EVALUATION: a room captures, evaluates and compares; `bad`: sites whose complemented result is not
the inverse of the true one (R89, R91). -/
def execEvaluation (p : Fin 64) (bad : List Nat) (s : State) : Host.Outcome State Fault Refusal :=
  .next <|
    let d := s.takeDues
    match d.evaluable p.val with
    | none => s
    | some (key, part, m) =>
      if !d.evalDue p.val key m then s
      else
        match bad with
        | [] => d.commitRoom p.val key part m
        | x :: _ => d.disagreeRoom p.val (if x < 960 then x else 0x3FF)

/-- REFRESH: a room that has not been evaluated for 1 ms (R421). -/
def execRefresh (p : Fin 64) (s : State) : Host.Outcome State Fault Refusal :=
  .next <|
    match s.evaluable p.val with
    | none => s
    | some (key, part, m) =>
      let c := (s.room p.val).cells
      if c.loaded && decide (c.lastEval + 200000 ≤ s.tb) then s.takeDues.commitRoom p.val key part m else s

/-- EVALUATION_TIMEOUT: an evaluation that is called for does not complete within 1 µs (R90). -/
def execEvaluationTimeout (p : Fin 64) (s : State) : Host.Outcome State Fault Refusal :=
  .next <|
    let d := s.takeDues
    match d.evaluable p.val with
    | none => s
    | some (key, _, m) => if d.evalDue p.val key m then d.disagreeRoom p.val 0x3FF else s

/-- An expiry waits for its capture. -/
def State.addExpiry (s : State) (r n : Nat) : State :=
  let v := s.room r
  if v.cells.expired.contains n then s
  else s.setRoom r { v with cells := { v.cells with expired := v.cells.expired ++ [n] } }

/-- DELAY_EXPIRY: the count of a delay site has reached its delay time (R86). -/
def execDelayExpiry (p : Fin 64) (site : Nat) (s : State) : Host.Outcome State Fault Refusal :=
  .next <|
    match s.evaluable p.val with
    | none => s
    | some (_, _, m) =>
      match m.sites.find? (fun x => x.site == site),
          Tab.get none (s.room p.val).cells.dly site with
      | some x, some t =>
        if s.ticking && decide (expiryOf 200 x.delay t ≤ s.tb) then s.addExpiry p.val site else s
      | _, _ => s

/-- LONG_DELAY_EXPIRY: the count of a long delay unit has reached its delay time (R87). -/
def execLongDelayExpiry (p : Fin 64) (u : Fin 8) (s : State) : Host.Outcome State Fault Refusal :=
  .next <|
    match s.evaluable p.val with
    | none => s
    | some (_, _, m) =>
      match m.lds.find? (fun x => x.unit == u.val),
          Tab.get none (s.room p.val).cells.ldDly u.val with
      | some x, some t =>
        if s.ticking && decide (expiryOf 200000 x.time t ≤ s.tb)
        then s.addExpiry p.val (1000 + u.val) else s
      | _, _ => s

/-- SAG_RIDE_THROUGH: the ride-through of a port has ended with its input still INVALID (R83). -/
def execSagRideThrough (p : Fin 64) (port : Nat) (s : State) : Host.Outcome State Fault Refusal :=
  .next <|
    match s.evaluable p.val with
    | none => s
    | some (_, _, m) =>
      match m.ports.find? fun x => x.port == port with
      | some x =>
        match x.source with
        | .input n =>
          match (s.form n).sagAt with
          | some t =>
            if decide (t + ticksMs x.ride ≤ s.tb) && (s.form n).invalid then
              let v := s.room p.val
              s.setRoom p.val { v with rideEnded := Tab.set 0 v.rideEnded port (t + 1),
                                       cells := { v.cells with due := true } }
            else s
          | none => s
        | _ => s
      | none => s

/-- MIRROR_BUILD: the load of the mirror in room `p` is complete; states and counters are copied
(R93). -/
def execMirrorBuild (p : Fin 64) (s : State) : Host.Outcome State Fault Refusal :=
  .next <|
    match s.part p.val with
    | some (key, 2) =>
      let v := s.irm key
      match v.room with
      | none => s
      | some r =>
        if v.built || !s.roomOn p.val || !s.alive || (s.room r).st == .held then s
        else
          let c := { (s.room r).cells with due := true, lastEval := s.tb, expired := [] }
          (s.setRoom p.val { s.room p.val with cells := c }).setIrm key { v with built := true }
    | _ => s

/-- REWRITE: the image room is written into room `p` and evaluates from its start values (R94). -/
def execRewrite (p : Fin 64) (s : State) : Host.Outcome State Fault Refusal :=
  .next <|
    match s.part p.val with
    | some (key, 3) =>
      match s.keyImg key with
      | none => s
      | some m =>
        if (s.room p.val).cells.loaded || !s.roomOn p.val || !s.alive then s
        else s.setRoom p.val { s.room p.val with cells := startCells m s.tb }
    | _ => s

/-- The latches of one image room take their demand values (R95). -/
def State.endHold (s : State) (key : Nat) : State :=
  let v := s.irm key
  match s.keyImg key, v.failedAt with
  | some m, some t =>
    if !v.demand && decide (t + ticksMs m.hold ≤ s.tb) then
      let s0 := s.markLatches key
      let s1 := s0.setIrm key { s0.irm key with demand := true }
      s1.latchEdges s key
    else s
  | _, _ => s

/-- HOLD_ALLOWANCE: the hold allowance of image room `r` has ended (R95). -/
def execHoldAllowance (r : Fin 64) (s : State) : Host.Outcome State Fault Refusal :=
  .next <| if s.alive then (s.endHold r.val).endHold (64 + r.val) else s

/-- ROOM_SELF_TEST: the self-test of a failed room, or of a free one in rotation, begins (R96, R97). -/
def execRoomSelfTest (p : Fin 64) (s : State) : Host.Outcome State Fault Refusal :=
  .next <|
    let v := s.room p.val
    let other := (List.range 64).any fun r => (s.room r).st == .testing && !(s.room r).afterFail
    if !s.alive || !s.roomOn p.val || (s.part p.val).isSome then s
    else if v.st = .failed then s.setRoom p.val { v with st := .testing, testAt := s.tb }
    else if v.st = .free && !other then
      s.setRoom p.val { v with st := .testing, testAt := s.tb, afterFail := false }
    else s

/-- A sea domain whose 32 rooms are all retired is powered down (R276). -/
def State.offIfRetired (s : State) (d : Nat) : State :=
  let rooms := (List.range 32).map fun j => (d - 2) * 32 + j
  if (s.dom d).st = .on ∧ (rooms.all fun r => (s.room r).st == .retired) = true then
    (s.setDom d { s.dom d with st := .offRetired, stamp := s.tb }).record 0x0105 2
      [BitVec.ofNat 8 d, 0#8, 2#8, 0#8]
  else s

/-- A room is never used again (R96). -/
def State.retireRoom (s : State) (r : Nat) : State :=
  let s1 := (s.setRoom r { s.room r with st := .retired, cells := .start }).retireRoomBit r
  (s1.roomRecord r 0 7 0x3FF).offIfRetired (seaDom (roomSide r))

/-- A self-test has found bad clusters: hidden repair, where spares are left (R96, R97). -/
def State.repairRoom (s : State) (r n : Nat) : State :=
  let v := s.room r
  if n ≤ v.spares then
    (s.setRoom r { v with st := .free, afterFail := false, spares := v.spares - n }).roomRecord r 0 5 0x3FF
  else s.retireRoom r

/-- ROOM_SELF_TEST_END (R96). -/
def execRoomSelfTestEnd (p : Fin 64) (o : RoomTest) (s : State) : Host.Outcome State Fault Refusal :=
  .next <|
    let v := s.room p.val
    if v.st ≠ .testing || !s.roomOn p.val || !s.alive then s
    else
      let free : Room := { v with st := .free, afterFail := false }
      match o with
      | .noneFound =>
        if !v.afterFail then (s.setRoom p.val free).serveSea
        else
          let tr := s.pwr.opsec :: within24h v.trans s.pwr.opsec
          let s1 := (s.setRoom p.val { free with trans := tr }).roomRecord p.val 0 6 0x3FF
          (if tr.length < 3 then s1 else s1.retireRoom p.val).serveSea
      | .repaired n => (s.repairRoom p.val n).serveSea
      | .irreparable => (s.retireRoom p.val).serveSea

/-- Mean cell delay of one sea domain; a value above 1,500 ps is recorded (R101). -/
def State.setDelay (s : State) (q : Side) (v : Nat) : State :=
  let old := match q with | .a => s.sea.delayA | .b => s.sea.delayB
  let s1 := match q with
    | .a => { s with sea := { s.sea with delayA := v } }
    | .b => { s with sea := { s.sea with delayB := v } }
  if 1500 < v ∧ old ≤ 1500 then s1.record 0x0602 2 ([BitVec.ofNat 8 (sideNat q)] ++ be16 v) else s1

/-- SPEED_MONITOR: the monitors of the powered domains give new readings, for A then B, in ps and in
Mop/s (R101, R105). -/
def execSpeedMonitor (sea eng : List Nat) (s : State) : Host.Outcome State Fault Refusal :=
  .next <|
    if !s.alive then s
    else
      let one (acc : State) (q : Side) : State :=
        let a := match sea[sideNat q]? with
          | some v => if acc.powered (seaDom q) then acc.setDelay q v else acc
          | none => acc
        match eng[sideNat q]? with
        | some v => if a.powered (engDom q) then a.setSpeed q v else a
        | none => a
      one (one s .a) .b

end Sys2Proof.Machine
end

