-- ==== Sys2Proof/Machine/Domains.lean ====
section
/-! DEFINITION. What the loss and the return of a power domain do to its parts, and the words that
show supplies, domains and references (R24, R274 to R276, R278). -/

namespace Sys2Proof.Machine

/-! ### Registers -/

def DomSt.code : DomSt → Nat
  | .on => 0
  | .offCmd => 1
  | .offRetired => 2
  | .offFault => 3
  | .goingDown => 4
  | .comingUp => 5
  | .notStarted => 6

/-- PWR_DOMSTAT. -/
def State.domStat (s : State) : Word :=
  mkWord ((List.range 8).map fun d => ((s.dom d).st.code, 4 * d))

/-- PWR_START. -/
def State.startWord (s : State) : Word :=
  mkWord [(s.pwr.step, 28), (s.pwr.result, 24), (min 65535 s.pwr.duration, 0)]

/-- A CRC-protected fuse item has failed (R382). -/
def State.fuseFault (s : State) : Bool := s.fus.uidFail || s.fus.trimFail || s.fus.keysFail

/-- DEV_STATUS (R33). -/
def State.devStatus (s : State) : Word :=
  let on (d : Nat) : Bool := decide ((s.dom d).st = .on)
  let fuse := s.fuseFault
  mkWord [(b2n (on 3 && on 5), 9), (b2n (on 2 && on 4), 8), (b2n fuse, 7), (b2n s.eng.taint, 6),
    (s.sealJudge, 4), (s.svc.state, 0)]

/-- PWR_HOLDUP. -/
def State.holdupWord (s : State) : Word :=
  mkWord [(b2n s.pwr.weak, 31), (b2n s.pwr.charged, 16), (min 65535 s.pwr.holdup, 0)]

def OscSt.code : OscSt → Nat
  | .selected => 0
  | .standby => 1
  | .lost => 2
  | .off => 3

/-- PWR_OSC. -/
def State.oscWord (s : State) : Word :=
  let o := s.pwr.osc
  let d := if s.oscIn .a && s.oscIn .b then o.diff else 0
  mkWord [(twos 16 (max (-32768) (min 32767 d)), 16), (b2n o.woscLost, 6), (o.b.code, 2), (o.a.code, 0)]

/-- FUS_STAT. -/
def State.fusStat (s : State) : Word :=
  let pend := (s.nv.blows.filter Blow.pending).length
  let void := ((List.range 8).filter s.nv.entryVoid).length
  mkWord [(min 255 pend, 16), (s.nv.sparesUsed, 12), (void, 8), (b2n s.fus.window, 7),
    (b2n s.fus.plost, 6), (b2n s.fus.nospare, 5), (b2n s.fus.keysFail, 2), (b2n s.fus.trimFail, 1),
    (b2n s.fus.uidFail, 0)]

/-- Record DOMAIN. -/
def State.domRecord (s : State) (d old new why : Nat) : State :=
  s.record 0x0105 2 [BitVec.ofNat 8 d, BitVec.ofNat 8 old, BitVec.ofNat 8 new, BitVec.ofNat 8 why]

/-- A domain changes its state. -/
def State.domTo (s : State) (d : Nat) (st : DomSt) (why : Nat := 0) : State :=
  let v := s.dom d
  if v.st = st then s
  else (s.setDom d { v with st := st, stamp := s.tb }).domRecord d v.st.code st.code why

/-! ### References (R266, R267) -/

def State.setOsc (s : State) (q : Side) (v : OscSt) : State :=
  match q with
  | .a => { s with pwr := { s.pwr with osc := { s.pwr.osc with a := v } } }
  | .b => { s with pwr := { s.pwr with osc := { s.pwr.osc with b := v } } }

def State.osc (s : State) : Side → OscSt
  | .a => s.pwr.osc.a
  | .b => s.pwr.osc.b

/-- Record REFERENCE. -/
def State.oscRecord (s : State) (event : Nat) : State :=
  s.record 0x0106 2 (wordBytes s.oscWord ++ [BitVec.ofNat 8 event])

/-- The timebase stops (R267). -/
def State.stopTime (s : State) : State :=
  { s with pwr := { s.pwr with osc := { s.pwr.osc with stopped := true, holdover := none } } }

/-- A power-down by command is abandoned when the reference of the other ENG domain is lost
(Table 12.7). -/
def State.abandonDown (s : State) (q : Side) : State :=
  let d := engDom (otherSide q)
  if (s.dom d).st = .goingDown then
    let s1 := { s with pwr := { s.pwr with whyDom := d, why := 8 } }
    s1.domTo d .on 8
  else s

/-- A reference leaves service as `new`: LOST, or OFF with its domain. -/
def State.loseOsc (s : State) (q : Side) (new : OscSt) : State :=
  let was := s.osc q
  if was = .lost ∨ was = .off then s.setOsc q new
  else
    let s1 := s.setOsc q new
    let r := otherSide q
    let s2 :=
      if s.pwr.osc.stopped then s1
      else if was = .selected then
        (if s.oscIn r then { s1 with pwr := { s1.pwr with osc :=
            { s1.pwr.osc with holdover := some (r, s1.tb), loneSince := none } } }
         else s1.stopTime)
      else if s.pwr.osc.holdover.isSome then s1.stopTime
      else { s1 with pwr := { s1.pwr with osc := { s1.pwr.osc with loneSince := none } } }
    (s2.oscRecord (sideNat q)).abandonDown q

/-! ### SEA -/

/-- Mirrors and rewrite targets of image room `key` that lie in the half are gone. -/
def State.cutRooms (s : State) (q : Side) (key : Nat) : State :=
  let v := s.irm key
  let there (r : Nat) : Bool := roomSide r == q
  s.setIrm key
    { v with mirror := v.mirror.filter fun r => !there r
             building := v.building.filter fun x => !there x.1
             rewrite := v.rewrite.filter fun x => !there x.1 }

/-- A room fails with its domain: counted, shown in SEA_LAST and recorded as a failure with no site (R91, Table
4.3). One that carries nothing, or that has failed before, does not fail again (DEDUCED, log 83). -/
def State.noteLoss (s : State) (r : Nat) : State :=
  match s.part r with
  | none => s
  | some (key, part) =>
    let v := s.room r
    if v.st = .failed then s
    else
      let s1 := s.setRoom r { v with fails := satAdd 0xFFFF v.fails 1 }
      ({ s1 with sea := { s1.sea with last := some (0x3FF, key % 64, r) } }).roomRecord r key
        (if part = 1 ∨ part = 2 then 8 else 1) 0x3FF

/-- Every room of a half fails in one instant (Table 4.3). -/
def State.loseSea (s : State) (q : Side) : State :=
  let keys := s.sea.imap.map Prod.fst
  let s0 := (List.range 32).foldl (fun acc j => acc.noteLoss (sideNat q * 32 + j)) s
  let s1 := keys.foldl (fun acc k => acc.cutRooms q k) s0
  let s2 := keys.foldl (fun acc k =>
    match (acc.irm k).room with
    | some r => if roomSide r == q && (acc.irm k).failedAt.isNone then acc.failImage k else acc
    | none => acc) s1
  let s3 := (List.range 32).foldl (fun acc j =>
    let r := sideNat q * 32 + j
    let v := acc.room r
    if v.st = .retired then acc
    else acc.setRoom r { v with st := .off, iroom := 0, cells := .start,
                                differs := false, rideEnded := [] }) s2
  s3.serveSea

/-- The rooms of a half have passed their self-tests, with hidden repair of `fixed`, or are retired (R97,
R275, R276). -/
def State.startSea (s : State) (q : Side) (bad : List Nat) (fixed : List (Nat × Nat)) : State :=
  let s1 := (List.range 32).foldl (fun acc j =>
    let r := sideNat q * 32 + j
    let bit := (Tab.get 0#32 acc.fus.shadow (102 + r / 32)).getLsbD (r % 32)
    let v := acc.room r
    if bit then acc.setRoom r { v with st := .retired }
    else if bad.contains r then (acc.setRoom r { v with st := .free }).retireRoom r
    else
      match fixed.find? fun x => x.1 == r with
      | some x => acc.repairRoom r x.2
      | none => acc.setRoom r { v with st := .free, afterFail := false }) s
  (s1.offIfRetired (seaDom q)).serveSea

/-- The retirement bits of all 32 rooms of a sea domain read 1 (R276). -/
def State.allRetired (s : State) (d : Nat) : Bool :=
  (List.range 32).all fun j =>
    let r := (d - 2) * 32 + j
    (Tab.get 0#32 s.fus.shadow (102 + r / 32)).getLsbD (r % 32)

/-! ### ENG -/

def sideEngines (q : Side) : List Nat := (List.range 4).map fun j => 4 * sideNat q + j

/-- Mailbox operations that wait for an engine end with FAULT. -/
def State.endEngineOps (s : State) (e : Nat) : State :=
  let v := s.engine e
  let s1 := if v.st = .draining then s.finish v.drainOp stFault else s
  match v.st, v.why with
  | .testing, .join op => s1.finish op stFault
  | _, _ => s1

/-- The parts of an ENG domain are lost with it (R26, R274, R422). -/
def State.loseEng (s : State) (q : Side) : State :=
  let es := sideEngines q
  let s1 := es.foldl (fun acc e => (acc.endEngineOps e).evict e) s
  let s2 := es.foldl (fun acc e =>
    let t := acc.setEngine e { acc.engine e with halted := false, breaks := [], drainOp := 0, forDebug := false }
    if (t.engine e).st = .retired then t else t.setEngSt e .off) (s1.loseEngines es)
  let s3 := if s2.cmp q = .inService then s2.setCmp q .off else s2
  let insts := Tab.mapVal none
    (fun x => x.map fun v => if v.ckIn = q then { v with ckpt := none } else v) s3.eng.insts
  let att := s3.eng.attached.filter fun e => !es.contains e
  let s4 := { s3 with eng := { s3.eng with insts := insts, attached := att } }
  let l := s4.link q
  let s5 := s4.setLink q { l with st := if l.st = .valid then .silent else l.st, last := none,
                                  up := none, due := none, down := none, missRun := 0 }
  let was := l.st == .valid && !l.retired
  let s5 := if was then s5.linkRecord q 1 else s5
  let s6 := match q with
    | .a => { s5 with lgc := { s5.lgc with tripA := [] }, cnv := { s5.cnv with bufA := [] } }
    | .b => { s5 with lgc := { s5.lgc with tripB := [] }, cnv := { s5.cnv with bufB := [] } }
  let s7 := s6.loseOsc q .off
  (((s7.noJudge).redistribute).settle)

/-- R304: the units of `us` that fail their known-answer test. -/
def State.failUnits (s : State) (us : List Nat) (o : StartOutcome) : State :=
  (us.filter o.cvuBad.contains).foldl State.failUnit s

/-- The parts of an ENG domain have passed their tests, or are retired; a checkpoint memory, a matrix copy with
its link, or a result memory copy that fails is out until the next start-up (R270, R275, Table 12.4). -/
def State.startEng (s : State) (q : Side) (o : StartOutcome) : State :=
  let bad := o.engBad ++ o.cvuBad
  let s1 := (sideEngines q).foldl (fun acc e =>
    if acc.isRetired e then acc.setEngine e { acc.engine e with st := .retired }
    else
      let t := acc.setEngine e { acc.engine e with why := .auto }
      if bad.contains e then t.retireEngine e else t.setEngSt e .spare) (s.failUnits (sideEngines q) o)
  let s2 := if s1.isRetired (8 + sideNat q) then s1.setCmp q .retired
    else
      let t := s1.setCmp q .inService
      if o.cmpBad.contains q then t.retireCmp q else t
  let out (old new : List Side) : List Side := if new.contains q && !old.contains q then q :: old else old
  let ck := out s2.eng.ckmOut o.ckmBad
  let ok := !ck.contains q
  let s3 := { s2 with eng := match q with
                        | .a => { s2.eng with ckmOut := ck, ckmA := ok }
                        | .b => { s2.eng with ckmOut := ck, ckmB := ok }
                      lgc := { s2.lgc with mxOut := out s2.lgc.mxOut o.mxBad }
                      cnv := { s2.cnv with memOut := out s2.cnv.memOut o.memBad } }
  if o.mxBad.contains q && !s2.lgc.mxOut.contains q then s3.linkRecord q 1 else s3

/-! ### FIELD -/

/-- Every output is open and the field side is dead (R264, R276). -/
def State.loseField (s : State) : State :=
  let outs := Tab.mapVal .start (fun o => { o with
    phase := .idle, pulse := .none, img := false, defer := false, silPend := false, retest := none }) s.fld.outs
  { s with fld := { s.fld with outs := outs, seqA := { s.fld.seqA with st := .off, got := none },
                               seqB := { s.fld.seqB with st := .off, got := none } } }

/-- The field side starts with the configuration of the running image: sequencers, links, converters
(R55, R183, R197, R268 step 6, R276). Slices and converters that have failed stay out, for
only start-up judges them afresh (R183). DESIGN CHOICE (log 85): where only the cross-link fails its test, FS-B
is retired and FS-A runs alone. DESIGN CHOICE (log 98): the comparators, open-wire judgements and last ordinary
results of the channels stay. -/
def State.startField (s : State) (cause : Nat) (o : StartOutcome) : State :=
  let c := match s.img false with
    | some m => m.fieldCfg
    | none => FieldCfg.none
  let fault (n : Nat) : FOut := { FOut.start with cause := n, faultAt := s.tb, changed := s.tb }
  let outs := (List.range 64).foldl (fun (acc : Tab FOut) k =>
    if bitOf (nth c.ocfg k 0) 31
    then Tab.set .start acc k (fault (if cause = 0 ∧ o.outBad.contains k then 10 else cause))
    else acc) []
  let good (q : Side) : Bool := !s.isRetired (12 + sideNat q) && !o.fsBad.contains q
  let fs := if o.fxBad && good .a && good .b then [Side.b] else o.fsBad
  let seqOf (q : Side) : Seq :=
    { Seq.start with st := if s.isRetired (12 + sideNat q) || fs.contains q then .off else .alive }
  let f := { Fld.reset with
    terms := s.fld.terms, outs := outs, seqA := seqOf .a, seqB := seqOf .b, cfg := c, pulseCfg := c,
    bank := s.lgc.bank, bankAt := s.tb, accepted := none, frame := c.frameOf s.tb,
    epoch := s.fld.epoch }
  let bad := [Side.a, Side.b].filter fun q => fs.contains q && !s.isRetired (12 + sideNat q)
  let s1 := bad.foldl (fun acc q =>
    let t := acc.retireBit (12 + sideNat q)
    t.record 0x0405 2 (wordBytes t.ostat)) { s with fld := f }
  let code (q : Side) : Nat := if s1.isRetired (12 + sideNat q) then 2 else 0
  let solo := if code .a ≠ 0 ∧ code .b = 0 then 2 else if code .a = 0 ∧ code .b ≠ 0 then 1 else 0
  let s2 := { s1 with lgc := { s1.lgc with fsA := code .a, fsB := code .b, solo := solo } }
  let convs := (List.range 4).foldl (fun (acc : Tab Cnv1) n =>
    let old := Tab.get .start s2.cnv.convs n
    let gone := (old.retired ++ (o.slicesBad.filter fun x => x.1 == n).map Prod.snd).eraseDups
    let ref := old.reffail || o.convBad.contains n
    let failed := old.failed || ref || decide (2 < gone.length)
    Tab.set .start acc n
      { Cnv1.start with retired := gone, failed := failed, reffail := ref, seq := old.seq }) []
  let chans := Tab.mapVal .start (fun x => { x with unconf := false }) s2.cnv.chans
  let s3 := { s2 with cnv := { s2.cnv with convs := convs, chans := chans, flyA := [], flyB := [],
                                           heldA := [], heldB := [] } }
  let was (n : Nat) : Cnv1 := Tab.get .start s2.cnv.convs n
  let s4 := o.slicesBad.foldl (fun acc x =>
    if (was x.1).retired.contains x.2 then acc
    else acc.record 0x0501 2 [BitVec.ofNat 8 x.1, BitVec.ofNat 8 x.2, 0#8]) s3
  let s5 := (List.range 4).foldl (fun acc n =>
    let v := Tab.get .start convs n
    if !v.failed || (was n).failed then acc
    else if v.reffail then acc.record 0x0501 2 [BitVec.ofNat 8 n, 0xFF#8, 1#8]
    else acc.record 0x0501 2 [BitVec.ofNat 8 n, 0#8, 2#8]) s4
  s5.refreshOuts

/-! ### Domains (R274 to R276) -/

/-- Units of a domain start afresh with it; their FAULTs of the last 24 operating hours stay counted (R304, R305;
DEDUCED, log 99). -/
def State.freshUnits (s : State) (d : Nat) : State :=
  (List.range 19).foldl (fun acc u => if cvuDomain u = d then acc.setUnit u (acc.unit u).cleared else acc) s

/-- PORCH is lost: its sessions, streams and loads are gone. -/
def State.losePorch (s : State) : State :=
  let s1 := ((s.abandonLoad fun _ => true).abandonFw).loseRun
  let down (p : Proc) : Proc := if p.st = .retired then p else { p with st := .lost }
  { s1 with por := { s1.por with procA := down s1.por.procA, procB := down s1.por.procB,
                                 sessions := [], streams := [], boxes := [], prpSeen := [], fw := none }
            cnv := { s1.cnv with cal := none } }

/-- The rail of domain `d` is off: its contents are lost, and it shows `st`. -/
def State.loseDomain (s : State) (d : Nat) (st : DomSt) : State :=
  let s1 := s.domTo d st
  let s2 :=
    match d with
    | 1 => s1.losePorch
    | 2 => s1.loseSea .a
    | 3 => s1.loseSea .b
    | 4 => s1.loseEng .a
    | 5 => s1.loseEng .b
    | 6 => s1.linkLoss
    | 7 => s1.loseField
    | _ => s1
  s2.freshUnits d

/-! ### The porch starts (R268 step 3) -/

/-- A bank whose firmware its processor accepts. -/
def State.bankOk (s : State) (q : Side) : Bool :=
  let k := 2 * sideNat q + (match q with | .a => s.nv.bankA | .b => s.nv.bankB)
  let b := Tab.get .shipped s.nv.banks k
  b.sound && decide (s.rollback ≤ b.rollback)

/-- Boots both processors; `bad`: those whose firmware fails; one whose check-value unit has failed is lost
(R304). `loader`: the maintenance loader in ROM
is all that may run. -/
def State.startPorch (s : State) (bad : List Side) (loader : Bool) : State :=
  let out (q : Side) : Bool := s.isRetired (14 + sideNat q)
  let lost (q : Side) : Bool := (s.unit (16 + sideNat q)).failed
  let good (q : Side) : Bool := !out q && !lost q && !bad.contains q && s.bankOk q && !loader
  let act : Side := if good .a then .a else if good .b then .b else if out .a then .b else .a
  let st (q : Side) : ProcSt :=
    if out q then .retired
    else if lost q then .lost
    else if good q then (if q = act then .active else .standby) else .loader
  { s with por := { s.por with procA := { s.por.procA with st := st .a },
                               procB := { s.por.procB with st := st .b }, active := act } }

/-- Neither processor's firmware runs. -/
def State.noFirmware (s : State) : Bool :=
  [s.por.procA, s.por.procB].all fun p => p.st == .loader || p.st == .retired

/-- The check-value units of a link endpoint that returns; with one that fails its test the link is FAULTY until
its domain next powers up (R304, Table 14.4). -/
def State.startLink (s : State) (q : Side) (o : StartOutcome) : State :=
  let us := [12 + 2 * sideNat q, 13 + 2 * sideNat q]
  let s1 := s.failUnits us o
  if us.any fun u => (s1.unit u).failed then s1.judgeFaulty q else s1

/-- The parts of a domain that has been powered up (R275). A matrix copy that returns holds no trip latch, whatever
the other copy holds (DESIGN CHOICE, log 95). -/
def State.returnDomain (s : State) (d : Nat) (o : StartOutcome) : State :=
  let eng (q : Side) : State :=
    let s1 := (s.startEng q o).startLink q o
    let bad := o.oscBad.contains q
    let osc := if s1.pwr.osc.stopped then OscSt.off
      else if bad then .lost
      else if s1.oscIn (otherSide q) then .standby else .selected
    let s2 := s1.setOsc q osc
    let s3 := if bad && !s1.pwr.osc.stopped then s2.oscRecord (sideNat q) else s2
    (s3.replace).settle
  match d with
  | 1 =>
    let s1 := (s.failUnits [16, 17] o).startPorch o.ppBad s.fuseFault
    { s1 with por := { s1.por with epoch := s1.por.epoch % 255 + 1 } }
  | 2 => s.startSea .a o.roomsBad o.roomsFixed
  | 3 => s.startSea .b o.roomsBad o.roomsFixed
  | 4 => eng .a
  | 5 => eng .b
  | 6 =>
    let s1 := (s.failUnits [8, 9, 10, 11] o).linkStart
    (o.portsBad ++ (o.cvuBad.filter fun u => 8 ≤ u ∧ u < 12).map fun u => u - 8).foldl
      (fun acc p => if p < 4 then acc.portTo p .failed else acc) s1
  | 7 =>
    let s1 := s.startField 11 o
    { s1 with fld := { s1.fld with epoch := s1.fld.epoch + 1 } }
  | _ => s

end Sys2Proof.Machine
end

