-- ==== Sys2Proof/Machine/Startup.lean ====
section
/-! DEFINITION. Start-up (R262, R268 to R271, R379, R382, R399). -/

namespace Sys2Proof.Machine

/-! ### The cold start -/

/-- Slot states at start-up: what ran or was staged is kept, a load is lost (Table 15.4, Table 15.7). -/
def Slot.cold (v : Slot) : Slot :=
  match v.st with
  | .loading => .empty
  | .staged => { v with st := .valid }
  | .running => { v with st := .loaded }
  | _ => v

/-- Sequence of the newest stored record whose check value holds (R399). -/
def Nv.newestGood (v : Nv) : Option Nat :=
  ((v.found ++ v.circ).reverse.find? fun r => r.crc == crc32c r.bytes).map Rec.seq

/-- A recorder that continues the sequence of the store (R399). -/
def Nv.recorder (v : Nv) : Recorder :=
  { Recorder.reset with next := match v.newestGood with | some n => nextSeq n | none => 1 }

/-- The recorder at step 1: its buffer survives while CELLAR has stayed alive, with what a LOST record has still to
tell (R398); a flush that runs goes on, and one that failed tries the store again (R399, R403). -/
def State.coldRecorder (s : State) : Recorder :=
  if s.alive then
    { Recorder.reset with
        buf := s.rcd.buf, next := s.rcd.next, hidden := s.rcd.hidden, lost := s.rcd.lost,
        lostTick := s.rcd.lostTick
        flushing := s.rcd.flushing || (s.rcd.failed.isSome && !s.rcd.buf.isEmpty) }
  else s.nv.recorder

/-- What survives in CELLAR's non-volatile store, the power-cycle count advanced (R262). -/
def State.coldNv (s : State) : Nv :=
  { s.nv with slots := Tab.mapVal .empty Slot.cold s.nv.slots
              cycles := s.nv.cycles + 1
              blows := (s.nv.blows.filter fun x => !x.advance).map fun x => { x with pending := true } }

/-- Domains at step 1: CELLAR, and the ENG domains held. The faults of the last 24 operating hours stay counted
(R276). -/
def State.coldDoms (s : State) : Tab Domain :=
  Tab.ofFn .ready 8 fun d =>
    { Domain.ready with st := if [1, 2, 3, 6, 7].contains d then .notStarted else .on
                        faults := (s.dom d).faults }

/-- The rooms of a dark sea: what hidden repair has used and the transients of the last 24 operating hours
stay counted (R23, R96). -/
def State.coldRooms (s : State) : Tab Room :=
  Tab.ofFn .start 64 fun r =>
    { Room.start with st := .off, spares := (s.room r).spares, trans := (s.room r).trans }

/-- The engines of a dark device: their transients stay counted. DESIGN CHOICE (log 84): transients,
disagreements and link faults within 24 operating hours count across a start-up (R96, R129, R241). -/
def State.coldEngines (s : State) : Tab Engine :=
  Tab.ofFn .start 8 fun e => { Engine.start with st := .off, trans := (s.engine e).trans }

/-- A link before the field side starts. -/
def Link.cold (l : Link) : Link := { Link.start with faults := l.faults }

/-- t₀: start-up begins at step 1, TB at 0 (R265, R268). -/
def State.coldStart (s : State) : State :=
  let opsec := if s.alive then s.pwr.opsec else s.nv.opsec
  let nv := s.coldNv
  { State.reset with
    pending := s.pending, free := s.free, sent := s.sent, nv := nv, rcd := s.coldRecorder
    cvu := Tab.mapVal .fresh Cvu.cleared s.cvu
    pwr := { Pwr.reset with supA := s.pwr.supA, supB := s.pwr.supB, doms := s.coldDoms, step := 1,
                            result := 0, cycles := nv.cycles, opsec := opsec, holdup := s.pwr.holdup,
                            weak := s.pwr.weak }
    fus := { Fus.reset with rail := s.fus.rail, temp := s.fus.temp }
    fld := { Fld.reset with terms := s.fld.terms, accepted := none,
                            seqA := { Seq.start with st := .off }, seqB := { Seq.start with st := .off } }
    lgc := { Lgc.reset with any := false, bank := s.lgc.bank, linkA := s.lgc.linkA.cold, linkB := s.lgc.linkB.cold }
    sea := { Sea.reset with rooms := s.coldRooms, delayA := s.sea.delayA, delayB := s.sea.delayB }
    eng := { Eng.reset with engines := s.coldEngines, disA := s.eng.disA, disB := s.eng.disB, cmpA := .off, cmpB := .off, ckmA := false,
                            ckmB := false, speedA := s.eng.speedA, speedB := s.eng.speedB }
    svc := { Svc.reset with state := 0 }
    cfg := { Cfg.reset with sealNow := s.cfg.sealNow, coverOpen := s.cfg.coverOpen, coverAt := s.cfg.coverAt.map fun _ => 0 }
    por := { Por.reset with procA := { Por.reset.procA with st := .lost, losses := s.por.procA.losses }
                            procB := { Por.reset.procB with st := .lost, losses := s.por.procB.losses } }
    lnk := { Lnk.reset with ports := [] } }

/-! ### Step 2: fuse sensing (R379, R382, R386) -/

/-- Words `a` to `a + n - 1` as bytes. -/
def State.fuseBytes (s : State) (a n : Nat) : List Byte :=
  (List.range n).flatMap fun j => wordBytes (Tab.get 0#32 s.fus.shadow (a + j))

def State.fuseSense (s : State) (plost : Bool) : State :=
  let blows := if plost then [] else s.nv.blows
  let s0 := { s with nv := { s.nv with blows := blows },
                     fus := { s.fus with shadow := [], marg := [], blowing := false, nospare := false,
                                         plost := plost } }
  let s1 := (List.range 128).foldl State.reread s0
  let w (k : Nat) : Nat := (Tab.get 0#32 s1.fus.shadow k).toNat
  let s2 := { s1 with fus := { s1.fus with
    uidFail := decide (w 2 % 65536 ≠ crcOf 1#2 (s1.fuseBytes 0 2))
    trimFail := decide (w 15 ≠ crcOf 3#2 (s1.fuseBytes 3 12))
    keysFail := decide (w 48 ≠ crcOf 3#2 (s1.fuseBytes 16 32)) } }
  let s3 := blows.foldl (fun acc x => acc.setShadow x.word x.bit) s2
  let s4 := s3.fus.marg.foldl (fun acc e => acc.record 0x0202 2
    (BitVec.ofNat 8 e.1 :: wordBytes (Tab.get 0#32 acc.fus.shadow e.1))) s3
  let s5 := if plost then s4.record 0x0205 2 [] else s4
  let s6 := if s5.fus.uidFail || s5.fus.trimFail || s5.fus.keysFail
    then s5.record 0x0204 5 (wordBytes s5.fusStat) else s5
  s6.fuseScan

/-! ### Step 5: the started image (R271, R311) -/

/-- The image in the active slot, if its integrity, as the active processor's unit checks it, and its signature
hold. -/
def State.startable (s : State) : State × Option Image :=
  let k := s.nv.active
  let bs := s.slotBytes k
  match formatOk bs (s.slot k).len with
  | .error _ => (s, none)
  | .ok l =>
    let r := s.imageCrc bs (s.slot k).len l
    (r.1, if r.2.isNone && s.signatureOk bs then some (buildImage bs l) else none)

/-- The image takes its place in the sea, on the engines, in the timers and in the porch. -/
def State.placeImage (s : State) (m : Image) : State :=
  let k := s.nv.active
  let s1 := { s with cfg := { s.cfg with image := some m, slot := k } }
  let s2 := (s1.setSlotSt k .running).putPlan false (planStart m s1.freeRooms)
  let s3 := ((s2.putInsts m false).redistribute).settle
  (s3.startTimers m.timers).usePorch (some m)

/-- Step 5 of start-up. -/
def State.startImage (s0 : State) : State :=
  let s := s0.startable.1
  match s0.startable.2 with
  | none => { s with pwr := { s.pwr with result := 3 } }
  | some m =>
    if s.cfg.sealNow ≠ 0 ∧ s.cfg.sealNow ≠ m.hdr.sealCode then
      { s with pwr := { s.pwr with result := 4 } }
    else s.placeImage m

/-! ### The steps -/

/-- A domain is powered in its step, unless its rail does not come up (Table 12.5). -/
def State.powerUp (s : State) (d : Nat) (bad : List Nat) : State :=
  if bad.contains d then
    (s.setDom d { s.dom d with held := true }).domTo d .offFault
  else s.setDom d { Domain.ready with faults := (s.dom d).faults }

def State.toStep (s : State) (n : Nat) : State := { s with pwr := { s.pwr with step := n, stepAt := s.tb } }

def State.withResult (s : State) (r : Nat) : State := { s with pwr := { s.pwr with result := r } }

/-- The measurement of the store that belongs to the end of start-up (R261). -/
def State.measureStore (s : State) (o : StartOutcome) : State :=
  { s with pwr := { s.pwr with holdup := o.storeCapMs } }

/-- The end of start-up (R261, R269); SVC_CHANGE counts from here (R6, R251). -/
def State.endStart (s : State) : State :=
  let weak := decide (s.pwr.holdup < 400)
  let s1 := { s with pwr := { s.pwr with
    step := 9, duration := if s.pwr.result = 6 then 0 else s.tb / 200000,
    holdupAt := s.pwr.opsec, weak := weak } }
  let s2 := if weak then s1.record 0x0107 2 (wordBytes s1.holdupWord) else s1
  let s2b := s2.recomputeServices
  let s3 := { s2b with svc := { s2b.svc with change := 0 } }
  s3.record 0x0104 1 (wordBytes s3.startWord ++ wordBytes s3.domStat ++ wordBytes s3.devStatus)

/-- Step 1: the recorder's unit and the references. -/
def State.step1 (s : State) (o : StartOutcome) : State :=
  let s0 := s.failUnits [18] o
  let s0 := if (s0.unit 18).failed then s0.recFail .unit else s0
  let s1 := [4, 5].foldl (fun acc d => acc.powerUp d o.regBad) s0
  let bad (q : Side) : Bool := o.oscBad.contains q || !s1.powered (engDom q)
  let lost (q : Side) : OscSt := if s1.powered (engDom q) then .lost else .off
  let s2 := (s1.setOsc .a (if bad .a then lost .a else .selected)).setOsc .b
    (if bad .b then lost .b else if bad .a then .selected else .standby)
  let s3 := [Side.a, .b].foldl (fun acc q => if bad q then acc.oscRecord (sideNat q) else acc) s2
  let s4 := if bad .a && bad .b then s3.stopTime.withResult 6 else s3
  s4.toStep 2

/-- Step 3: the porch. -/
def State.step3 (s : State) (o : StartOutcome) : State :=
  let s1 := (s.powerUp 1 o.regBad).failUnits [16, 17] o
  let s2 := if s1.powered 1 then s1.startPorch o.ppBad s1.fuseFault else s1
  if s2.pwr.result = 6 then (s2.measureStore o).endStart
  else if s2.pwr.result = 1 then s2.toStep 6
  else if s2.powered 1 && s2.noFirmware then (s2.withResult 2).toStep 6
  else s2.toStep 4

/-- Step 4: the logic side. -/
def State.step4 (s : State) (o : StartOutcome) : State :=
  let s1 := [2, 3].foldl (fun acc d =>
    if acc.allRetired d then acc.setDom d { acc.dom d with st := .offRetired } else acc.powerUp d o.regBad) s
  let one (acc : State) (q : Side) : State :=
    let a := if acc.powered (seaDom q) then acc.startSea q o.roomsBad o.roomsFixed else acc
    if a.powered (engDom q) then a.startEng q o else a
  (one (one s1 .a) .b).toStep 5

/-- The Renig link ports start, and discovery runs, as step 7 begins. -/
def State.openLink (s : State) (o : StartOutcome) : State :=
  let s1 := s.powerUp 6 o.regBad
  let s2 := (s1.consList false).foldl (fun acc x => acc.startCons false x.1 x.2) s1
  let s3 := if s2.powered 6 then s2.linkStart else s2
  let us := o.cvuBad.filter fun u => 8 ≤ u ∧ u < 12
  (o.portsBad ++ us.map fun u => u - 8).foldl
    (fun acc p => if p < 4 then acc.portTo p .failed else acc) (s3.failUnits us o)

/-- Step 6: the field side. -/
def State.step6 (s : State) (o : StartOutcome) : State :=
  let s1 := s.powerUp 7 o.regBad
  let s1 := ({ s1 with lgc := { s1.lgc with inBad := o.inBad } } : State).failUnits [12, 13, 14, 15] o
  let s1 := s1.loadCal o.calBad
  let s2 := if s1.powered 7 then s1.startField 0 o else s1
  let s3 := [Side.a, .b].foldl (fun acc q =>
    let t := if acc.isRetired (10 + sideNat q)
      then acc.setLink q { acc.link q with retired := true } else acc
    let unit := (t.unit (12 + 2 * sideNat q)).failed || (t.unit (13 + 2 * sideNat q)).failed
    if o.linksBad.contains q || unit then t.judgeFaulty q else t) s2
  let out := s3.fsCode .a != 0 && s3.fsCode .b != 0
  let s4 := if out && s3.pwr.result == 0 then s3.withResult 5 else s3
  if s4.pwr.result = 1 ∨ s4.pwr.result = 2 then (s4.measureStore o).endStart else (s4.toStep 7).openLink o

/-- Step 7 is over: every consumed safety connection has accepted a frame, or 350 ms have passed (Table
12.3). -/
def State.discovered (s : State) : Bool :=
  decide (s.pwr.stepAt + 70000000 ≤ s.tb) ||
    (s.consList false).all fun x => x.2.control || (s.cons (consKey false x.1)).lastAt.isSome

/-- An engine instance is placed whose window will end start-up (R269). -/
def State.willRun (s : State) : Bool :=
  s.judging && match s.cfg.image with
    | none => false
    | some m => m.insts.any fun i => i.prio != 2 && ((s.inst false i.num).bind Inst.engine).isSome

/-- WINDOW_START: a window of an instance starts at the present tick; the first one of step 8 ends
start-up (R269). -/
def execWindowStart (staged : Bool) (i : Fin 1024) (s : State) : Host.Outcome State Fault Refusal :=
  .next <|
    let t := s.beginWindow staged i.val
    let runs (u : State) : Nat := ((u.inst staged i.val).map fun v => v.wins.length).getD 0
    if s.pwr.step = 8 ∧ runs t ≠ runs s then t.endStart else t

/-- STARTUP_STEP: the step in progress ends with what its tests found, and the next one begins. -/
def execStartupStep (o : StartOutcome) (s : State) : Host.Outcome State Fault Refusal :=
  .next <|
    if !s.alive || s.pwr.off then s
    else
      match s.pwr.step with
      | 1 => s.step1 o
      | 2 =>
        let t := s.fuseSense o.plost
        let bad := t.fus.uidFail || t.fus.trimFail || t.fus.keysFail
        (if bad && t.pwr.result == 0 then t.withResult 1 else t).toStep 3
      | 3 => s.step3 o
      | 4 => s.step4 o
      | 5 => s.startImage.toStep 6
      | 6 => s.step6 o
      | 7 =>
        if !s.discovered then s
        else
          let t := s.measureStore o
          if t.cfg.image.isNone then t.endStart else t.toStep 8
      | 8 => if s.willRun then s else (s.measureStore o).endStart
      | _ => s

end Sys2Proof.Machine
end

