-- ==== Sys2Proof/Machine/Firmware.lean ====
section
/-! DEFINITION. Porch processors: switchover, restart, and firmware loads (R340 to R342, R349, R350). -/

namespace Sys2Proof.Machine

/-! ### Loss and switchover (R341, R342) -/

/-- A lost processor; the third loss within 24 operating hours retires it. -/
def State.loseProc (s : State) (q : Side) : State :=
  let p := s.proc q
  let l := s.pwr.opsec :: within24h p.losses s.pwr.opsec
  if l.length < 3 then s.setProc q { st := .lost, losses := l }
  else (s.setProc q { st := .retired, losses := l }).retireBit (14 + sideNat q)

/-- A cache entry of a command that has not ended becomes LOST; `keep`: the one that survives. -/
def loseEntry (keep : Nat) (e : CacheEntry) : CacheEntry :=
  if e.done.isNone && e.op != keep then { e with done := some (stLost, []) } else e

def Session.loseRunning (v : Session) (keep : Nat) : Session :=
  { v with cache := v.cache.map (loseEntry keep) }

/-- What a switchover ends in the porch. -/
def State.dropPorchWork (s : State) : State :=
  let s1 := ((s.abandonLoad fun _ => true).loseRun).setCal none
  { s1 with por := { s1.por with streams := [], boxes := [] } }

/-- Processor `q` becomes active: from the mirror, or afresh. -/
def State.takeOver (s : State) (q : Side) (cause keep : Nat) (mirror : Bool) : State :=
  let s1 := s.dropPorchWork
  let sessions := if mirror then s1.por.sessions.map fun e =>
      (e.1, e.2.map fun (v : Session) => v.loseRunning keep)
    else []
  let epoch := s1.por.epoch % 255 + 1
  let s2 := { s1 with por := { s1.por with active := q, sessions := sessions, epoch := epoch } }
  let s3 := s2.setProc q { s2.proc q with st := .active }
  ((s3.post (.arpAnnounce 0 (s3.por.h1.take 4))).post (.arpAnnounce 1 (s3.por.h2.take 4))).record 0x0B01 2
    [BitVec.ofNat 8 (sideNat q), BitVec.ofNat 8 epoch, BitVec.ofNat 8 cause]

/-- The operation of a FIRMWARE_SWITCH in progress ends. -/
def State.endSwitch (s : State) (status : Nat) : State :=
  match s.por.fw with
  | none => s
  | some f =>
    let s1 := { s with por := { s.por with fw := none } }
    match f.phase with
    | .switching _ _ _ => s1.finish f.op status
    | _ => s1

/-- Both processors are out: nobody answers, and no mirror is left. The record that R250 asks for is a
SWITCHOVER whose active processor and epoch are those that stay (DESIGN CHOICE, log 89). -/
def State.porchOut (s : State) (cause : Nat) : State :=
  let s1 := s.dropPorchWork
  ({ s1 with por := { s1.por with sessions := [] } }).record 0x0B01 2
    [BitVec.ofNat 8 (sideNat s1.por.active), BitVec.ofNat 8 s1.por.epoch, BitVec.ofNat 8 cause]

/-- The active processor is lost (R341). -/
def State.loseActive (s : State) (cause : Nat) : State :=
  let old := s.por.active
  let new := otherSide old
  match (s.proc new).st with
  | .standby => ({ s.loseProc old with por := { (s.loseProc old).por with fw := none } }).takeOver new cause 0 true
  | .updating => ((s.endSwitch stFault).loseProc old).takeOver new cause 0 true
  | .restarting => (s.loseProc old).porchOut cause
  | _ => ((s.endSwitch stFault).loseProc old).porchOut cause

/-- SWITCHOVER: the active processor has failed, or the standby has stopped (R341, R342). -/
def execSwitchover (p : ProcStop) (s : State) : Host.Outcome State Fault Refusal :=
  .next <|
    if !s.porchUp || s.inLoader then s
    else
      match p with
      | .active cause => s.loseActive cause
      | .standby =>
        if (s.proc (otherSide s.por.active)).st = .standby then s.loseProc (otherSide s.por.active) else s

/-! ### Firmware loads (R349) -/

def State.bankPtr (s : State) : Side → Nat
  | .a => s.nv.bankA
  | .b => s.nv.bankB

def State.setBankPtr (s : State) (q : Side) (b : Nat) : State :=
  match q with
  | .a => { s with nv := { s.nv with bankA := b } }
  | .b => { s with nv := { s.nv with bankB := b } }

/-- Writes the bank not in use of a processor. -/
def State.putSpare (s : State) (q : Side) (v : FwBank) : State :=
  let k := 2 * sideNat q + (1 - s.bankPtr q)
  { s with nv := { s.nv with banks := Tab.set .shipped s.nv.banks k v } }

/-- The loader that serves the FIRMWARE commands. -/
def State.fwLoader (s : State) : Bool := s.inLoader && decide (s.pwr.result = 2)

/-- The processors whose spare banks a load writes. -/
def State.fwTargets (s : State) : List Side :=
  if s.inLoader then [.a, .b] else [otherSide s.por.active]

/-- A load or a switch is in progress. -/
def FwLoad.busy (f : FwLoad) : Bool :=
  match f.phase with
  | .checked _ _ => false
  | _ => true

def State.fwBegin (s : State) (len : Nat) : Answer :=
  if 4194304 < len then (s, stArg, [])
  else if s.inLoader && !s.fwLoader then (s, stState, [])
  else if !s.inLoader && decide ((s.proc (otherSide s.por.active)).st ≠ .standby) then (s, stState, [])
  else if (s.por.fw.map FwLoad.busy).getD false then (s, stBusy, [])
  else
    let f : FwLoad := { len := len, next := 0, phase := .loading, op := 0, data := [] }
    let blank : FwBank := { version := 0, rollback := 0, sound := false }
    let s1 := s.fwTargets.foldl (fun acc q => acc.putSpare q blank) s
    ({ s1 with por := { s1.por with fw := some f } }, stOk, [])

/-- A load in progress. -/
def State.fwLoading (s : State) : Option FwLoad := s.por.fw.filter fun f => decide (f.phase = .loading)

def State.fwChunk (s : State) (off : Nat) (data : List Byte) : Answer :=
  match s.fwLoading with
  | none => (s, stState, [])
  | some f =>
    match chunkFits f.data f.next f.len off data with
    | none => (s, stArg, [])
    | some false => (s, stOk, [])
    | some true =>
      let g := { f with data := f.data.writeList off data, next := off + data.length }
      ({ s with por := { s.por with fw := some g } }, stOk, [])

def State.fwEnd (s : State) (op : Nat) : Answer :=
  match s.fwLoading with
  | none => (s, stState, [])
  | some f =>
    let g : FwLoad := { f with phase := .checking, op := op }
    ({ s with por := { s.por with fw := some g } }, stAccepted, [])

/-- FIRMWARE kinds: under NO_FIRMWARE the loader serves them too (R343). -/
def fwKind (opcode : Nat) : Kind :=
  { opcode := opcode, level := .engineer, loader := true, opens := false }

/-- FIRMWARE_BEGIN. -/
def execFirmwareBegin (h : Hdr) (body : List Byte) (s : State) : Host.Outcome State Fault Refusal :=
  .next (s.request h (fwKind 0xB0) (body.length == 4) fun t _ => t.fwBegin (numAt body 0 4))

/-- FIRMWARE_CHUNK. -/
def execFirmwareChunk (h : Hdr) (body : List Byte) (s : State) : Host.Outcome State Fault Refusal :=
  .next (s.request h (fwKind 0xB1) (decide (5 ≤ body.length ∧ body.length ≤ 1004)) fun t _ =>
    t.fwChunk (numAt body 0 4) (body.drop 4))

/-- FIRMWARE_END: the checks begin. -/
def execFirmwareEnd (h : Hdr) (body : List Byte) (s : State) : Host.Outcome State Fault Refusal :=
  .next (s.request h (fwKind 0xB2) body.isEmpty fun t op => t.fwEnd op)

/-- The three checks of FIRMWARE_END: LENGTH, signature, ROLLBACK. -/
def State.fwGood (s : State) (f : FwLoad) (bytes : List Byte) : Bool :=
  decide (128 ≤ f.len ∧ f.next = f.len ∧ numAt bytes 12 4 = f.len ∧ s.rollback ≤ numAt bytes 8 1) &&
    edVerify (beBytes 32 Config.firmwareKey.toNat) (bytes.drop (f.len - 64)) (bytes.take (f.len - 64))

/-- Record FIRMWARE. -/
def State.fwRecord (s : State) (q : Side) (version : Word) (rollback status : Nat) : State :=
  s.record 0x0B03 2 ([BitVec.ofNat 8 (sideNat q)] ++ wordBytes version ++
    [BitVec.ofNat 8 rollback, BitVec.ofNat 8 status])

/-- FIRMWARE_CHECK_END: the checks of FIRMWARE_END are made. -/
def execFirmwareCheckEnd (s : State) : Host.Outcome State Fault Refusal :=
  .next <|
    match s.por.fw with
    | none => s
    | some f =>
      if f.phase ≠ .checking ∨ s.porchUp = false then s
      else
        let bytes := f.data.readList 0 f.len
        let v := wordAt bytes 4
        let r := numAt bytes 8 1
        let q := (s.fwTargets.head?).getD .a
        if s.fwGood f bytes then
          let s1 := s.fwTargets.foldl
            (fun acc x => acc.putSpare x { version := v, rollback := r, sound := true }) s
          let g : FwLoad := { f with phase := .checked v r, op := 0 }
          (({ s1 with por := { s1.por with fw := some g } }).fwRecord q v r stOk).finish f.op stOk
        else
          (({ s with por := { s.por with fw := none } }).fwRecord q v r stFault).finish f.op stFault

/-! ### FIRMWARE_SWITCH (R350) -/

def State.fwSwitch (s : State) (op : Nat) : Answer :=
  let q := otherSide s.por.active
  match s.por.fw with
  | none => (s, stState, [])
  | some f =>
    match f.phase with
    | .checked v r =>
      if !s.inLoader && decide ((s.proc q).st ≠ .standby) then (s, stState, [])
      else if s.cfg.load.isSome || s.cfg.running.isSome || s.cnv.cal.isSome || s.pwr.pfail then
        (s, stBusy, [])
      else
        let g : FwLoad := { f with phase := .switching v r false, op := op }
        let s1 := { s with por := { s.por with fw := some g } }
        (if s.inLoader then s1 else s1.setProc q { s1.proc q with st := .restarting }, stAccepted, [])
    | _ => (s, stState, [])

/-- FIRMWARE_SWITCH. -/
def execFirmwareSwitch (h : Hdr) (body : List Byte) (s : State) : Host.Outcome State Fault Refusal :=
  .next (s.request h (fwKind 0xB3) body.isEmpty fun t op => t.fwSwitch op)

/-- A processor has restarted on its new firmware or has failed to (R350 steps 1 to 4). Where the first one
fails nothing else changes: the checked load stands. -/
def State.switchRestart (s : State) (f : FwLoad) (v : Word) (r : Nat) (second : Bool) (q : Side) (ok : Bool) :
    State :=
  let done (t : State) (status : Nat) : State :=
    (({ t with por := { t.por with fw := none } }).fwRecord q v r status).finish f.op status
  if !ok then
    let u := done (s.setProc q { s.proc q with st := .standby }) stFault
    if second then u
    else { u with por := { u.por with fw := some { f with phase := .checked v r, op := 0 } } }
  else
    let s1 := s.setBankPtr q (1 - s.bankPtr q)
    if second then done (s1.setProc q { s1.proc q with st := .standby }) stOk
    else
      let old := s.por.active
      let g : FwLoad := { f with phase := .switching v r true }
      let s2 := s1.setProc old { s1.proc old with st := .updating }
      let s3 := s2.putSpare old { version := v, rollback := r, sound := true }
      let s4 := ({ s3 with por := { s3.por with fw := some g } }).takeOver q
        ((Config.freeWord s3.free).toNat % 256) f.op true
      s4.takeFree

/-- A processor that was lost boots: it stands by, or it becomes active where nobody answers. -/
def State.rejoin (s : State) (q : Side) : State :=
  let s1 := s.setUnit (procUnit q) (s.unit (procUnit q)).restarted
  if (s1.proc (otherSide q)).st = .active then s1.setProc q { s1.proc q with st := .standby }
  else (s1.takeOver q ((Config.freeWord s1.free).toNat % 256) 0 false).takeFree

/-- PROCESSOR_RESTART: a processor has restarted from ROM; `ok`: it boots and passes its self-test. -/
def execProcessorRestart (q : Side) (ok : Bool) (s : State) : Host.Outcome State Fault Refusal :=
  .next <|
    let p := s.proc q
    if !s.alive || !s.powered 1 then s
    else
      let load : Option (FwLoad × FwPhase) := s.por.fw.map fun f => (f, f.phase)
      match p.st, load with
      | .loader, some (_, .switching _ _ _) =>
        ((s.setBankPtr .a (1 - s.nv.bankA)).setBankPtr .b (1 - s.nv.bankB)).coldStart
      | .restarting, some (f, .switching v r false) =>
        let t := s.setUnit (procUnit q) (s.unit (procUnit q)).restarted
        if s.porchUp then t.switchRestart f v r false q ok
        else
          let u := if ok then t.setBankPtr q (1 - t.bankPtr q) else t
          ({ u with por := { u.por with fw := none } }).rejoin q
      | .updating, some (f, .switching v r true) =>
        (s.setUnit (procUnit q) (s.unit (procUnit q)).restarted).switchRestart f v r true q ok
      | .lost, _ =>
        if ok && s.bankOk q then s.rejoin q
        else (s.setProc q { p with st := .retired }).retireBit (14 + sideNat q)
      | _, _ => s

end Sys2Proof.Machine
end

