-- ==== Sys2Proof/Machine/CheckUnits.lean ====
section
/-! DEFINITION. The owners' use of the check-value units, their self-check and their failure
(R299 to R304). -/

namespace Sys2Proof.Machine

/-- The unit's domain is powered. -/
def State.unitOn (s : State) (u : Nat) : Bool := s.alive && s.powered (cvuDomain u)

/-- Table 14.4: a failed unit is charged to its owner. -/
def State.chargeUnit (s : State) (u : Nat) : State :=
  if u < 8 then ((s.suspectEngine u .engine).redistribute).settle
  else if u < 12 then s.portTo (u - 8) .failed
  else if u < 14 then s.judgeFaulty .a
  else if u < 16 then s.judgeFaulty .b
  else if u < 18 then
    let q : Side := if u = 16 then .a else .b
    if q = s.por.active then
      (if s.porchUp && !s.inLoader then
        (s.loseActive ((Config.freeWord s.free).toNat % 256)).takeFree else s)
    else if (s.proc q).st = .standby then s.loseProc q
    else s
  else s.recFail .unit

/-- Every unit that has failed, and is not charged yet, is charged. -/
def State.chargeUnits (s : State) : State :=
  (List.range 19).foldl (fun acc u => if (acc.unit u).due then (acc.charged u).chargeUnit u else acc) s

/-- INIT of unit `u`; in ALIVE mode it makes two byte-steps (R300, R303). -/
def State.initUnit (s : State) (u : Nat) : State :=
  if (s.unit u).alive then s.runUnit u Cvu.init else s.setUnit u (s.unit u).init

/-- INIT: CVU_CMD.INIT (R300). -/
def execCvuInit (u : Fin 19) (s : State) : Host.Outcome State Fault Refusal :=
  .next (if s.unitOn u.val then (s.initUnit u.val).chargeUnits else s)

/-- A defect of unit `u` shows in its next `n` checks. -/
def State.upsetUnit (s : State) (u n : Nat) : State :=
  s.setUnit u { s.unit u with upset := (s.unit u).upset + n }

/-- CVU_DATA8, CVU_DATA16 and CVU_DATA32 by `width` 0, 1 and 2 (R299); `differ`: whether a defect of the unit
shows in these byte-steps, or will show in checks to come (R303). -/
def execCvuData (u : Fin 19) (width : Fin 3) (v : Word) (differ : CopyFault) (s : State) :
    Host.Outcome State Fault Refusal :=
  .next <|
    if !s.unitOn u.val then s
    else
      let n := 2 ^ width.val
      let fed (t : State) : State := t.runUnit u.val fun c => c.feed (beBytes n (v.toNat % 256 ^ n))
      (match differ with
       | .none => fed s
       | .now => fed (if (s.unit u.val).fault then s else s.upsetUnit u.val 1)
       | .later k => (fed s).upsetUnit u.val k).chargeUnits

/-- CVU_EXPECT (R302). -/
def execCvuExpect (u : Fin 19) (v : Word) (s : State) : Host.Outcome State Fault Refusal :=
  .next (if s.unitOn u.val then s.setUnit u.val ((s.unit u.val).expect v.toNat) else s)

/-- STATE_RECOMPUTE: within 1 ms of a change (R243). Units that have failed are charged, and a join that R249 calls
for starts, first. -/
def execStateRecompute (s : State) : Host.Outcome State Fault Refusal :=
  .next (if s.alive then s.chargeUnits.autoJoin.recomputeServices else s)

/-! ### Registers of the CVU_ block (R306) -/

/-- What a read of offset `o` of the block gives. -/
def State.readCvu (s : State) (o : Nat) : Word :=
  let u := o / 0x40
  let c := s.unit u
  if 19 ≤ u then 0
  else match o % 0x40 with
    | 0x00 => mkWord [(b2n c.autoinc, 3), (b2n c.alive, 2), (c.poly.toNat, 0)]
    | 0x08 => mkWord [(c.aliveV.toNat, 0)]
    | 0x18 => BitVec.ofNat 32 c.result
    | 0x20 => mkWord [(c.bad, 16), (c.faults, 8), (b2n c.failed, 3), (b2n c.fault, 2), (b2n c.cmpd, 1),
        (b2n c.match_, 0)]
    | 0x24 => c.len
    | _ => 0

/-- An owner's write of CVU_CTL or CVU_ALIVE. -/
def Cvu.write (c : Cvu) (o : Nat) (v : Word) : Cvu :=
  match o with
  | 0x00 => { c with autoinc := bitOf v 3, alive := bitOf v 2, poly := BitVec.ofNat 2 (bf v 1 0) }
  | 0x08 => { c with aliveV := BitVec.ofNat 16 (bf v 15 0) }
  | _ => c

/-- An owner's write of offset `o` of unit `u`. -/
def State.writeUnit (s : State) (u o : Nat) (v : Word) : State :=
  if !s.unitOn u then s
  else
    let c := s.unit u
    match o with
    | 0x04 => if bitOf v 0 then s.initUnit u else s
    | 0x0C => s.runUnit u fun c => c.feed (beBytes 1 (v.toNat % 256))
    | 0x10 => s.runUnit u fun c => c.feed (beBytes 2 (v.toNat % 65536))
    | 0x14 => s.runUnit u fun c => c.feed (wordBytes v)
    | 0x1C => s.setUnit u (c.expect v.toNat)
    | _ => s.setUnit u (c.write o v)

/-- The unit of a local writer (Table 14.1). -/
def State.unitOf (s : State) (w : Agent) : Option Nat :=
  match w with
  | .engine e => some e.val
  | .inst st i => s.carrier st i.val
  | .porch => some (procUnit s.por.active)

/-- A write to offset `o` of the CVU_ block by its owner's local access; a host command reaches no
unit (R296). -/
def State.writeCvu (s : State) (w : Agent) (host : Bool) (o : Nat) (v : Word) : State :=
  if host then s
  else if s.unitOf w = some (o / 0x40) then (s.writeUnit (o / 0x40) (o % 0x40) v).chargeUnits
  else s

end Sys2Proof.Machine
end

