-- ==== Sys2Proof/Machine/Fabric.lean ====
section
/-! DEFINITION. The commands of the Renig link: greetings, topology, connections, hop-by-hop traffic,
peers (chapter 17). -/

namespace Sys2Proof.Machine

/-! ### HELLO (R357, Table 17.4) -/

/-- Address coding that a port shows: the roof address on a ROOF port. -/
def State.portAddr (s : State) (p : Nat) : Option Nat :=
  if s.portRole p = 2 then s.roofAddr else s.ownAddr

/-- SRC of a frame that the device originates on a port. -/
def State.portSrc (s : State) (p : Nat) : Nat := (s.portAddr p).getD 0x3FFF

def State.helloBody (s : State) (p : Nat) : List Byte :=
  let v := s.port p
  let addr := match s.portAddr p with
    | some a => a % 0x4000
    | none => 0x8000
  let flags := p * 64 + b2n (s.role == 1) * 32 + b2n (s.role == 2) * 16 +
    b2n (s.portRole p == 2) * 8 + b2n s.eng.taint * 4
  let hold := match v.helloAt with
    | some t => s.tb - t
    | none => 0
  be64 s.uid ++ be16 addr ++ [BitVec.ofNat 8 flags, 0#8] ++ be32 s.lnk.lsaSeq ++ be64 v.nuid ++
    be32 (s.tb % 2 ^ 32) ++ be32 v.txt ++ be32 (hold % 2 ^ 32)

/-- The HELLO that leaves a port now. -/
def State.helloFrame (s : State) (p : Nat) : List Byte :=
  mkFrame 3 0x01 48 0x3FFF (s.portSrc p) s.eng.taint (s.helloBody p)

/-- The port takes part: in DOWN or UP. -/
def State.portLive (s : State) (p : Nat) : Bool :=
  s.linkOn && s.portRole p != 0 && ((s.port p).st == .down || (s.port p).st == .up)

/-- HELLO: every 1 ms on a port. -/
def execHello (p : Fin 4) (s : State) : Host.Outcome State Fault Refusal :=
  .next <|
    let v := s.port p.val
    let due := match v.sentAt with
      | some t => decide (t + 200000 ≤ s.tb)
      | none => true
    if s.portLive p.val && s.ticking && due then
      let s1 := s.setPort p.val { v with sentAt := some s.tb }
      s1.emit p.val (s.helloFrame p.val)
    else s

/-- Delay of an exchange (R357). -/
def helloDelay (tb echo hold : Nat) : Nat := ((tb + 2 ^ 33 - echo - hold) % 2 ^ 32) / 2

/-- A valid HELLO on port `p`. -/
def State.greet (s : State) (p : Nat) (b : List Byte) : State :=
  let v := s.port p
  let heard := numAt b 16 8
  let mine := heard == s.uid
  let flags := byteAt b 10
  let delays := if mine then (helloDelay (s.tb % 2 ^ 32) (numAt b 28 4) (numAt b 32 4) :: v.delays).take 16
    else v.delays
  let w := { v with helloAt := some s.tb, txt := numAt b 24 4, nuid := numAt b 0 8, naddr := numAt b 8 2,
                    ntaint := flags.testBit 2, nmaster := flags.testBit 5, nstandby := flags.testBit 4,
                    delays := delays, run := if mine then v.run + 1 else 0 }
  let slow := decide (200 < w.delay)
  let moved := v.nuid != w.nuid || v.naddr != w.naddr
  let s1 := s.setPort p { w with slow := slow }
  let s2 := if moved && v.st == .up then
    ({ s1 with lnk := { s1.lnk with lsaDue := true } }).routesDue else s1
  if slow then
    (if v.st = .up then s2.portTo p .down
     else if v.slow then s2 else s2.portRecord p v.st.code v.st.code)
  else if !mine && heard != 0 then s2.portTo p .down
  else if 2 ≤ w.run ∧ v.st = .down then s2.portTo p .up
  else s2

/-- HELLO_RECEIVED; every frame of an EXPELLED node is dropped (R362). -/
def execHelloReceived (p : Fin 4) (f : List Byte) (s : State) : Host.Outcome State Fault Refusal :=
  .next <|
    if !s.portLive p.val then s
    else
      match s.takeFrame p.val f 3 0x01 with
      | (s1, some x) =>
        if x.body.length ≠ 36 then s1.malformed p.val
        else if s1.nv.expel.contains (numAt x.body 0 8) then s1.discard p.val 3
        else s1.greet p.val x.body
      | (s1, none) => s1

/-- HELLO_TIMEOUT: no valid HELLO for 3.5 ms. -/
def execHelloTimeout (p : Fin 4) (s : State) : Host.Outcome State Fault Refusal :=
  .next <|
    let v := s.port p.val
    match v.helloAt with
    | some t =>
      if s.portLive p.val && decide (t + 700000 ≤ s.tb) && (v.st == .up || v.run != 0) then
        (s.setPort p.val { v with timeouts := satAdd 0xFFFF v.timeouts 1, run := 0 }).portTo p.val .down
      else s
    | none => s

/-! ### LSA (R358, Table 17.5) -/

def LsaLink.bytes (k : LsaLink) : List Byte :=
  be64 k.uid ++ be16 k.addr ++ [BitVec.ofNat 8 (k.port * 64), 0#8] ++ be16 k.sload ++ be16 0

def Lsa.bytes (l : Lsa) : List Byte :=
  be64 l.uid ++ be16 l.addr ++ be32 l.seq ++
    [BitVec.ofNat 8 (16 * b2n l.master + 8 * b2n l.standby + 4 * b2n l.taint),
      BitVec.ofNat 8 l.links.length] ++ l.links.flatMap LsaLink.bytes

def readLsa (b : List Byte) (now : Nat) : Option Lsa :=
  let n := byteAt b 15
  if b.length = 16 + 16 * n ∧ n ≤ 4 then
    some { uid := numAt b 0 8, addr := numAt b 8 2, seq := numAt b 10 4,
           master := (byteAt b 14).testBit 4, standby := (byteAt b 14).testBit 3,
           taint := (byteAt b 14).testBit 2, lastAt := now
           links := (List.range n).map fun i =>
             { uid := numAt b (16 + 16 * i) 8, addr := numAt b (24 + 16 * i) 2,
               port := byteAt b (26 + 16 * i) / 64, sload := numAt b (28 + 16 * i) 2 } }
  else none

/-- UP ports of a role. -/
def State.upPorts (s : State) (role : Nat) : List Nat :=
  (List.range 4).filter fun p => (s.port p).st == .up && s.portRole p == role

/-- Sends an LSA on the UP ports of its tier. -/
def State.sendLsa (s : State) (role : Nat) (l : Lsa) : State :=
  (s.upPorts role).foldl (fun acc p =>
    acc.emit p (mkFrame 1 0x02 48 0x3FFF (acc.portSrc p) acc.eng.taint l.bytes)) s

/-- LSA: the device originates its LSA, at a change and every 1 s. -/
def execLsa (s : State) : Host.Outcome State Fault Refusal :=
  .next <|
    let due := s.lnk.lsaDue || match s.lnk.lsaAt with
      | some t => decide (t + 200000000 ≤ s.tb)
      | none => true
    if !s.linkOn || s.ownAddr.isNone || !due then s
    else
      let s1 := { s with lnk := { s.lnk with lsaSeq := (s.lnk.lsaSeq + 1) % 2 ^ 32, lsaAt := some s.tb,
                                             lsaDue := false } }
      let s2 := s1.sendLsa 1 (s1.selfLsa false)
      if s2.role = 0 then s2 else s2.sendLsa 2 (s2.selfLsa true)

/-- SEQ of an LSA is newer than the one held (R358). -/
def seqNewer (new old : Nat) : Bool :=
  let d := (new + 2 ^ 32 - old) % 2 ^ 32
  decide (1 ≤ d ∧ d ≤ 2 ^ 31)

/-- Takes an LSA into a database. -/
def putLsa (l : Lsa) : List Lsa → List Lsa
  | [] => [l]
  | x :: xs => if x.uid = l.uid then l :: xs else x :: putLsa l xs

/-- Two LSAs bear on routes alike. -/
def Lsa.alike (x y : Lsa) : Bool :=
  x.addr == y.addr && x.master == y.master && x.standby == y.standby && x.taint == y.taint &&
    (x.links.map fun k => (k.uid, k.addr, k.port)) == (y.links.map fun k => (k.uid, k.addr, k.port))

/-- A newer LSA enters its database and is flooded on. -/
def State.acceptLsa (s : State) (p : Nat) (x : Frame) (l : Lsa) : State :=
  let roof := decide (s.portRole p = 2)
  let db := if roof then s.lnk.roof else s.lnk.db
  let old := db.find? fun y => y.uid == l.uid
  let fresh := match old with
    | some o => seqNewer l.seq o.seq
    | none => true
  if !fresh then s
  else
    let new := putLsa l db
    let s1 := { s with lnk := if roof then { s.lnk with roof := new } else { s.lnk with db := new } }
    let s2 := if (old.map l.alike).getD false then s1 else s1.routesDue
    if s2.ownAddr.isNone || decide (x.ttl ≤ 1) then s2
    else
      ((s2.upPorts (if roof then 2 else 1)).filter fun q => q != p).foldl (fun acc q =>
        acc.emit q (mkFrame 1 0x02 (x.ttl - 1) x.dst x.src x.taint x.body)) s2

/-- LSA_RECEIVED. -/
def execLsaReceived (p : Fin 4) (f : List Byte) (s : State) : Host.Outcome State Fault Refusal :=
  .next <|
    if !s.portLive p.val then s
    else
      match s.takeFrame p.val f 1 0x02 with
      | (s1, none) => s1
      | (s1, some x) =>
        match readLsa x.body s1.tb with
        | none => s1.malformed p.val
        | some l =>
          let roof := decide (s1.portRole p.val = 2)
          let home := match s1.fab with
            | some f => roof || l.addr / 256 == f.fabric
            | none => true
          if l.uid = s1.uid then s1
          else if s1.nv.expel.contains l.uid then
            (if roof then s1 else s1.keepClaim l.uid (some l.addr)).discard p.val 1
          else if (s1.port p.val).st ≠ .up ∨ decide (32768 ≤ l.addr) ≠ roof ∨ home = false then s1.discard p.val 1
          else s1.acceptLsa p.val x l

/-- LSA_AGE_OUT: the LSA of an origin has not been refreshed for 3.5 s. -/
def execLsaAgeOut (uid : Long) (s : State) : Host.Outcome State Fault Refusal :=
  .next <|
    let keep (l : Lsa) : Bool := !(l.uid == uid.toNat && decide (l.lastAt + 700000000 ≤ s.tb))
    let db := s.lnk.db.filter keep
    let roof := s.lnk.roof.filter keep
    if db = s.lnk.db ∧ roof = s.lnk.roof ∨ s.linkOn = false then s
    else ({ s with lnk := { s.lnk with db := db, roof := roof } }).routesDue

/-- ROUTE_RECOMPUTE: the routes and the peer table follow the database (R359, R361, R363). -/
def execRouteRecompute (s : State) : Host.Outcome State Fault Refusal :=
  .next (if s.linkOn && s.lnk.routeDue.isSome then (s.judgePeers.recompute).seeDiffer else s)

/-! ### Producing (R365) -/

/-- A payload bit as latched or committed before the present tick. -/
def State.prodBit (s : State) : Source → Bool
  | .latch r l => s.latchAs false r l true
  | .inst i o => s.instOutBefore false i o
  | _ => false

/-- Payload of a produced connection. -/
def State.prodPayload (s : State) (c : ProdImg) : List Byte :=
  let bits := c.sources.map s.prodBit
  (List.range c.plen).map fun j =>
    BitVec.ofNat 8 (((List.range 8).map fun b => b2n (nth bits (8 * j + b) false) * 2 ^ b).sum)

/-- A frame leaves by a port; on a port that is not UP it is lost (R366). -/
def State.leave (s : State) (p : Nat) (f : List Byte) : State :=
  if (s.port p).st = .up then s.emit p f else s.discard p (byteAt f 0 / 64)

/-- One copy of a release on one route. -/
def State.copyOn (s : State) (c : ProdImg) (src dst alive : Nat) (payload : List Byte) (r : Route) : State :=
  match r.legs with
  | [[leg], ports] =>
    let head := sdataHead r.rt leg 1 ports 1 (decide (s.pwr.step < 9)) 0
    let body := head ++ [BitVec.ofNat 8 c.conn, BitVec.ofNat 8 c.plen] ++ be16 c.layout ++ be16 alive ++
      payload
    match ports with
    | p :: _ =>
      let s1 := s.runUnit (8 + p) fun c => c.aliveCheck false alive (scrcBytes dst src body)
      (s1.leave p (mkFrame 0 0x01 48 dst src s1.eng.taint
        (body ++ be32 ((s1.unit (8 + p)).given (scrc dst src body))))).chargePort p
    | [] => s
  | _ => s

/-- Port toward an address, hop by hop (R359): a shortest path, ties toward the neighbour of lower
address. -/
def State.hopTo (s : State) (addr : Nat) : Option Nat :=
  let best (l : List (List Hop)) : Option Nat :=
    let key (p : List Hop) : List Nat :=
      match p with
      | h :: _ => [p.length, h.2.addr, h.1]
      | [] => []
    (l.foldl (fun (acc : Option (List Hop)) p =>
      match acc with
      | none => some p
      | some q => if lexLt (key p) (key q) then some p else some q) none).bind fun p =>
        p.head?.map Prod.fst
  let near (u : Nat) : Option Nat := best (s.pathsOver false u)
  match s.fab with
  | none => none
  | some f =>
    if addr / 256 % 64 = f.fabric then
      (s.holder addr).bind near
    else
      let roof := ((s.roofUid (addr / 256 % 64) 0).or (s.roofUid (addr / 256 % 64) 1)).bind fun u =>
        best (s.pathsOver true u)
      if f.role ≠ 0 ∧ roof.isSome = true then roof
      else match s.relayUid 0 with
        | some u => if u = s.uid then none else near u
        | none => none

/-- One copy set of a produced connection leaves for one consumer: a control frame hop by hop, or a
safety frame on each route in use (R359, R366). -/
def State.sendOne (s : State) (c : ProdImg) (src alive : Nat) (payload : List Byte) (uid : Nat)
    (routes : List Route) : State :=
  match (if c.control then s.ctlAddr uid else s.addrFor uid) with
  | none => s
  | some dst =>
    if c.control then
      match s.hopTo dst with
      | some p => s.leave p (mkFrame 1 0x10 48 dst src s.eng.taint
          (be16 0 ++ [BitVec.ofNat 8 c.conn, BitVec.ofNat 8 c.plen] ++ payload))
      | none => s
    else routes.foldl (fun a r => a.copyOn c src dst alive payload r) s

/-- A produced connection is released at a multiple of its period (R365). -/
def State.release (s : State) (k : Nat) : State :=
    match s.fab, s.ownAddr with
    | some fb, some src =>
      match fb.produced[k]? with
      | none => s
      | some c =>
        let v := Tab.get Prod.start s.lnk.prod k
        if !s.linkOn || !s.ticking || decide (s.pwr.step < 7) || v.lastAt == some s.tb ||
            s.tb % (c.period * 50000) != 0 then s
        else
          let alive := (v.alive + 1) % 65536
          let prod := Tab.set Prod.start s.lnk.prod k { v with alive := alive, lastAt := some s.tb }
          let payload := s.prodPayload c
          let s1 := { s with lnk := { s.lnk with prod := prod } }
          c.consumers.zipIdx.foldl (fun acc u =>
            acc.sendOne c src alive payload u.1.toNat (nth v.routes u.2 [])) s1
    | _, _ => s

/-- RELEASE; a hand-over commit of the same tick comes first (Table 17.8). -/
def execRelease (k : Fin 320) (s : State) : Host.Outcome State Fault Refusal :=
  .next (s.handoverDue.release k.val)

/-! ### SDATA (R366 to R369, R372) -/

/-- Ports of PATH. -/
def pathPort (w hop : Nat) : Nat := w / 4 ^ (15 - hop) % 4

/-- A copy goes on with new route fields. -/
def State.sendOn (s : State) (p : Nat) (x : Frame) (head : List Byte) (port : Nat) : State :=
  if x.ttl ≤ 1 then s.discard p 0
  else s.leave port (mkFrame 0 0x01 (x.ttl - 1) x.dst x.src x.taint (head ++ x.body.drop 10))

/-- A copy at a node: delivered, relayed onto its next leg, or forwarded. Every node, the consumer too, adds
the measured delay of the incoming link to ACC (R367). -/
def State.passCopy (s : State) (p : Nat) (x : Frame) : State :=
  let b := x.body
  let rt := decide (128 ≤ byteAt b 0)
  let leg := byteAt b 0 / 32 % 4
  let hop := byteAt b 0 % 32
  let npath := byteAt b 1 % 32
  let starting := decide (128 ≤ byteAt b 7)
  let acc := numAt b 8 2 + (s.port p).delay / 2
  if some x.dst = s.ownAddr ∧ npath ≤ hop then
    s.deliver p { x with body := b.take 8 ++ be16 (min 0xFFFF acc) ++ b.drop 10 }
  else if hop < npath ∧ npath ≤ 16 then
    let ports := (List.range npath).map (pathPort (numAt b 2 4))
    s.sendOn p x (sdataHead rt leg (hop + 1) ports (byteAt b 6 + 1) starting acc) (nth ports hop 0)
  else
    match s.legTo x.dst rt (leg == 1) with
    | some (l, q :: qs) =>
      s.sendOn p x (sdataHead rt l 1 (q :: qs) (byteAt b 6 + 1) starting acc) q
    | _ => s.discard p 0

/-- A frame from or to an EXPELLED node, or on a port that is not UP, is dropped (R362). -/
def State.admits (s : State) (p : Nat) (x : Frame) : Bool :=
  (s.port p).st == .up && !s.expelledAddr x.src && !s.expelledAddr x.dst && s.ownAddr.isSome

/-- SDATA: a copy of a safety connection arrives. -/
def execSdata (p : Fin 4) (f : List Byte) (s : State) : Host.Outcome State Fault Refusal :=
  .next <|
    if !s.portLive p.val then s
    else
      match s.takeFrame p.val f 0 0x01 with
      | (s1, none) => s1
      | (s1, some x) =>
        if x.body.length < 20 then s1.malformed p.val
        else if s1.admits p.val x then s1.passCopy p.val x
        else s1.discard p.val 0

/-- The watchdog of one connection; a copy accepted in the tick of the expiry is taken first, so it acts once that tick
has passed (R368). -/
def State.watch (s : State) (st : Bool) (k : Nat) : State :=
  match s.consImg st k with
  | none => s
  | some c =>
    let v := s.cons (consKey st k)
    match v.lastAt with
    | some t =>
      if !c.control && v.st != .wait && v.st != .failsafe && decide (t + c.limit < s.tb) then s.failCons st k c
      else s
    | none => s

/-- WATCHDOG: no copy has been accepted for N × P. -/
def execWatchdog (k : Fin 320) (s : State) : Host.Outcome State Fault Refusal :=
  .next (if s.alive then (s.watch false k.val).watch true k.val else s)

/-! ### Control and bulk frames (R359, R370) -/

/-- A control connection takes a value; before it the fail-safe values stood. -/
def State.setControl (s : State) (key : Nat) (c : ConsImg) (v : List Byte) : State :=
  let old := Tab.get Ctl.none s.lnk.control key
  let was := if old.val.isEmpty then c.failsafe else if old.valAt = s.tb then old.prev else old.val
  { s with lnk := { s.lnk with control := Tab.set Ctl.none s.lnk.control key { val := v, prev := was, valAt := s.tb } } }

/-- The control value of a frame reaches the consumed connections that it names (R375); one that names none is counted
as discarded. -/
def State.takeControl (s : State) (p : Nat) (x : Frame) : State :=
  let b := x.body
  let hit (c : ConsImg) : Bool := c.control && c.conn == byteAt b 2 && c.plen == byteAt b 3 &&
    s.ctlAddr c.uid.toNat == some x.src && (match s.holder x.src with
      | some u => s.feeds u c
      | none => true)
  if (s.consList false ++ s.consList true).any fun e => hit e.2 then
    s.overCons fun a st k c => if hit c then a.setControl (consKey st k) c (bytesAt b 4 (byteAt b 3)) else a
  else s.discard p 1

/-- A control or bulk frame goes on toward its address. -/
def State.hopOn (s : State) (p : Nat) (x : Frame) : State :=
  match s.hopTo x.dst with
  | some q =>
    if x.ttl ≤ 1 then s.discard p x.cls
    else s.leave q (mkFrame x.cls x.kind (x.ttl - 1) x.dst x.src x.taint x.body)
  | none => s.discard p x.cls

/-- CDATA: a control frame arrives. -/
def execCdata (p : Fin 4) (f : List Byte) (s : State) : Host.Outcome State Fault Refusal :=
  .next <|
    if !s.portLive p.val then s
    else
      match s.takeFrame p.val f 1 0x10 with
      | (s1, none) => s1
      | (s1, some x) =>
        let n := byteAt x.body 3
        if x.body.length ≠ 4 + n ∨ n = 0 ∨ 100 < n then s1.malformed p.val
        else if s1.admits p.val x = false then s1.discard p.val 1
        else if 1000 < numAt x.body 0 2 then
          let v := s1.port p.val
          s1.setPort p.val { v with aged := satAdd 0xFFFF v.aged 1 }
        else if some x.dst = s1.ownAddr then s1.takeControl p.val x
        else s1.hopOn p.val x

/-- A P2 instance of the device posts a bulk frame; its post status says whether the queue took it. A post without a
route is refused too (DESIGN CHOICE, log 101). -/
def State.postBulk (s : State) (p : Nat) (x : Frame) : State :=
  match s.hopTo x.dst with
  | some q =>
    let s1 := { s with lnk := { s.lnk with post := s.postStatus q } }
    s1.leave q (mkFrame 2 0x20 48 x.dst x.src s.eng.taint x.body)
  | none =>
    let s1 := { s with lnk := { s.lnk with post := stCapacity } }
    let v := s1.port p
    s1.setPort p { v with refused := satAdd 0xFFFF v.refused 1 }

/-- BDATA: a bulk frame arrives, or a P2 instance of the device posts one. -/
def execBdata (p : Fin 4) (f : List Byte) (s : State) : Host.Outcome State Fault Refusal :=
  .next <|
    if !s.portLive p.val then s
    else
      match s.takeFrame p.val f 2 0x20 with
      | (s1, none) => s1
      | (s1, some x) =>
        let n := byteAt x.body 2
        let here := decide (x.dst / 256 % 64 = (s1.fab.map FabricImg.fabric).getD 64)
        if x.body.length ≠ 4 + n ∨ n = 0 ∨ 112 < n then s1.malformed p.val
        else if s1.admits p.val x = false then s1.discard p.val 2
        else if some x.dst = s1.ownAddr then
          { s1 with lnk := { s1.lnk with bulk := s1.lnk.bulk ++ [(numAt x.body 0 2, bytesAt x.body 4 n)] } }
        else if !here then s1.discard p.val 2
        else if s1.isOwn f then s1.postBulk p.val x
        else s1.hopOn p.val x

/-- SAFETY_LOAD_WINDOW: a 250 µs window of a port ends (R370). -/
def execSafetyLoadWindow (p : Fin 4) (s : State) : Host.Outcome State Fault Refusal :=
  .next <|
    let v := s.port p.val
    if !s.portLive p.val || s.tb % 50000 != 0 || v.winAt == s.tb then s
    else
      let load := v.safeBytes / 10
      let loads := if load = 0 then v.loads else (s.tb, load) :: v.loads
      s.setPort p.val
        { v with highest := min 0xFFFF (max v.highest load)
                 safeover := if 3000 < v.safeBytes then satAdd 0xFF v.safeover 1 else v.safeover
                 safeBytes := 0, winAt := s.tb
                 loads := loads.filter fun x => decide (s.tb < x.1 + 200000000) }

/-! ### The queues of the ports (R370) -/

/-- A waiting frame as it leaves now: a HELLO is made at its transmission (Table 17.4), a safety copy
has its waiting time in ACC (R367), a control frame in AGE (R370). -/
def State.departing (s : State) (p : Nat) (w : Waiting) : List Byte :=
  let f := w.frame
  if byteAt f 0 / 64 = 3 then s.helloFrame p
  else if byteAt f 0 / 64 = 0 then
    renewed f 16 (min 0xFFFF (numAt f 16 2 + (s.tb - w.since) / 2))
  else if byteAt f 0 = 0x50 then renewed f 8 (min 0xFFFF (w.age s.tb))
  else f

/-- Control frames whose AGE exceeds 10 ms are discarded as they wait. -/
def Port.dropAged (v : Port) (now : Nat) : Port :=
  let fresh := v.ctrlQ.filter fun w => decide (w.age now ≤ 1000)
  if fresh = v.ctrlQ then v
  else { v with ctrlQ := fresh, aged := satAdd 0xFFFF v.aged (v.ctrlQ.length - fresh.length) }

/-- The control queue goes next: alone, or with at most three times the bytes that bulk had. -/
def Port.ctrlNext (v : Port) : Bool :=
  !v.ctrlQ.isEmpty && (v.bulkQ.isEmpty || decide (v.ctrlShare ≤ 3 * v.bulkShare))

/-- The frame that goes next, and the port without it: link-local and safety first, in order of
arrival; control and bulk share what is left 3 to 1. -/
def Port.next (v : Port) : Option (Waiting × Port) :=
  let both := !v.ctrlQ.isEmpty && !v.bulkQ.isEmpty
  let share (n : Nat) (w : Waiting) : Nat := if both then n + w.frame.length + 4 else 0
  let keep (n : Nat) : Nat := if both then n else 0
  match v.safeQ, v.ctrlNext, v.ctrlQ, v.bulkQ with
  | w :: ws, _, _, _ => some (w, { v with safeQ := ws })
  | [], true, w :: ws, _ =>
    some (w, { v with ctrlQ := ws, ctrlShare := share v.ctrlShare w, bulkShare := keep v.bulkShare })
  | [], _, _, w :: ws =>
    some (w, { v with bulkQ := ws, bulkShare := share v.bulkShare w, ctrlShare := keep v.ctrlShare })
  | [], _, _, [] => none

/-- The next waiting frame leaves a free port. -/
def State.servePort (s : State) (p : Nat) : State :=
  let v := (s.port p).dropAged s.tb
  if s.tb < v.busyTo then s
  else
    match v.next with
    | some (w, v1) => (s.setPort p v1).transmit p (s.departing p w)
    | none => if v = s.port p then s else s.setPort p v

/-- The ports in turn, as time passes. -/
def State.servePorts (s : State) : State :=
  if s.linkOn then (List.range 4).foldl State.servePort s else s

/-! ### Peers (R361, R362) -/

/-- Hops from the device to a node, 0 where there is no path. -/
def State.hopsTo (s : State) (roof : Bool) (uid : Nat) : Nat :=
  ((bestPath (s.pathsOver roof uid)).map List.length).getD 0

/-- Ports on which a node is seen: those that begin a path to it. -/
def State.portsTo (s : State) (roof : Bool) (uid : Nat) : Nat :=
  let ps := (s.pathsOver roof uid).filterMap fun p => p.head?.map Prod.fst
  ((List.range 4).map fun p => if ps.contains p then 2 ^ p else 0).sum

/-- Entry of FABRIC_MAP (Table 16.9); a node of another fabric is seen on the roof (R373). -/
def State.mapEntry (s : State) (uid addr : Nat) : List Byte :=
  let roof := decide (0x8000 ≤ addr)
  let l := if roof then s.lnk.roof.find? fun x => x.uid == uid else s.lsaOf uid
  let role := match s.fab with
    | some f =>
      if roof then 2 * b2n (addr % 256 == 0) + 4 * b2n (addr % 256 == 1)
      else 2 * b2n (addr == addrOf f.fabric f.master) + 4 * b2n (addr == addrOf f.fabric f.standby)
    | none => 0
  let st := if !roof then s.peerState uid
    else if s.nv.expel.contains uid then 3 else if s.nv.accept.contains uid then 1 else 2
  be64 uid ++ be16 (addr % 0x4000) ++ [BitVec.ofNat 8 st, BitVec.ofNat 8 (s.hopsTo roof uid),
    BitVec.ofNat 8 (s.portsTo roof uid), BitVec.ofNat 8 (b2n ((l.map Lsa.taint).getD false) + role), 0#8, 0#8]

/-- Nodes that FABRIC_MAP lists of a fabric, in ascending node number. -/
def State.mapNodes (s : State) (fabric : Nat) : List (Nat × Nat) :=
  let own := (s.fab.map FabricImg.fabric)
  if own = some fabric then
    let l := (s.peerUids.filterMap fun u => (match s.lsaOf u with
      | some x => some x.addr
      | none => s.addrFor u).map fun a => (a, u)) ++ (s.ownAddr.map fun a => (a, s.uid)).toList
    (List.range 256).flatMap fun n => l.filter fun x => x.1 == addrOf fabric n
  else
    (List.range 2).flatMap fun n => (s.lnk.roof.filter fun l => l.addr == 0x8000 + addrOf fabric n).map
      fun l => (l.addr, l.uid)

def State.fabricMap (s : State) (fabric first count : Nat) : List Byte :=
  let f := if fabric = 0xFF then (s.fab.map FabricImg.fabric).getD 0 else fabric
  let l := ((s.mapNodes f).filter fun x => decide (first ≤ x.1 % 256)).take count
  [BitVec.ofNat 8 l.length, 0#8, 0#8, 0#8] ++ l.flatMap fun x => s.mapEntry x.2 x.1

/-- FABRIC_MAP. -/
def execFabricMap (h : Hdr) (body : List Byte) (s : State) : Host.Outcome State Fault Refusal :=
  let f := byteAt body 0
  let n := byteAt body 2
  .next (s.request h (observe 0x80 false)
    (body.length == 4 && (decide (f < 64) || f == 255) && decide (1 ≤ n ∧ n ≤ 62)) fun t _ =>
      (t, stOk, t.fabricMap f (byteAt body 1) n))

/-- PEER_ACCEPT's rule (R362). -/
def State.peerAccept (s : State) (uid : Nat) : Answer :=
  if uid = s.uid then (s, stArg, [])
  else if s.peerState uid = 1 ∨ s.nv.accept.contains uid = true then (s, stOk, [])
  else if 16 ≤ s.nv.accept.length then (s, stCapacity, [])
  else
    let was := s.nv.expel.contains uid
    let nv := { s.nv with accept := s.nv.accept ++ [uid], expel := s.nv.expel.filter fun u => u != uid }
    let s1 := ({ s with nv := nv }).peerList uid 0 0
    let s2 := if was then s1.peerList uid 1 1 else s1
    ((s2.routesDue).judgePeers, stOk, [])

/-- PEER_EXPEL's rule (R362). -/
def State.peerExpel (s : State) (uid : Nat) : Answer :=
  if uid = s.uid then (s, stArg, [])
  else if s.nv.expel.contains uid then (s, stOk, [])
  else if 16 ≤ s.nv.expel.length then (s, stCapacity, [])
  else
    let was := s.nv.accept.contains uid
    let nv := { s.nv with expel := s.nv.expel ++ [uid], accept := s.nv.accept.filter fun u => u != uid }
    let s1 := ({ s with nv := nv }).peerList uid 1 0
    let s2 := if was then s1.peerList uid 0 1 else s1
    ((((s2.keepClaim uid ((s.lsaOf uid).map Lsa.addr)).routesDue).judgePeers).expelCons s uid, stOk, [])

/-- PEER_ACCEPT. -/
def execPeerAccept (h : Hdr) (body : List Byte) (s : State) : Host.Outcome State Fault Refusal :=
  .next (s.request h (engineer 0x81) (body.length == 8) fun t _ => t.peerAccept (numAt body 0 8))

/-- PEER_EXPEL. -/
def execPeerExpel (h : Hdr) (body : List Byte) (s : State) : Host.Outcome State Fault Refusal :=
  .next (s.request h (engineer 0x82) (body.length == 8) fun t _ => t.peerExpel (numAt body 0 8))

end Sys2Proof.Machine
end

