-- ==== Sys2Proof/Machine/Links.lean ====
section
/-! DEFINITION. The commands of the isolation links and of what the logic side forms from them
(chapters 3 and 9). -/

namespace Sys2Proof.Machine

/-- A launch tick: TB is a multiple of 2,000 (R233). -/
def State.launchTick (s : State) : Bool := s.ticking && s.tb % 2000 == 0

/-- Sequencer `q` launches its frame; one that found a fault in itself stops after it (R226). -/
def State.launchUp (s : State) (q : Side) : State :=
  let s00 := if (s.link q).due.isSome then s.missLink q else s
  let s0 := if s00.lives q then s00.standingInputs q else s00
  let v := s0.link q
  let s1 := s0.setLink q { v with due := some s0.tb,
                                  up := if s0.lives q then some (s0.mkUp q) else none }
  let s2 := match q with
    | .a => { s1 with fld := { s1.fld with trigA := 0 } }
    | .b => { s1 with fld := { s1.fld with trigB := 0 } }
  if (s2.seq q).selfFault && s2.lives q then s2.stopSeq q else s2

/-- UPLINK_LAUNCH (R234): both sequencers, on one tick. -/
def execUplinkLaunch (s : State) : Host.Outcome State Fault Refusal :=
  .next <|
    if !s.launchTick || s.lgc.upAt == some s.tb then s
    else
      let s1 := (s.launchUp .a).launchUp .b
      { s1 with lgc := { s1.lgc with upAt := some s1.tb } }

/-- UPLINK_FRAME (R237): the frame in flight on link `l` is complete, within 5 µs of its launch;
`bad`: its check fails. -/
def execUplinkFrame (l : Side) (bad : Bool) (s : State) : Host.Outcome State Fault Refusal :=
  .next <|
    match (s.link l).up with
    | none => s
    | some f =>
      if !s.mx l || decide (f.tick + 1000 < s.tb) then s
      else
        let r := s.upCheck l f bad
        let s1 := r.1
        (if r.2 then s1.goodUp l f
         else (s1.setLink l { s1.link l with up := none }).countLink l true).chargeLink l

/-- FRAME_MISSING (R237, R426): 5 µs after its launch tick the due frame is not complete and valid. -/
def execFrameMissing (l : Side) (s : State) : Host.Outcome State Fault Refusal :=
  .next <|
    match (s.link l).due with
    | none => s
    | some t => if s.alive && decide (t + 1000 ≤ s.tb) then s.missLink l else s

/-- One matrix copy launches its frame on its link (R233). -/
def State.launchDown (s : State) (l : Side) : State :=
  if !s.mx l || (s.link l).retired then s
  else
    let d := s.mkDown l
    let n := 12 + 2 * sideNat l
    let s1 := s.runUnit n fun c => c.aliveCheck true d.dseq d.bytes
    (s1.setLink l { s1.link l with down := some { d with spoiled := (s1.unit n).fault } }).chargeLink l

/-- DOWNLINK_FRAME (R233): both copies, on one tick. -/
def execDownlinkFrame (s : State) : Host.Outcome State Fault Refusal :=
  .next <|
    if !s.launchTick || s.lgc.downAt == some s.tb || s.pwr.off || decide (s.pwr.step < 6) then s
    else
      let s0 := s.seeDiffer
      let s1 := (s0.launchDown .a).launchDown .b
      let urg := (List.range 4).foldl (fun acc c => dropFirst c acc) s1.lgc.urg
      let q : Side := if s1.mx .a then .a else .b
      let sent := s1.mx .a || s1.mx .b
      { s1 with lgc := { s1.lgc with downAt := some s1.tb, cclr := if sent then 0 else s1.lgc.cclr,
                                     fclr := if sent then [] else s1.lgc.fclr,
                                     urg := if sent then urg else s1.lgc.urg,
                                     oimg := if sent then s1.image64 q else s1.lgc.oimg } }

/-- DOWNLINK_ACCEPT (R224, R237): the frame in flight on the link of sequencer `q` is complete;
`bad`: its check fails. -/
def execDownlinkAccept (q : Side) (bad : Bool) (s : State) : Host.Outcome State Fault Refusal :=
  .next <|
    match (s.link q).down with
    | none => s
    | some d =>
      let s0 := s.setLink q { s.link q with down := none }
      if bad || d.spoiled || !s.lives q || decide (d.tb + 1000 < s.tb) then s0 else s0.goodDown q d

/-- CONFIGURATION_PACKET (R233): the staged image's field configuration is loaded into the bank of
sequencer `q` that is not in force. -/
def execConfigurationPacket (q : Side) (s : State) : Host.Outcome State Fault Refusal :=
  .next <|
    match s.cfg.staged with
    | none => s
    | some m =>
      if !s.lives q || !s.mx q then s
      else
        let s1 := { s with fld := { s.fld with other := m.fieldCfg } }
        s1.setSeq q { s1.seq q with loaded := true }

/-- DISAGREE (R68): the readings of an input have differed for 20 ms. -/
def execDisagree (n : Fin 192) (s : State) : Host.Outcome State Fault Refusal :=
  .next <|
    let f := s.form n.val
    match f.diffAt with
    | some t =>
      if s.inputsOf.contains n.val && !f.disagree && decide (t + 4000000 ≤ s.tb) then
        let ins := Tab.set .start s.lgc.ins n.val { f with disagree := true }
        ({ s with lgc := { s.lgc with ins := ins } }).keepFormed.formInput n.val
      else s
    | none => s

/-- AGREEMENT (R68): the readings have agreed for 100 ms. -/
def execAgreement (n : Fin 192) (s : State) : Host.Outcome State Fault Refusal :=
  .next <|
    let f := s.form n.val
    match f.agreeAt with
    | some t =>
      if s.inputsOf.contains n.val && f.disagree && decide (t + 20000000 ≤ s.tb) then
        let ins := Tab.set .start s.lgc.ins n.val { f with disagree := false }
        ({ s with lgc := { s.lgc with ins := ins } }).keepFormed.formInput n.val
      else s
    | none => s

/-- RE_TEST_END (R230 step 4): both complete frames of the re-test have passed, or a reversed supply
ended it. -/
def execReTestEnd (k : Fin 64) (s : State) : Host.Outcome State Fault Refusal :=
  .next <|
    let o := s.fout k.val
    match o.retest with
    | none => s
    | some r =>
      if !(s.lives .a || s.lives .b) || (!r.aborted && decide (s.fld.frame < r.frame + 3)) then s
      else
        let ok := !r.aborted && r.bad == 0
        let cause := if ok then 0 else if r.bad = 0 then o.cause else r.bad
        let s1 := s.setFout k.val { o with retest := none, cause := cause,
                                           faultAt := if ok then o.faultAt else s.tb }
        let s2 := (s1.refreshOut k.val).refreshInputs (s1.expects k.val)
        let st := if ok then stOk else stFault
        (s2.endOutReset k.val st).record 0x0402 1 [BitVec.ofNat 8 k.val, BitVec.ofNat 8 st,
          BitVec.ofNat 8 cause]

/-- Counter `m` belongs to the porch in the running image (R79). -/
def State.porchCounter (s : State) (m : Nat) : Bool :=
  match s.img false with
  | none => false
  | some i => bf (s.ownedWord m (nth i.ccfg m 0)) 15 12 == 8

/-- COUNTER_CLEAR (R79): a write to FLD_CCLR; the next downlink frame carries the clears. -/
def State.counterClear (s : State) (p : Nat) (v : Word) : State :=
  let add := (List.range 32).foldl (fun acc j =>
    if v.getLsbD j && s.porchCounter (32 * p + j)
    then acc ||| BitVec.ofNat 128 (1 <<< (32 * p + j)) else acc) 0#128
  { s with lgc := { s.lgc with cclr := s.lgc.cclr ||| add } }

def execCounterClear (p : Fin 4) (v : Word) (s : State) : Host.Outcome State Fault Refusal :=
  .next (if s.alive then s.counterClear p.val v else s)

end Sys2Proof.Machine
end

