-- ==== Sys2Proof/Machine/Power.lean ====
section
/-! DEFINITION. The commands of chapter 12: supplies, power-fail, switching of domains, references. -/

namespace Sys2Proof.Machine

/-! ### Supplies (R260, R263 to R265) -/

/-- Measurements in a row that make up 1 ms, 100 µs and 100 ms (R260). -/
def runLen (us : Nat) : Nat := us / 100 + 1

/-- One measurement of an input (Table 12.2). -/
def Supply.measure (v : Supply) (mV : Int) : Supply :=
  let run (b : Bool) (n : Nat) : Nat := if b then n + 1 else 0
  let w := { v with volt := mV / 10
                    runUnder := run (decide (mV < 18000)) v.runUnder
                    runOver := run (decide (31000 < mV)) v.runOver
                    runGood := run (decide (18600 ≤ mV ∧ mV ≤ 30000)) v.runGood }
  let st :=
    if mV < -1000 then SupplySt.reversed
    else if runLen 100 ≤ w.runOver then .excess
    else if runLen 1000 ≤ w.runUnder ∧ v.st ≠ .reversed then .under
    else if runLen 100000 ≤ w.runGood then .ok
    else v.st
  { w with st := st }

def SupplySt.code : SupplySt → Nat
  | .ok => 0
  | .under => 1
  | .excess => 2
  | .reversed => 3

def State.supply (s : State) : Side → Supply
  | .a => s.pwr.supA
  | .b => s.pwr.supB

def State.setSupply (s : State) (q : Side) (v : Supply) : State :=
  match q with
  | .a => { s with pwr := { s.pwr with supA := v } }
  | .b => { s with pwr := { s.pwr with supB := v } }

/-- Voltage as records carry it. -/
def volt16 (v : Int) : List Byte := be16 (twos 16 (max (-32768) (min 32767 v)))

/-- An input takes what a measurement makes of it; record SUPPLY where its state changes. -/
def State.newSupply (s : State) (q : Side) (v : Supply) : State :=
  let old := s.supply q
  let s1 := s.setSupply q v
  if old.st = v.st then s1
  else s1.record 0x0101 2 ([BitVec.ofNat 8 (sideNat q), BitVec.ofNat 8 old.st.code,
    BitVec.ofNat 8 v.st.code] ++ volt16 v.volt)

/-- The power-fail sequence begins; with a failed recorder there is no flush to wait for (R262, R263,
R312, R323). -/
def State.beginFail (s : State) : State :=
  if s.pwr.pfail then s
  else
    let s1 := { s with pwr := { s.pwr with pfail := true, pflushed := false, failAt := s.now } }
    let s2 := (s1.record 0x0102 3 (volt16 s1.pwr.supA.volt ++ volt16 s1.pwr.supB.volt)).flushIf true
    let s3 := ((s2.endStage .power).abandonLoad fun _ => true).abandonFw
    if s3.rcd.flushing then s3 else s3.persistSeconds

/-- An input has returned before the switch-off (R265). -/
def State.endFail (s : State) : State :=
  let rides := satAdd 0xFFFF s.pwr.rides 1
  let s1 := { s with pwr := { s.pwr with pfail := false, pflushed := false, rides := rides } }
  (s1.record 0x0103 1 (be16 rides)).fuseKick

/-- What the states of the inputs call for. -/
def State.judgeSupplies (s : State) : State :=
  let any := s.supplyOk .a || s.supplyOk .b
  if any then
    (if s.pwr.off then s.coldStart else if s.pwr.pfail then s.endFail else s)
  else if s.pwr.off then s else s.beginFail

/-- An input that is not measured yet (R260). -/
def Supply.unseen : Supply := { st := .under, volt := 0, runUnder := 0, runOver := 0, runGood := 0 }

/-- CELLAR comes up again under power: both inputs begin in UNDER. -/
def State.cellarUp (s : State) : State :=
  let t := s.coldNv
  { s with pwr := { Pwr.reset with supA := .unseen, supB := .unseen, off := true, fieldFell := true,
                                   holdup := s.pwr.holdup, weak := s.pwr.weak,
                                   doms := Tab.ofFn .ready 8 fun d => if d = 0 then .ready else
                                     { Domain.ready with st := .notStarted, faults := (s.dom d).faults },
                                   step := 0, result := 0, opsec := s.nv.opsec, cycles := s.nv.cycles }
           nv := { s.nv with blows := t.blows }
           rcd := s.coldRecorder, tb := 0 }

/-- SUPPLY_MEASUREMENT: one 100 µs measurement of a logic supply input. -/
def execSupplyMeasurement (q : Side) (mV : Int) (s : State) : Host.Outcome State Fault Refusal :=
  .next <|
    if s.alive then (s.newSupply q ((s.supply q).measure mV)).judgeSupplies
    else if mV < 16800 then s
    else
      let t := s.cellarUp
      t.setSupply q (Supply.unseen.measure mV)

/-! ### Switch-off (R264) -/

/-- The logic side is dark: nothing evaluates, nothing carries state. -/
def State.darkLogic (s : State) : State :=
  let dead (l : Link) : Link := { l with st := if l.st = .valid then .silent else l.st, last := none,
                                         up := none, due := none, down := none, missRun := 0 }
  { s with sea := { s.sea with rooms := s.coldRooms, imap := [] }
           eng := { s.eng with engines := s.coldEngines, insts := [], masks := [], cmpA := .off, cmpB := .off,
                               ckmA := false, ckmB := false, attached := none }
           lgc := { s.lgc with linkA := dead s.lgc.linkA, linkB := dead s.lgc.linkB, tripA := [], tripB := [] }
           lnk := { s.lnk with ports := [], db := [], roof := [], prod := [], cons := [] } }

def State.domsOff (s : State) (ds : List Nat) : State :=
  ds.foldl (fun acc d => acc.setDom d { acc.dom d with st := .notStarted, retryAt := none }) s

/-- The domains of R264 are switched off together. -/
def State.switchOff (s : State) : State :=
  let lost (t : State) (q : Side) : State :=
    let v := t.supply q
    if v.st = .ok then t.newSupply q { v with st := .under } else t
  let s1 := if s.pwr.pfail then s else (lost (lost s .a) .b).beginFail
  let s2 := (s1.losePorch.darkLogic).domsOff [1, 2, 3, 4, 5, 6]
  let s3 := [1, 2, 3, 4, 5, 6].foldl State.freshUnits s2
  { s3 with pwr := { s3.pwr with off := true, offAt := s3.now } }

/-- SWITCH_OFF: the supervisor's own comparator has seen the combined input below 16.8 V for 100 µs,
whatever the 100 µs measurements have shown (R264). -/
def execSwitchOff (s : State) : Host.Outcome State Fault Refusal :=
  .next (if s.alive && !s.pwr.off then s.switchOff else s)

/-- FIELD has fallen. -/
def State.fieldDown (s : State) : State :=
  let s1 := s.loseField.domsOff [7]
  { s1 with pwr := { s1.pwr with fieldFell := true } }

/-- FIELD_FALL: from 5 ms after the switch-off (R264). -/
def execFieldFall (s : State) : Host.Outcome State Fault Refusal :=
  .next <|
    if s.pwr.off && !s.pwr.fieldFell && s.alive && decide (s.pwr.offAt + 1000000 ≤ s.now) then s.fieldDown
    else s

/-- CELLAR is off: its records that are not stored are lost. -/
def State.cellarDown (s : State) : State :=
  let s1 := if s.pwr.fieldFell then s else s.fieldDown
  let s2 := (s1.domsOff [0]).freshUnits 0
  { s2 with pwr := { s2.pwr with cellarFell := true, off := true }
            rcd := { s2.rcd with buf := [], flushing := false } }

/-- R276: the CELLAR rail fails. The device goes dark as at a switch-off, without a power-fail sequence; the
seconds and the records that are not stored are lost, and FIELD runs on from its own hold-up. -/
def State.cellarFault (s : State) : State :=
  let s1 := (s.losePorch.darkLogic).domsOff [1, 2, 3, 4, 5, 6]
  let s2 := [0, 1, 2, 3, 4, 5, 6].foldl State.freshUnits s1
  { s2 with pwr := { s2.pwr with off := true, offAt := if s.pwr.off then s2.pwr.offAt else s2.now,
                                 pfail := false, pflushed := false, charged := false, supA := .unseen,
                                 supB := .unseen, opsec := s2.nv.opsec }
            rcd := s2.nv.recorder }

/-- Ticks for which the store keeps CELLAR alive at least: 40 ms, what was measured of a store judged
WEAK, and nothing before the store is charged (R261). -/
def State.holdupTicks (s : State) : Nat :=
  if !s.pwr.charged then 0 else if s.pwr.weak then 20000 * s.pwr.holdup else 8000000

/-- CELLAR_FALL: the hold-up ends, counted from the switch-off, or from the start of a power-fail sequence
that never reached it (R261, R264). -/
def execCellarFall (s : State) : Host.Outcome State Fault Refusal :=
  .next <|
    let t := if s.pwr.off then s.pwr.offAt else s.pwr.failAt
    if (s.pwr.off || s.pwr.pfail) && s.alive && !s.supplyOk .a && !s.supplyOk .b &&
        decide (t + s.holdupTicks ≤ s.now)
    then s.cellarDown else s

/-! ### Hold-up store and operating time (R261, R262) -/

/-- HOLDUP_MEASUREMENT: the hold-up time in 0.1 ms, every 24 operating hours. -/
def execHoldupMeasurement (ms : Nat) (s : State) : Host.Outcome State Fault Refusal :=
  .next <|
    if !s.alive || s.pwr.off || s.pwr.opsec < s.pwr.holdupAt + 86400 then s
    else
      let weak := decide (ms < 400)
      let s1 := { s with pwr := { s.pwr with holdup := ms, weak := weak, holdupAt := s.pwr.opsec } }
      if weak && !s.pwr.weak then s1.record 0x0107 2 (wordBytes s1.holdupWord) else s1

/-- CHARGED: the store holds the charge needed for 40 ms. -/
def execCharged (s : State) : Host.Outcome State Fault Refusal :=
  .next (if s.alive && !s.pwr.off then { s with pwr := { s.pwr with charged := true } } else s)

/-- OPERATING_SECOND: one second with a logic supply OK has passed; every 60 s the count is persisted. -/
def execOperatingSecond (s : State) : Host.Outcome State Fault Refusal :=
  .next <|
    if !s.alive || s.now < s.pwr.opTick + 200000000 then s
    else if !s.supplyOk .a && !s.supplyOk .b then { s with pwr := { s.pwr with opTick := s.now } }
    else
      let n := (s.pwr.opsec + 1) % 2 ^ 32
      let s1 := { s with pwr := { s.pwr with opsec := n, opTick := s.pwr.opTick + 200000000 } }
      if n % 60 = 0 then { s1 with nv := { s1.nv with opsec := n } } else s1

/-! ### Domains by command (R272 to R275) -/

/-- Code of PWR_DOMWHY that Table 12.6 gives for a power-down, 0 where its condition holds. -/
def State.downWhy (s : State) (d : Nat) : Nat :=
  let safety (m : Option Image) : Bool :=
    match m.bind Image.fabric with
    | some f => (f.produced.any fun x => !x.control) || f.consumed.any fun x => !x.control
    | none => false
  if d = 2 ∨ d = 3 then
    b2n ((List.range 32).any fun j => (s.part ((d - 2) * 32 + j)).isSome)
  else if d = 6 then (if safety s.cfg.image || safety s.cfg.staged then 5 else 0)
  else
    let q : Side := if d = 4 then .a else .b
    let r := otherSide q
    if (s.items true).any fun x => x.eng.isSome then 2
    else if (sideEngines q).any fun e => (s.engine e).st == .debug then 3
    else if s.cfg.staged.isSome then 7
    else if (s.dom (engDom r)).st = .on ∧ s.cmpOk r = true ∧ s.linkIn r = true ∧ s.oscIn r = true then 0
    else 4

/-- Code of PWR_DOMWHY for a power-up, 0 where it is accepted. -/
def State.upWhy (s : State) (d : Nat) : Nat :=
  match (s.dom d).st with
  | .offCmd => 0
  | .offFault => if (s.dom d).held then 12 else 0
  | .offRetired => 6
  | _ => 11

/-- A write to PWR_DOMCTL (R273): the state and the status. -/
def State.domCtl (s : State) (d : Nat) (on : Bool) : State × Nat :=
  let deny (st why : Nat) : State × Nat := ({ s with pwr := { s.pwr with whyDom := d, why := why } }, st)
  if d < 2 ∨ 6 < d then deny stArg 9
  else if s.switchingBut d || s.migrating || s.pwr.pfail || s.cfg.handover.isSome then deny stBusy 10
  else
    let why := if on then s.upWhy d else s.downWhy d
    if why ≠ 0 then deny stState why
    else if on then
      (({ s with pwr := { s.pwr with doms := Tab.upd .ready s.pwr.doms d fun v => { v with retryAt := none } } }).domTo
        d .comingUp, stOk)
    else if (s.dom d).st = .on then (s.domTo d .goingDown, stOk)
    else if (s.dom d).st = .goingDown ∨ (s.dom d).st = .comingUp then deny stState 0
    else (s, stOk)

/-- DOMAIN_POWER_DOWN: PWR_DOMCTL written with ON 0. -/
def execDomainPowerDown (d : BitVec 3) (s : State) : Host.Outcome State Fault Refusal :=
  .next (if s.porchUp then (s.domCtl d.toNat false).1 else s)

/-- DOMAIN_POWER_UP: PWR_DOMCTL written with ON 1. -/
def execDomainPowerUp (d : BitVec 3) (s : State) : Host.Outcome State Fault Refusal :=
  .next (if s.porchUp then (s.domCtl d.toNat true).1 else s)

/-- DOMAIN_DOWN_END: the power-down of a domain completes (R274). -/
def execDomainDownEnd (d : Fin 8) (s : State) : Host.Outcome State Fault Refusal :=
  .next (if s.alive ∧ (s.dom d.val).st = .goingDown then s.loseDomain d.val .offCmd else s)

/-- DOMAIN_UP_END: the power-up of a domain completes, its parts tested (R275). -/
def execDomainUpEnd (d : Fin 8) (o : StartOutcome) (s : State) : Host.Outcome State Fault Refusal :=
  .next <|
    if s.alive ∧ (s.dom d.val).st = .comingUp then (s.domTo d.val .on).returnDomain d.val o else s

/-! ### Domain faults (R276) -/

/-- DOMAIN_FAULT: the rail of a domain leaves regulation or exceeds its limit. -/
def execDomainFault (d : Fin 8) (s : State) : Host.Outcome State Fault Refusal :=
  .next <|
    if !s.alive then s
    else
      let v := s.dom d.val
      match v.st with
      | .goingDown =>
        let s1 := s.domRecord d.val 4 1 0
        s1.loseDomain d.val .offCmd
      | .on | .comingUp =>
        if d.val = 0 then s.cellarFault
        else
          let fs := s.pwr.opsec :: within24h v.faults s.pwr.opsec
          let again := decide (2 ≤ fs.length)
          let s1 := s.setDom d.val { v with faults := fs, held := again,
                                            retryAt := if again then none else some (s.now + 200000000) }
          s1.loseDomain d.val .offFault
      | _ => s

/-- DOMAIN_RETRY: 1 s after its fault a domain is powered up again (R276). -/
def execDomainRetry (d : Fin 8) (s : State) : Host.Outcome State Fault Refusal :=
  .next <|
    let v := s.dom d.val
    match v.retryAt with
    | some t =>
      if s.alive && decide (t ≤ s.now) && decide (v.st = .offFault) && !v.held && !s.pwr.off then
        (s.setDom d.val { v with retryAt := none }).domTo d.val .comingUp
      else s
    | none => s

/-! ### References (R266, R267) -/

/-- LOSS_OF_SIGNAL: a reference shows no edge for 100 ns. -/
def execLossOfSignal (q : Side) (s : State) : Host.Outcome State Fault Refusal :=
  .next (if s.alive && s.oscIn q then s.loseOsc q .lost else s)

/-- RELOCK: the tick generator leaves holdover for the other reference. -/
def execRelock (s : State) : Host.Outcome State Fault Refusal :=
  .next <|
    match s.pwr.osc.holdover with
    | none => s
    | some (q, _) =>
      if !s.ticking then s
      else
        let s1 := s.setOsc q .selected
        ({ s1 with pwr := { s1.pwr with osc := { s1.pwr.osc with holdover := none } } }).oscRecord 3

/-- DISAGREEMENT: the difference of OSC-B from OSC-A over 1 ms in ppm, and the distance of each from
WOSC over the same 1 ms. -/
def execDisagreement (ppm : Int) (wA wB : Nat) (s : State) : Host.Outcome State Fault Refusal :=
  .next <|
    if !s.ticking || !s.oscIn .a || !s.oscIn .b || s.pwr.osc.holdover.isSome then s
    else
      let s1 := { s with pwr := { s.pwr with osc := { s.pwr.osc with diff := ppm / 10 } } }
      if ppm.natAbs ≤ 1000 then s1
      else
        let standby : Side := if s.pwr.osc.a = .selected then .b else .a
        let lost : Side :=
          if s.pwr.osc.woscLost || wA == wB then standby else if wA < wB then .b else .a
        s1.loseOsc lost .lost

/-- WOSC_CHECK: the difference of each reference from WOSC in ppm; `wosc` asks about WOSC itself. -/
def execWoscCheck (wosc : Bool) (ppmA ppmB : Int) (s : State) : Host.Outcome State Fault Refusal :=
  .next <|
    let o := s.pwr.osc
    let far (x : Int) : Bool := decide (5000 < x.natAbs)
    if !s.ticking || o.woscLost then s
    else if wosc then
      if s.oscIn .a && s.oscIn .b && far ppmA && far ppmB && decide ((ppmA - ppmB).natAbs ≤ 1000) then
        ({ s with pwr := { s.pwr with osc := { o with woscLost := true } } }).oscRecord 2
      else s
    else if s.oscIn .a == s.oscIn .b then s
    else
      let q : Side := if s.oscIn .a then .a else .b
      let bad := far (match q with | .a => ppmA | .b => ppmB)
      match bad, o.loneSince with
      | false, _ => { s with pwr := { s.pwr with osc := { o with loneSince := none } } }
      | true, none => { s with pwr := { s.pwr with osc := { o with loneSince := some s.tb } } }
      | true, some t => if t + 2000000 ≤ s.tb then (s.loseOsc q .lost).stopTime else s

end Sys2Proof.Machine
end

