-- ==== Sys2Proof/Machine/ReadRegs.lean ====
section
/-! DEFINITION. What a read of each register gives (R4, R5, R30, R31 and the register tables of every
chapter). -/

namespace Sys2Proof.Machine

/-- Half of a 64-bit register pair at offset `o`: the low word, or 4 above it the high word. -/
def halfOf (v : Long) (high : Bool) : Word := BitVec.ofNat 32 (if high then v.toNat / 2 ^ 32 else v.toNat)

/-- Index of the register at offset `o` of a row of `n` words from `base`. -/
def rowAt (base n o : Nat) : Option Nat :=
  if base ≤ o ∧ o < base + 4 * n ∧ (o - base) % 4 = 0 then some ((o - base) / 4) else none

/-- The first row that holds offset `o` gives the word; none holds 0 (R4). -/
def fromRows (o : Nat) : List (Nat × Nat × (Nat → Word)) → Word
  | [] => 0
  | (base, n, f) :: l => match rowAt base n o with
    | some i => f i
    | none => fromRows o l

/-- A row that lies at one offset. -/
def one (o : Nat) (w : Word) : Nat × Nat × (Nat → Word) := (o, 1, fun _ => w)

/-- A pair of words that shows 64 bits, low word first. -/
def pair (o : Nat) (v : Long) : Nat × Nat × (Nat → Word) := (o, 2, fun i => halfOf v (i == 1))

/-! ### DEV_, PWR_, FUS_ (R32, R278, R390) -/

/-- DEV_STEP. -/
def State.devStep (s : State) : Word := mkWord [(bf (Tab.get 0#32 s.fus.shadow 3) 15 0, 0)]

def State.readDev (s : State) (o : Nat) : Word :=
  fromRows o [one 0x00 0x9664, one 0x04 s.devStep, one 0x08 (BitVec.ofNat 32 (s.uid / 2 ^ 32)),
    one 0x0C (BitVec.ofNat 32 s.uid), one 0x14 s.devStatus]

def Supply.word (v : Supply) : Word := mkWord [(v.st.code, 16), (twos 16 v.volt, 0)]

def Pwr.pfailWord (p : Pwr) : Word :=
  mkWord [(min 0xFFFF p.rides, 16), (b2n p.pflushed, 1), (b2n p.pfail, 0)]

def State.readPwr (s : State) (o : Nat) : Word :=
  fromRows o [one 0x00 s.pwr.supA.word, one 0x04 s.pwr.supB.word, one 0x08 s.pwr.pfailWord,
    one 0x0C s.holdupWord, one 0x10 s.domStat, one 0x18 (mkWord [(s.pwr.whyDom, 4), (s.pwr.why, 0)]),
    one 0x1C s.oscWord, one 0x20 s.startWord, one 0x24 (BitVec.ofNat 32 (s.pwr.cycles % 2 ^ 24)),
    one 0x28 (BitVec.ofNat 32 s.pwr.opsec)]

/-- FUS_REDIR. -/
def State.redirWord (s : State) (i : Nat) : Word :=
  mkWord [(b2n (s.nv.entryUse i).isSome, 31), (b2n (s.nv.entryVoid i), 30), ((s.nv.entryUse i).getD 0, 0)]

def State.readFus (s : State) (o : Nat) : Word :=
  fromRows o [(0x000, 128, fun w => Tab.get 0#32 s.fus.shadow w),
    (0x200, 4, fun m => maskWord fun j => Tab.get 0#32 s.fus.marg (32 * m + j) != 0),
    one 0x210 s.fusStat, one 0x214 (mkWord [(s.rollback, 16), (s.revoke, 0)]),
    one 0x218 (mkWord [(s.genCount, 16), (s.openings, 0)]), (0x220, 8, s.redirWord),
    one 0x240 (mkWord [(min 0xFFFF s.fus.rail, 16), (twos 16 s.fus.temp, 0)])]

/-! ### TMR_ (R294) -/

def TmrSt.code : TmrSt → Nat
  | .idle => 0
  | .armed => 1
  | .running => 2
  | .done => 3

/-- TMR_STAT. -/
def State.timerStat (s : State) (n : Nat) : Word :=
  let t := s.timer n
  mkWord [(t.st.code, 30), (b2n (s.frozen n), 29), (t.queue.length, 26), (b2n t.terr, 6), (b2n t.gomiss, 5),
    (b2n t.capovf, 4), (b2n t.cf1, 3), (b2n t.cf0, 2)]

/-- TMR_CFG: OWNER bits that the kind does not use read 0. -/
def Timer.shownCfg (t : Timer) : Word :=
  t.cfg &&& match t.kind with
    | 1 => 0xFFFFFFFF#32
    | 2 => 0xF01FFFFF#32
    | 4 => 0xF0FFFFFF#32
    | _ => 0xF003FFFF#32

/-- TMR_SRC: CAPARG bits that the code does not use read 0, and the start latch of a timer that the sea does
not own. -/
def Timer.shownSrc (t : Timer) : Word :=
  t.src &&& (if t.kind = 4 then 0xFFFFFFFF#32 else 0xFFFFF000#32) &&& match t.capKind with
    | 1 => 0xFB0FFFFF#32
    | 2 => 0xFBFFFFFF#32
    | 3 => 0xFB01FFFF#32
    | 4 => 0xFB03FFFF#32
    | _ => 0xFB000FFF#32

/-- A register of one timer. -/
def State.readTimer (s : State) (n o : Nat) : Word :=
  let t := s.timer n
  match o with
  | 0x00 => t.shownCfg
  | 0x04 => t.shownSrc
  | 0x0C => s.timerStat n
  | 0x10 => t.count
  | 0x14 => t.period
  | 0x18 => t.cmp0
  | 0x1C => t.cmp1
  | 0x20 => t.queue.head?.getD 0
  | _ => 0

def State.readTmr (s : State) (w : Agent) (o : Nat) : Word :=
  let s := s.takeDues
  let r := ((s.reader w).map s.readerSt).getD .fresh
  let done := mask64 fun n => (s.timer n).st == .done
  if 0x1000 ≤ o ∧ o < 0x2000 then s.readTimer ((o - 0x1000) / 0x40) (o % 0x40)
  else
    fromRows o [one 0x00 (BitVec.ofNat 32 s.tb), one 0x04 r.tbHi, pair 0x20 r.snapTb, pair 0x28 done,
      (0x2000, 64, fun n => Tab.get 0#32 r.scnt n)]

/-! ### FLD_ (R55, R80, R238) -/

/-- The configuration that the FLD_ block shows: the running image's, or the manual's defaults. -/
def State.shownCfg (s : State) : FieldCfg :=
  match s.img false with
  | some m => m.fieldCfg
  | none => .none

/-- Input `n` is in use in the running image. -/
def State.inputShown (s : State) (n : Nat) : Bool :=
  match s.img false with
  | some m => decide (n < m.icfg.length) && (decide (n < 128) || m.pole.getLsbD (n - 128))
  | none => false

def GroupRep.supWord (g : GroupRep) : Word :=
  mkWord [(b2n g.short, 19), (g.st, 16), (twos 16 g.volt, 0)]

/-- FLD_IDIAG. -/
def State.idiag (s : State) (n : Nat) : Word :=
  let f := s.form n
  mkWord [(f.entries, 16), (f.fslot, 8), (if s.inputShown n then f.cause else 0, 0)]

/-- FLD_OSRCA and FLD_OSRCB: fields of a source that is not in use read 0. -/
def shownOsrc (ow oa ob : Word) (b : Bool) : Word :=
  if b then (if bitOf ow 25 then ob else 0)
  else (if bitOf ow 24 then oa &&& 0xFFF00000 else 0) ||| (if bitOf ow 26 then oa &&& 0x000FFFFF else 0)

/-- FLD_ODIAG. -/
def OutForm.word (o : OutForm) : Word :=
  mkWord [(o.cause, 28), (o.line, 26), (o.fslot, 16), (o.entries, 0)]

def Link.errWord (l : Link) : Word := mkWord [(l.missing, 16), (l.crcerr, 0)]

/-- Phases of sixteen outputs in one word. -/
def State.phaseWord (s : State) (p : Nat) : Word :=
  mkWord ((List.range 16).map fun j => ((s.oform (16 * p + j)).phase, 2 * j))

/-- Configuration words of inputs and outputs. -/
def State.readFldCfg (s : State) (o : Nat) : Word :=
  let c := s.shownCfg
  let src (k : Nat) (b : Bool) : Word := match s.img false with
    | some m => shownOsrc (m.ow k) (m.oa k) (m.ob k) b
    | none => 0
  fromRows o [one 0x120 c.gthr, one 0x400 c.frameCfg, pair 0x408 c.src, pair 0x410 c.pole,
    pair 0x418 c.sonly, (0x800, 192, fun n => nth c.icfg n 0), (0x1000, 128, fun m => s.ownedWord m (nth c.ccfg m 0)),
    one 0x2024 c.silence, (0x2100, 64, fun k => nth c.ocfg k 0), (0x2200, 64, fun k => src k false),
    (0x2300, 64, fun k => src k true)]

/-- What the field side reports and the logic side has formed of it. -/
def State.readFldNow (s : State) (o : Nat) : Word :=
  let rd (l : Side) (p : Nat) : Word :=
    maskWord fun j => ((s.lastUp l).map fun f => f.rd.getLsbD (32 * p + j)).getD false
  fromRows o [
    (0x000, 6, fun p => maskWord fun j => s.inputShown (32 * p + j) && (s.form (32 * p + j)).v),
    (0x020, 6, fun p => maskWord fun j => s.inputShown (32 * p + j) && (s.form (32 * p + j)).invalid),
    (0x040, 6, rd .a), (0x060, 6, rd .b), (0x100, 8, fun g => (s.gform g).supWord),
    one 0x404 (BitVec.ofNat 32 s.fld.frame), (0x420, 4, s.phaseWord), (0xC00, 192, s.idiag),
    (0x1200, 128, fun m => (s.cform m).va), (0x1400, 128, fun m => (s.cform m).vb),
    (0x1600, 128, fun m => BitVec.ofNat 32 (s.cntStat (s.cform m))), pair 0x2000 s.lgc.oimg,
    pair 0x2008 (mask64 fun k => (s.oform k).phase == 1),
    pair 0x2010 (mask64 fun k => (s.oform k).cause != 0), one 0x2020 s.ostat,
    one 0x2028 s.lgc.linkA.errWord, one 0x202C s.lgc.linkB.errWord,
    (0x2400, 64, fun k => (s.oform k).word),
    (0x2500, 8, fun g => mkWord [(b2n (s.gform g).excess, 16), (min 0xFFFF (s.gform g).sum, 0)])]

def State.readFld (s : State) (o : Nat) : Word := s.readFldCfg o ||| s.readFldNow o

/-! ### CNV_ and the result buffers (R31, R188) -/

/-- The matrix copy that registers of both copies show. -/
def State.shownCopy (s : State) : Side := if s.mx .a then .a else .b

/-- The copy of the result memory that reads are served from (R31). -/
def State.shownMem (s : State) : Side := if s.memIn .a then .a else .b

def CnvSt.code : CnvSt → Nat
  | .stopped => 0
  | .running => 1
  | .waiting => 2
  | .failed => 3

/-- CNV_STAT. -/
def State.cnvStat (s : State) (c : Nat) : Word :=
  let v := s.conv c
  let sl := ((List.range 4).map fun k => if v.retired.contains k then 0 else 2 ^ k).sum
  mkWord [(v.held % 0x10000, 16), (b2n v.tmiss, 9), (b2n v.reffail, 8), (sl, 4), ((s.convState c).code, 0)]

/-- CNV_CHST. -/
def State.chst (s : State) (n : Nat) : Word :=
  let c := s.chan n
  mkWord [(b2n c.wcf, 31), (b2n c.outL, 30), (b2n c.owL, 29), (b2n c.stale, 28),
    (b2n (!(s.calRec n).good), 27), (b2n ((s.cnv.cal.map fun k => k.chan == n).getD false), 26),
    (twos 16 c.last, 0)]

/-- CNV_SOFS, CNV_SGAIN, CNV_SSKEW of a slice. -/
def State.coefWord (s : State) (c k o : Nat) : Word :=
  let v := s.conv c
  if v.retired.contains k then 0
  else
    let x := Tab.get .unity v.coefs k
    match o with
    | 0x0 => mkWord [(twos 16 x.sofs, 0)]
    | 0x4 => mkWord [(x.sgain % 2 ^ 24, 0)]
    | 0x8 => mkWord [(twos 16 x.sskew, 0)]
    | _ => 0

/-- The converter of the running image. -/
def State.convShown (s : State) (c : Nat) : Option ConvImg :=
  (s.img false).bind fun m => m.convs.find? fun x => x.conv == c

def State.chShown (s : State) (n : Nat) : ChImg :=
  ((s.convShown (n / 8)).map fun i => nth i.chans (n % 8) { cfg := 0, band := 0, par := 0 }).getD
    { cfg := 0, band := 0, par := 0 }

def State.readCnv (s : State) (o : Nat) : Word :=
  let b (c : Nat) : RBuf := s.rbuf s.shownMem c
  let snap (c : Nat) : Nat × Nat × Nat := Tab.get (0, 0, 0) s.cnv.snaps c
  let urg (c : Nat) : Word := let v := s.conv c
    mkWord [(v.unconf % 256, 24), (v.recheck % 256, 16), (v.engine % 0x10000, 0)]
  let cfg (c : Nat) : Word := ((s.convShown c).map ConvImg.cfg).getD 0
  let list (i : Nat) : Word := ((s.convShown (i / 32)).map fun x => nth x.list (i % 32) 0).getD 0
  fromRows o [(0x00, 4, cfg), (0x10, 4, s.cnvStat), (0x20, 4, fun c => BitVec.ofNat 32 (b c).ptr),
    (0x30, 4, fun c => BitVec.ofNat 32 (b c).seq), (0x50, 4, fun c => BitVec.ofNat 32 (snap c).1),
    (0x60, 4, fun c => BitVec.ofNat 32 (snap c).2.1), (0x70, 4, fun c => BitVec.ofNat 32 (snap c).2.2),
    (0x80, 4, fun c => BitVec.ofNat 32 ((snap c).2.2 / 2 ^ 32)), (0x90, 4, urg), (0x400, 128, list),
    (0x800, 32, fun n => (s.chShown n).cfg), (0x900, 32, fun n => (s.chShown n).band),
    (0xA00, 32, fun n => (s.chShown n).par), (0xB00, 32, s.chst),
    (0xC00, 32, fun n => BitVec.ofNat 32 ((s.chan n).lastAt.getD 0)),
    (0xD00, 32, fun n => (s.calRec n).word),
    (0xE00, 64, fun i => s.coefWord (i / 16) (i / 4 % 4) (i % 4 * 4))]

/-- The result buffers at offset `o` from 0x0010_0000. -/
def State.readBuf (s : State) (o : Nat) : Word :=
  Tab.get 0#32 (s.rbuf s.shownMem (o / 0x10000)).entries (o % 0x10000 / 4)

/-! ### ENG_, SEA_, SVC_ (R139, R103, R251) -/

/-- ENG_STATE. -/
def State.engWord (s : State) (e : Nat) : Word :=
  let v := s.engine e
  let on := s.eng.insts.filter fun x => (x.2.bind Inst.engine) == some e
  let load := (on.map fun x =>
    ((s.instImg (decide (1024 ≤ x.1)) (x.1 % 1024)).map InstImg.load).getD 0).sum
  mkWord [(v.st.code, 24), (on.length, 16), (min 100 ((load * 100 + 1439999) / 1440000), 8),
    (min 2 (within24h v.trans s.pwr.opsec).length, 6), (b2n v.tainted, 5)]

def Engine.faultWord (v : Engine) : Word :=
  mkWord [(min 0xFFFF v.failed, 16), (min 0xFF v.code, 8), (min 15 v.dreg, 4), (min 15 v.overrun, 0)]

def State.skewIvl (s : State) : Nat := ((s.img false).map fun m => bf m.engCmp 24 16).getD 64

/-- Trip latches that hold an output OFF, as the host sees them (R126, R238). -/
def State.shownTrips (s : State) : List TripLatch := s.trips s.shownCopy

def State.readEng (s : State) (o : Nat) : Word :=
  let v := s.eng
  let dis (l : List Nat) : Nat := min 2 (within24h l s.pwr.opsec).length
  let att := s.eng.attached.filter fun e => (s.engine e).st == .debug
  fromRows o [(0x00, 8, s.engWord), (0x20, 8, fun e => (s.engine e).faultWord),
    (0x40, 8, fun e => BitVec.ofNat 32 (s.engine e).hits),
    (0x60, 8, fun e => BitVec.ofNat 32 (s.engine e).misses), one 0x100 s.engSpeed,
    one 0x104 (mkWord [(s.skewIvl, 16), (v.cmpB.code, 2), (v.cmpA.code, 0)]),
    one 0x108 (mkWord [(v.skews % 0x10000, 16), (dis v.disB, 8), (dis v.disA, 0)]),
    one 0x10C (mkWord [(b2n att.isSome, 4), (att.getD 0, 0)]),
    (0x200, 32, fun t => (((s.img false).bind fun m => m.trigs[t]?).map TrigImg.word).getD 0),
    pair 0x300 (mask64 fun k => s.shownTrips.any fun x => x.out == k),
    one 0x308 (maskWord fun t => s.shownTrips.any fun x => x.trig == t),
    (0x1000, 1024, s.engInst false)]

/-- Physical room on the other side of a mirror pair (SEA_ROOM.PARTNER); none for a mirror that is still being
built (DESIGN CHOICE, log 95). -/
def State.partner (s : State) (r : Nat) : Option Nat :=
  let v := s.room r
  match v.st with
  | .active => (s.irm v.iroom).mirror
  | .mirror => if (s.irm v.iroom).mirror = some r then (s.irm v.iroom).room else none
  | _ => none

/-- SEA_ROOM. -/
def State.roomWord (s : State) (r : Nat) : Word :=
  let v := s.room r
  let carries := [RoomSt.active, .mirror, .held, .rewriting, .staged].contains v.st
  let m := if carries then s.keyImg v.iroom else none
  let p := s.partner r
  mkWord [(v.st.code, 24), (if carries then v.iroom % 64 else 0, 16), (b2n p.isSome, 15), (p.getD 0, 8),
    (min 2 (within24h v.trans s.pwr.opsec).length, 6), (v.spares, 3),
    (b2n ((m.map RoomImg.mirrored).getD false), 2)]

/-- SEA_IMAP. -/
def State.imapWord (s : State) (i : Nat) : Word :=
  match s.roomImg false i with
  | none => 0
  | some m =>
    let v := s.irm i
    mkWord [(1, 31), (b2n m.mirrored, 30), (b2n v.mirror.isSome, 29), (b2n v.demand, 28),
      (v.mirror.getD 0, 16), (v.room.getD 0, 8), (m.hold, 0)]

/-- SEA_SUMMARY. -/
def State.seaSummary (s : State) : Word :=
  let retired := ((List.range 64).filter fun r =>
    (Tab.get 0#32 s.fus.shadow (102 + r / 32)).getLsbD (r % 32)).length
  let free (q : Side) : Nat := (s.freeRooms.filter fun r => roomSide r = q).length
  let mir := (s.sea.imap.filter fun e => decide (e.1 < 64) && e.2.mirror.isSome).length
  mkWord [(retired, 24), (free .b, 16), (free .a, 8), (mir, 0)]

/-- SEA_LAST. -/
def Sea.lastWord (v : Sea) : Word :=
  match v.last with
  | none => 0
  | some x => mkWord [(1, 31), (x.1, 16), (x.2.1, 8), (x.2.2, 0)]

def State.readSea (s : State) (o : Nat) : Word :=
  let speed := mkWord [(if s.powered 3 then min 0xFFFF s.sea.delayB else 0, 16),
    (if s.powered 2 then min 0xFFFF s.sea.delayA else 0, 0)]
  fromRows o [(0x000, 64, s.roomWord),
    (0x100, 64, fun r => mkWord [(min 0xFFFF (s.room r).first, 16), (min 0xFFFF (s.room r).fails, 0)]),
    (0x200, 64, s.imapWord), one 0x300 s.seaSummary, one 0x304 speed, one 0x308 s.sea.lastWord]

def State.readSvc (s : State) (o : Nat) : Word :=
  fromRows o [one 0x00 s.svc.word, one 0x04 s.svcInv0, one 0x08 s.svcInv1, one 0x0C s.svcInv2,
    one 0x10 s.svcInv3, one 0x14 s.shedWord, one 0x18 (s.svcCnt true), one 0x1C (s.svcCnt false),
    one 0x20 (BitVec.ofNat 32 s.svc.change), (0x1000, 1280, s.svcFn false),
    (0x3000, 1280, s.svcWhy false)]

/-! ### LNK_ (R377) -/

/-- LNK_SELF. -/
def State.lnkSelf (s : State) : Word :=
  mkWord [(b2n s.ownAddr.isNone, 31), (b2n s.lnk.clash, 30), (s.role, 28), (s.ownAddr.getD 0, 0)]

/-- LNK_PORT. -/
def State.portWord (s : State) (p : Nat) : Word :=
  let v := s.port p
  let role := (s.fab.map fun f => nth f.ports p 0).getD 0
  let known := v.st == .up && decide (v.naddr < 0x8000)
  mkWord [(v.st.code, 30), (role, 28), (b2n known, 27), (b2n v.ntaint, 26), (min 255 (v.delay / 2), 16),
    (if known then v.naddr % 0x4000 else 0, 0)]

/-- The other nodes of the database. -/
def State.nodesSeen (s : State) : List Lsa := s.lnk.db.filter fun l => l.uid != s.uid

/-- LNK_NODES. -/
def State.lnkNodes (s : State) : Word :=
  let n (st : Nat) : Nat := (s.nodesSeen.filter fun l => s.peerState l.uid == st).length
  mkWord [(min 256 s.nodesSeen.length, 18), (min 256 (n 1), 9), (min 256 (n 2), 0)]

/-- The node of the fabric with a given node number is this device or can be reached. -/
def State.nodeReached (s : State) (node : Nat) : Bool :=
  match s.fab with
  | none => false
  | some f =>
    let a := addrOf f.fabric node
    s.ownAddr == some a || s.lnk.db.any fun l => l.addr == a && s.reachable l.uid

/-- LNK_ROOF. -/
def State.lnkRoof (s : State) : Word :=
  match s.fab with
  | none => 0
  | some f =>
    let fabrics := if f.ports.contains 2
      then ((s.graph true).map fun l => l.addr / 256 % 64).eraseDups.length else 0
    mkWord [(b2n (s.nodeReached f.master), 31), (b2n (s.nodeReached f.standby), 30),
      (b2n s.lnk.acting, 29), (fabrics, 16), (f.master, 8), (f.standby, 0)]

/-- LNK_PERR, LNK_PSAFE, LNK_PCTRL and LNK_PBULK by `i` 0 to 3. -/
def Port.countWord (v : Port) (i : Nat) : Word :=
  let half (n : Nat) : Nat := min 0xFFFF n
  match i with
  | 0 => mkWord [(half v.lcrc, 16), (half v.timeouts, 0)]
  | 1 => mkWord [(half v.highest, 16), (min 255 v.safeover, 8), (min 255 v.safedrop, 0)]
  | 2 => mkWord [(half v.aged, 16), (half v.cfull, 0)]
  | _ => mkWord [(half v.bdrop, 16), (half v.refused, 0)]

/-- Hops of the route with the given RT toward the consumer `uid`; those of the legs that other nodes compute are
free (R377). -/
def hopsOf (rs : List Route) (rt : Bool) (uid : Long) (far : Bool) : Nat :=
  match rs.find? fun r => r.rt == rt with
  | some r =>
    match r.legs with
    | [[leg], ports] =>
      let most := if leg = 0 then 18 else if leg = 1 then 16 else 0
      min 34 (ports.length + if far then Config.farHops uid rt % (most + 1) else 0)
    | _ => 0
  | none => 0

/-- LNK_PCON. -/
def State.pconWord (s : State) (k : Nat) : Word :=
  match s.fab.bind fun f => f.produced[k]? with
  | none => 0
  | some c =>
    let rs := (Tab.get .start s.lnk.prod k).routes.head?.getD []
    let uid := nth c.consumers 0 0#64
    let far := (s.addrFor uid.toNat).any fun a => some (a / 256 % 64) != s.fab.map FabricImg.fabric
    mkWord [(1, 31), (b2n c.dual, 30), (min 2 rs.length, 28), (c.consumers.length, 24),
      (hopsOf rs false uid far, 18), (hopsOf rs true uid far, 12), (c.period, 0)]

/-- LNK_CCON. -/
def State.cconWord (s : State) (k : Nat) : Word :=
  match s.consImg false k with
  | none => 0
  | some c =>
    let v := s.cons k
    mkWord [(1, 31), (b2n c.dual, 30), (v.st.code, 27), (v.routes c s.tb, 25), (c.n, 20),
      (min 63 v.hmax, 14), (c.period, 0)]

def Cons.countWord (v : Cons) : Word :=
  mkWord [(min 255 v.late, 24), (min 255 v.badalive, 16), (min 255 v.layout, 8), (min 255 v.fsentries, 0)]

def State.readLnk (s : State) (o : Nat) : Word :=
  fromRows o [one 0x00 s.lnkSelf, (0x10, 4, s.portWord), one 0x40 s.lnkNodes, one 0x44 s.lnkRoof,
    one 0x48 (mkWord [(s.nv.accept.length, 8), (s.nv.expel.length, 0)]),
    (0x100, 16, fun i => (s.port (i / 4)).countWord (i % 4)), (0x1000, 256, s.pconWord),
    (0x1400, 256, s.cconWord), (0x1800, 256, fun k => (s.cons k).countWord)]

/-! ### REC_ and CFG_ (R405, R327) -/

/-- REC_STAT. -/
def Recorder.statWord (r : Recorder) : Word :=
  let why := match r.failed with
    | none => 0
    | some .unit => 1
    | some .store => 2
  mkWord [(b2n r.failed.isSome, 31), (why, 29), (b2n r.flushing, 28), (r.buf.length, 0)]

def State.readRec (s : State) (o : Nat) : Word :=
  fromRows o [one 0x00 (BitVec.ofNat 32 s.nv.found.length), one 0x04 (BitVec.ofNat 32 s.oldestSeq),
    one 0x08 (BitVec.ofNat 32 s.newestSeq), one 0x0C (BitVec.ofNat 32 s.nv.lastClr),
    one 0x10 s.rcd.statWord, one 0x14 (BitVec.ofNat 32 s.rcd.drop),
    one 0x18 (mkWord [(min 0xFFFF s.rcd.verify, 16), (min 0xFFFF s.rcd.readErr, 0)])]

/-- CFG_SLOT. -/
def State.slotWord (s : State) (k : Nat) : Word :=
  let more := match s.slotHeader k with
    | some x => [(b2n x.signed, 28), (x.keyslot % 4, 26), (x.spare % 4, 24), (x.sealCode.toNat, 16)]
    | none => []
  mkWord (((s.slot k).st.code, 29) :: more)

/-- Configuration of an input, a counter or a channel in an image, as far as it decides its value. -/
def Image.inputCfg (m : Image) (n : Nat) : Option Word :=
  if n < m.icfg.length ∧ (n < 128 ∨ m.pole.getLsbD (n - 128) = true) then some (nth m.icfg n 0) else none

def Image.channelCfg (m : Image) (n : Nat) : Option ChImg :=
  (m.convs.find? fun x => x.conv == n / 8).bind fun x => x.chans[n % 8]?

/-- CFG_UNSHADOW (R321). -/
def State.unshadowWord (s : State) : Word :=
  match s.img false, s.img true with
  | some x, some y =>
    let count (n : Nat) (f : Nat → Bool) : Nat := ((List.range n).filter f).length
    mkWord [(count 192 fun n => x.inputCfg n != y.inputCfg n, 16),
      (count 128 fun m => nth x.ccfg m 0 != nth y.ccfg m 0, 8),
      (count 32 fun n => x.channelCfg n != y.channelCfg n, 0)]
  | _, _ => 0

/-- CFG_LOAD. -/
def Cfg.loadWord (c : Cfg) : Word :=
  match c.load with
  | none => 0
  | some l => mkWord [(1, 31), (l.slot, 30), (l.next % 2 ^ 24, 0)]

/-- CFG_SEAL. -/
def State.sealWord (s : State) : Word :=
  mkWord [(s.openings, 16), (s.sealJudge, 10), (b2n s.cfg.coverOpen, 9), (s.cfg.sealNow.toNat, 0)]

def State.readCfg (s : State) (o : Nat) : Word :=
  fromRows o [(0x00, 2, s.slotWord),
    (0x08, 2, fun k => BitVec.ofNat 32 ((s.slotHeader k).map ImgHeader.gen |>.getD 0)),
    one 0x10 (mkWord [(b2n s.cfg.image.isNone, 1), (s.nv.active, 0)]), one 0x14 s.sealWord,
    one 0x18 s.cfg.loadWord, one 0x1C s.valWhy, one 0x20 s.stageWord, pair 0x24 s.differNow,
    pair 0x2C s.cfg.dseen, one 0x34 s.unshadowWord, one 0x38 s.genWord, pair 0x3C s.cfg.lastnb]

/-! ### One read -/

/-- The address lies in a block and is a multiple of 4 (R4, R30). -/
def addrOk (a : Nat) : Bool :=
  a % 4 == 0 && decide (a < 0x140000) && ! [0x7, 0xE, 0xF].contains (a / 0x10000)

/-- What a read of address `a` by `w` gives. -/
def State.readReg (s : State) (w : Agent) (a : Nat) : Word :=
  let o := a % 0x10000
  match a / 0x10000 with
  | 0x0 => s.readDev o
  | 0x1 => s.readPwr o
  | 0x2 => s.readFus o
  | 0x3 => s.readTmr w o
  | 0x4 => s.readCvu o
  | 0x5 => s.readFld o
  | 0x6 => s.readCnv o
  | 0x8 => s.readEng o
  | 0x9 => s.readSea o
  | 0xA => s.readSvc o
  | 0xB => s.readLnk o
  | 0xC => s.readRec o
  | 0xD => s.readCfg o
  | _ => s.readBuf (a - 0x100000)

/-- What a read leaves behind: TMR_TB_LO latches TMR_TB_HI of its reader (R279). -/
def State.afterRead (s : State) (w : Agent) (a : Nat) : State :=
  if a = 0x30000 then s.tbRead w else s

end Sys2Proof.Machine
end

