-- ==== Sys2Proof/Machine/WriteRegs.lean ====
section
/-! DEFINITION. Writes to registers, their levels, and the commands that read and write registers
(R4, R5, R7, R335, R345). -/

namespace Sys2Proof.Machine

/-! ### Owners -/

/-- An OWNER code of a counter or channel (0 to 7 an engine, 8 the porch) names the writer. -/
def State.codeOwns (s : State) (w : Agent) (code : Nat) : Bool :=
  match w with
  | .porch => code == 8
  | .engine e => code == e.val
  | .inst st i => !st && s.carrier false i.val == some code

/-- The writer owns counter `m` (R79, R195). -/
def State.ownsCounter (s : State) (w : Agent) (m : Nat) : Bool :=
  match s.img false with
  | none => false
  | some i => decide (m < 128) && s.codeOwns w (bf (s.ownedWord m (nth i.ccfg m 0)) 15 12)

/-! ### One write of each register that takes one -/

/-- TMR_CTL: its bits in the order of R282. -/
def State.ctlWrite (s : State) (w : Agent) (n : Nat) (v : Word) : State :=
  let s1 := if bitOf v 5 then s.tmrPop w n else s
  let s2 := if bitOf v 4 then s1.tmrCapsw w n else s1
  let s3 := if bitOf v 3 then s2.tmrStop w n else s2
  let s4 := if bitOf v 1 then s3.tmrArm w n else s3
  if bitOf v 2 then s4.tmrStart w n else s4

/-- A register of one timer. -/
def State.writeTimer (s : State) (w : Agent) (n o : Nat) (v : Word) : State :=
  match o with
  | 0x08 => s.ctlWrite w n v
  | 0x0C => s.statWrite w n v
  | 0x14 => s.periodWrite w n v
  | 0x18 => s.compareWrite w n false v
  | 0x1C => s.compareWrite w n true v
  | _ => s

def State.writeTmr (s : State) (w : Agent) (o : Nat) (v : Word) : State :=
  let s := s.takeDues
  if 0x1000 ≤ o ∧ o < 0x2000 then s.writeTimer w ((o - 0x1000) / 0x40) (o % 0x40) v
  else match o with
    | 0x10 => s.tmrGo w v 0
    | 0x14 => s.tmrGo w 0 v
    | 0x18 => s.tmrSnap w v 0
    | 0x1C => s.tmrSnap w 0 v
    | _ => s

/-- FLD_CSTAT. -/
def State.cstatWrite (s : State) (w : Agent) (m : Nat) (v : Word) : State :=
  if s.ownsCounter w m then
    let f (b : Nat) : Bool := !s.w1c (counterFlag m b) true (bitOf v b)
    s.clearFlags { num := m, wrap := f 0, qerr := f 1, excess := f 5 }
  else s

/-- FLD_CCLR: the next downlink frame carries the clears (R79). -/
def State.cclrWrite (s : State) (w : Agent) (p : Nat) (v : Word) : State :=
  let add := (List.range 32).foldl (fun acc j =>
    if v.getLsbD j && s.ownsCounter w (32 * p + j)
    then acc ||| BitVec.ofNat 128 (1 <<< (32 * p + j)) else acc) 0#128
  { s with lgc := { s.lgc with cclr := s.lgc.cclr ||| add } }

def State.writeFld (s : State) (w : Agent) (o : Nat) (v : Word) : State :=
  match rowAt 0x1600 128 o with
  | some m => s.cstatWrite w m v
  | none =>
    match rowAt 0x1800 4 o with
    | some p => s.cclrWrite w p v
    | none => s

/-- CNV_STAT: TMISS. -/
def State.cnvStatWrite (s : State) (c : Nat) (v : Word) : State :=
  let x := s.conv c
  s.setConv c { x with tmiss := s.w1c (tmissFlag c) x.tmiss (bitOf v 9) }

/-- CNV_CHST: WCF, for the owner of the channel (R177). -/
def State.chstWrite (s : State) (w : Agent) (n : Nat) (v : Word) : State :=
  if s.codeOwns w (bf (s.chShown n).cfg 27 24) then
    let x := s.chan n
    s.setChan n { x with wcf := s.w1c (wcfFlag n) x.wcf (bitOf v 31) }
  else s

def State.writeCnv (s : State) (w : Agent) (o : Nat) (v : Word) : State :=
  match rowAt 0x10 4 o with
  | some c => s.cnvStatWrite c v
  | none =>
    match rowAt 0xB00 32 o with
    | some n => s.chstWrite w n v
    | none =>
      if o = 0x40 then s.cnvGo (BitVec.ofNat 4 v.toNat)
      else if o = 0x44 then s.cnvSnap (BitVec.ofNat 4 v.toNat)
      else s

/-- One write of `v` to address `a`: by the host, or by a local access. The status is other than OK
only where PWR_DOMCTL refuses (R345). -/
def State.writeReg (s : State) (w : Agent) (host : Bool) (a : Nat) (v : Word) : State × Nat :=
  let o := a % 0x10000
  match a / 0x10000 with
  | 0x1 => if o = 0x14 ∧ w = .porch then s.domCtl (bf v 2 0) (bitOf v 8) else (s, stOk)
  | 0x3 => (s.writeTmr w o v, stOk)
  | 0x4 => (s.writeCvu w host o v, stOk)
  | 0x5 => (s.writeFld w o v, stOk)
  | 0x6 => (s.writeCnv w o v, stOk)
  | _ => (s, stOk)

/-! ### Levels (R7) -/

/-- Level of a per-timer register. -/
def timerLevel (write : Bool) (o : Nat) : Level :=
  if o = 0x08 then .operate
  else if write && [0x0C, 0x14, 0x18, 0x1C].contains o then .operate
  else .observe

/-- Level at which the host may read, or write, address `a`. -/
def regLevel (write : Bool) (a : Nat) : Level :=
  let o := a % 0x10000
  match a / 0x10000 with
  | 0x1 => if o = 0x14 && write then .engineer else .observe
  | 0x3 =>
    if o = 0x10 ∨ o = 0x14 then .operate
    else if 0x1000 ≤ o ∧ o < 0x2000 then timerLevel write (o % 0x40)
    else .observe
  | 0x5 =>
    if (rowAt 0x1800 4 o).isSome then .operate
    else if write && (rowAt 0x1600 128 o).isSome then .operate
    else .observe
  | 0x6 =>
    if o = 0x40 then .operate
    else if write && ((rowAt 0x10 4 o).isSome || (rowAt 0xB00 32 o).isSome) then .operate
    else .observe
  | _ => .observe

/-- The request's level admits a register of level `l` (R335). -/
def State.admitted (s : State) (session : Byte) : Level → Bool
  | .observe => true
  | .operate => session != 0
  | .engineer => session != 0 && s.cfg.sealNow == 0

/-- What R345 finds of the addresses: OK, DENIED_LEVEL, or BAD_ARG; BAD_STATE for a register above OBSERVE without
a timebase (R271). -/
def State.judgeRegs (s : State) (session : Byte) (write : Bool) (l : List Nat) : Nat :=
  if !(l.all fun a => !addrOk a || s.admitted session (regLevel write a)) then stLevel
  else if !(l.all addrOk) then stArg
  else if l.any fun a => s.observeOnly (regLevel write a) then stState
  else stOk

/-! ### READ_REGS and WRITE_REGS (R345) -/

/-- Reads in the order listed. -/
def State.readList (s : State) (loader : Bool) : List Nat → State × List Word
  | [] => (s, [])
  | a :: l =>
    let v := if loader && !decide (a < 0x30000) then 0#32 else s.readReg .porch a
    let r := (if loader then s else s.afterRead .porch a).readList loader l
    (r.1, v :: r.2)

/-- Writes in the order listed, up to the first refusal: the state, the status, the writes made. -/
def State.writeRegsList (s : State) : List (Nat × Word) → State × Nat × Nat
  | [] => (s, stOk, 0)
  | e :: l =>
    let r := s.writeReg .porch true e.1 e.2
    if r.2 = stOk then
      let q := r.1.writeRegsList l
      (q.1, q.2.1, q.2.2 + 1)
    else (r.1, r.2, 0)

/-- N of a READ_REGS or WRITE_REGS body, where its length fits. -/
def regCount (body : List Byte) (size top : Nat) : Option Nat :=
  let n := numAt body 0 2
  if 1 ≤ n ∧ n ≤ top ∧ body.length = 4 + size * n then some n else none

def State.readRegs (s : State) (h : Hdr) (body : List Byte) : Answer :=
  match regCount body 4 250 with
  | none => (s, stArg, [])
  | some n =>
    let l := (List.range n).map fun i => numAt body (4 + 4 * i) 4
    let st := s.judgeRegs h.session false l
    if st ≠ stOk then (s, st, [])
    else
      let r := s.readList s.inLoader l
      (r.1, stOk, be16 n ++ [0#8, 0#8] ++ r.2.flatMap wordBytes)

def State.writeRegs (s : State) (h : Hdr) (body : List Byte) : Answer :=
  match regCount body 8 125 with
  | none => (s, stArg, [])
  | some n =>
    let l := (List.range n).map fun i => (numAt body (4 + 8 * i) 4, wordAt body (8 + 8 * i))
    let st := s.judgeRegs h.session true (l.map Prod.fst)
    if st ≠ stOk then (s, st, [])
    else if s.inLoader then (s, stState, [])
    else
      let r := s.writeRegsList l
      (r.1, r.2.1, be16 r.2.2)

/-- READ_REGS. -/
def execReadRegs (h : Hdr) (body : List Byte) (s : State) : Host.Outcome State Fault Refusal :=
  .next (s.request h (observe 0x03 true) true fun t _ => t.readRegs h body)

/-- WRITE_REGS. -/
def execWriteRegs (h : Hdr) (body : List Byte) (s : State) : Host.Outcome State Fault Refusal :=
  .next (s.request h (observe 0x04 true) true fun t _ => t.writeRegs h body)

/-- REGISTER_WRITE: one write by the local access of the porch, an engine or an instance. -/
def execRegisterWrite (w : Agent) (addr v : Word) (s : State) : Host.Outcome State Fault Refusal :=
  .next (if s.alive && addrOk addr.toNat then (s.writeReg w false addr.toNat v).1 else s)

end Sys2Proof.Machine
end

