-- ==== Sys2Proof/Machine/PorchInfo.lean ====
section
/-! DEFINITION. What the porch tells of the device, and what it answers on the host ports beside
mailboxes (R328, R343, Tables 16.6 and 16.7). -/

namespace Sys2Proof.Machine

/-! ### IDENTIFY (Table 16.6) -/

/-- The firmware that a processor runs, if it runs any. -/
def State.firmwareOn (s : State) (q : Side) : Option FwBank := if s.procIn q then some (s.bankOf q) else none

/-- MAC address of host port `p`; a PRP pair has one (R328). -/
def State.mac (s : State) (p : Nat) : List Byte :=
  beBytes 6 (Config.macAddress (if s.por.prp then 0 else p)).toNat

def State.identity (s : State) : List Byte :=
  let ver (q : Side) : List Byte := wordBytes (((s.firmwareOn q).map FwBank.version).getD 0)
  let rb (q : Side) : Byte := BitVec.ofNat 8 (((s.firmwareOn q).map FwBank.rollback).getD 0)
  be32 0x9664 ++ wordBytes s.devStep ++ be64 s.uid ++ ver .a ++ ver .b ++ [rb .a, rb .b,
    BitVec.ofNat 8 s.rollback, BitVec.ofNat 8 (b2n s.inLoader + 2 * b2n s.por.prp)] ++ s.mac 0 ++ s.mac 1 ++
    s.por.h1.take 4 ++ s.por.h2.take 4 ++ be32 (((s.img false).map fun m => m.hdr.gen).getD 0) ++
    ((s.img false).map fun m => m.hdr.name).getD (List.replicate 32 0#8)

/-- IDENTIFY. -/
def execIdentify (h : Hdr) (body : List Byte) (s : State) : Host.Outcome State Fault Refusal :=
  .next (s.request h (observe 0x01 true) body.isEmpty fun t _ => (t, stOk, t.identity))

/-! ### GET_STATUS (Table 16.7) -/

/-- Code of the processor that is not active. -/
def ProcSt.otherCode : ProcSt → Nat
  | .active => 0
  | .standby => 0
  | .restarting => 1
  | .lost => 2
  | .retired => 3
  | .loader => 4
  | .updating => 5

def State.statusBytes (s : State) : List Byte :=
  let l := s.inLoader
  let fw (w : Word) : List Byte := wordBytes (if l then 0 else w)
  let newest := (s.newestRec.map Rec.seq).getD 0
  let other := (s.proc (otherSide s.por.active)).st.otherCode
  let streams := ((List.range 4).map fun k => if (s.stream k).isSome then 2 ^ k else 0).sum
  wordBytes s.devStatus ++ fw s.svc.word ++ fw s.svcInv0 ++ fw s.svcInv1 ++ fw s.svcInv2 ++
    fw s.svcInv3 ++ fw s.shedWord ++ be64 (if l then 0 else s.tb) ++ be32 s.pwr.opsec ++
    be32 (s.pwr.cycles % 2 ^ 24) ++ wordBytes s.startWord ++ fw s.stageWord ++ fw s.ostat ++
    be32 (if l then 0 else s.svc.change) ++ be32 newest ++
    [BitVec.ofNat 8 (128 * sideNat s.por.active + 16 * other), BitVec.ofNat 8 s.por.epoch,
      BitVec.ofNat 8 s.openSessions.length, BitVec.ofNat 8 (1 + s.por.boxes.length), BitVec.ofNat 8 streams, 0#8] ++
    be16 (min 0xFFFF s.por.crcerr)

/-- GET_STATUS. -/
def execGetStatus (h : Hdr) (body : List Byte) (s : State) : Host.Outcome State Fault Refusal :=
  .next (s.request h (observe 0x02 true) body.isEmpty fun t _ => (t, stOk, t.statusBytes))

/-! ### Host ports (R328) -/

/-- PRP_SUPERVISION: every 2 s while PRP is set. -/
def execPrpSupervision (s : State) : Host.Outcome State Fault Refusal :=
  .next <|
    if s.por.prp && s.porchUp && decide (s.por.prpAt + 400000000 ≤ s.tb) then
      ({ s with por := { s.por with prpAt := s.tb } } : State).post .prpSupervision
    else s

/-- An ARP request for IPv4 over Ethernet that asks for address `ip`. -/
def asksFor (bytes ip : List Byte) : Bool :=
  bytes.length == 28 && bytesAt bytes 0 8 == [0#8, 1#8, 8#8, 0#8, 6#8, 4#8, 0#8, 1#8] && bytesAt bytes 24 4 == ip

/-- ARP: a request for the address of H1 or H2 is answered. -/
def execArp (bytes : List Byte) (s : State) : Host.Outcome State Fault Refusal :=
  .next <|
    if s.porchUp && (asksFor bytes (s.por.h1.take 4) || asksFor bytes (s.por.h2.take 4)) then
      s.post (.arpReply (bytesAt bytes 24 4))
    else s

/-- Sum of the 16-bit words of a byte string, an odd last byte taken as a high byte. -/
def sum16 : List Byte → Nat
  | [] => 0
  | [a] => a.toNat * 256
  | a :: b :: l => a.toNat * 256 + b.toNat + sum16 l

/-- The ones' complement checksum of IP and ICMP. -/
def inetSum (bs : List Byte) : Nat :=
  let fold (n : Nat) : Nat := n % 65536 + n / 65536
  0xFFFF - fold (fold (fold (sum16 bs)))

/-- An echo message of type `t` with identifier, sequence number and data `rest`. -/
def echoMessage (t : Nat) (rest : List Byte) : List Byte :=
  [BitVec.ofNat 8 t, 0#8] ++ be16 (inetSum ([BitVec.ofNat 8 t, 0#8, 0#8, 0#8] ++ rest)) ++ rest

/-- ICMP_ECHO: an echo request with a good checksum is answered. -/
def execIcmpEcho (bytes : List Byte) (s : State) : Host.Outcome State Fault Refusal :=
  .next <|
    if s.porchUp && decide (8 ≤ bytes.length) && bytes == echoMessage 8 (bytes.drop 4) then
      s.post (.echoReply (echoMessage 0 (bytes.drop 4)))
    else s

end Sys2Proof.Machine
end

