-- ==== Sys2Proof/Machine/MailboxFrame.lean ====
section
/-! DEFINITION. A frame as it arrives from a host port or the service port: its escapes and channel,
its check, its header, and the command it carries (R330 to R333). -/

namespace Sys2Proof.Machine

/-- Bytes of a service-port frame without their escapes; none for a bad escape (R330). -/
def unstuff : List Byte → Option (List Byte)
  | [] => some []
  | b :: l =>
    if b = 0x7E#8 then none
    else if b = 0x7D#8 then
      match l with
      | [] => none
      | c :: l' =>
        if c ^^^ 0x20#8 = 0x7E#8 ∨ c ^^^ 0x20#8 = 0x7D#8
        then (unstuff l').map fun r => (c ^^^ 0x20#8) :: r
        else none
    else (unstuff l).map fun r => b :: r

/-- What arrives on the mailbox channel. -/
inductive Arrival where
  | mailbox (bytes : List Byte)
  /-- a stream packet sent to the device -/
  | ignored
  /-- bad escape or unknown channel -/
  | bad
  deriving DecidableEq, Repr

def arrival (o : Origin) (bytes : List Byte) : Arrival :=
  match o with
  | .udp _ _ => .mailbox bytes
  | .usb =>
    match unstuff bytes with
    | some (c :: l) => if c = 0 then .mailbox l else if c = 1 then .ignored else .bad
    | _ => .bad

/-- The header fields of a request (Table 16.2). -/
def headerOf (o : Origin) (b : List Byte) : Hdr :=
  { origin := o, session := nth b 4 0, tag := wordAt b 6, seq := wordAt b 10, epoch := nth b 5 0,
    staged := (nth b 3 0#8).getLsbD 6 }

/-- One command by its opcode (Table 16.4). -/
def commandOf (opcode : Nat) (h : Hdr) (body : List Byte) :
    Option (State → Host.Outcome State Fault Refusal) :=
  match opcode with
  | 0x01 => some (execIdentify h body)
  | 0x02 => some (execGetStatus h body)
  | 0x03 => some (execReadRegs h body)
  | 0x04 => some (execWriteRegs h body)
  | 0x10 => some (execSessionOpen h body)
  | 0x11 => some (execSessionClose h body)
  | 0x20 => some (execImageBegin h body)
  | 0x21 => some (execImageChunk h body)
  | 0x22 => some (execImageEnd h body)
  | 0x23 => some (execImageValidate h body)
  | 0x24 => some (execImageStage h body)
  | 0x25 => some (execImageHandover h body)
  | 0x26 => some (execImageAbandon h body)
  | 0x30 => some (execFunctionReset h body)
  | 0x31 => some (execFunctionQuery h body)
  | 0x40 => some (execEngineSplit h body)
  | 0x41 => some (execEngineJoin h body)
  | 0x50 => some (execCalZero h body)
  | 0x51 => some (execCalFull h body)
  | 0x52 => some (execCalCommit h body)
  | 0x53 => some (execCalDiscard h body)
  | 0x60 => some (execRecInfo h body)
  | 0x61 => some (execRecRead h body)
  | 0x62 => some (execRecClear h body)
  | 0x70 => some (execFuseRead h body)
  | 0x71 => some (execFuseAdvance h body)
  | 0x80 => some (execFabricMap h body)
  | 0x81 => some (execPeerAccept h body)
  | 0x82 => some (execPeerExpel h body)
  | 0x90 => some (execStreamOpen h body)
  | 0x91 => some (execStreamClose h body)
  | 0xA0 => some (execDebugAttach h body)
  | 0xA1 => some (execDebugDetach h body)
  | 0xB0 => some (execFirmwareBegin h body)
  | 0xB1 => some (execFirmwareChunk h body)
  | 0xB2 => some (execFirmwareEnd h body)
  | 0xB3 => some (execFirmwareSwitch h body)
  | _ => none

/-- The state that a command answers. -/
def nextState (o : Host.Outcome State Fault Refusal) (s : State) : State :=
  match o with
  | .next t => t
  | _ => s

/-- A frame discarded and counted (R330, R332). -/
def State.dropFrame (s : State) : State := { s with por := { s.por with crcerr := satAdd 0xFFFF s.por.crcerr 1 } }

/-- A frame whose length and check are good (R332, R333 steps 1 and 2). -/
def State.takeRequest (s : State) (o : Origin) (b : List Byte) : State :=
  let h := headerOf o b
  let opcode := numAt b 0 2
  let flags := (nth b 3 0#8).toNat
  if s.noBox h.session then s.respondBare h opcode stBusy []
  else if flags / 128 = 1 ∨ flags % 64 ≠ 0 ∨ nth b 2 0 ≠ 0 then s.respondBare h opcode stFrame []
  else
    match commandOf opcode h (bytesAt b 16 (numAt b 14 2)) with
    | none => s.respondBare h opcode stFrame []
    | some f => nextState (f s) s

/-- A mailbox on its way in: length, then check (R332). -/
def State.takeMailbox (s : State) (o : Origin) (b : List Byte) : State :=
  let len := numAt b 14 2
  if b.length < 20 ∨ b.length ≠ 20 + len ∨ 1004 < len then s.dropFrame
  else
    let r := s.checkWith (procUnit s.por.active) 3#2 (b.take (16 + len)) (numAt b (16 + len) 4)
    if r.2 then r.1.takeRequest o b else r.1.dropFrame

/-- A host port takes the frame in: untagged, whole, and sent to the mailbox port (R328). -/
def frameTaken (w : Wire) : Bool :=
  match w.origin with
  | .udp _ _ => !w.tagged && !w.fragment && w.port.toNat == mailboxPort
  | .usb => true

/-- The other LAN of a PRP pair has brought the frame within the last 400 ms (R328; PRESUMED, log 102). -/
def State.prpTwin (s : State) (w : Wire) : Bool :=
  match w.trailer with
  | some t => s.por.prp && s.por.prpSeen.any fun x =>
      x.mac == t.1.toNat && x.seq == t.2.1.toNat && x.lan != t.2.2 && decide (s.tb < x.tick + 80000000)
  | none => false

/-- A frame of a PRP pair is remembered. -/
def State.seePrp (s : State) (w : Wire) : State :=
  match w.trailer with
  | some t =>
    if s.por.prp then
      let l := s.por.prpSeen.filter fun x => decide (s.tb < x.tick + 80000000)
      { s with por := { s.por with
          prpSeen := { mac := t.1.toNat, seq := t.2.1.toNat, lan := t.2.2, tick := s.tb } :: l } }
    else s
  | none => s

/-- Runs `f` with its response held in its mailbox where `b` (R334). -/
def State.holding (s : State) (b : Bool) (f : State → State) : State :=
  let t := f { s with por := { s.por with hold := b } }
  { t with por := { t.por with hold := false } }

/-- MAILBOX_FRAME: a frame arrives on a host port or on the service port. -/
def execMailboxFrame (w : Wire) (bytes : List Byte) (s : State) : Host.Outcome State Fault Refusal :=
  .next <|
    if !s.porchUp || !frameTaken w then s
    else if s.prpTwin w then s
    else match arrival w.origin bytes with
      | .mailbox b => (s.seePrp w).holding w.held fun t => (t.takeMailbox w.origin b).chargeUnits
      | .ignored => s.seePrp w
      | .bad => s.dropFrame

end Sys2Proof.Machine
end

