-- ==== Sys2Proof/Machine/Dispatch.lean ====
section
/-! DEFINITION. One arm for each command of the table. -/

namespace Sys2Proof.Machine

def exec (i : Instr) (s : State) : Host.Outcome State Fault Refusal :=
  match i with
  | .identify h body => Sys2Proof.Machine.execIdentify h body s
  | .getStatus h body => Sys2Proof.Machine.execGetStatus h body s
  | .readRegs h body => Sys2Proof.Machine.execReadRegs h body s
  | .writeRegs h body => Sys2Proof.Machine.execWriteRegs h body s
  | .sessionOpen h body => Sys2Proof.Machine.execSessionOpen h body s
  | .sessionClose h body => Sys2Proof.Machine.execSessionClose h body s
  | .imageBegin h body => Sys2Proof.Machine.execImageBegin h body s
  | .imageChunk h body => Sys2Proof.Machine.execImageChunk h body s
  | .imageEnd h body => Sys2Proof.Machine.execImageEnd h body s
  | .imageValidate h body => Sys2Proof.Machine.execImageValidate h body s
  | .validationDone => Sys2Proof.Machine.execValidationDone s
  | .imageStage h body => Sys2Proof.Machine.execImageStage h body s
  | .imageHandover h body => Sys2Proof.Machine.execImageHandover h body s
  | .handoverCommit => Sys2Proof.Machine.execHandoverCommit s
  | .imageAbandon h body => Sys2Proof.Machine.execImageAbandon h body s
  | .functionReset h body => Sys2Proof.Machine.execFunctionReset h body s
  | .outputReset h k => Sys2Proof.Machine.execOutputReset h k s
  | .reTestEnd k => Sys2Proof.Machine.execReTestEnd k s
  | .functionQuery h body => Sys2Proof.Machine.execFunctionQuery h body s
  | .engineSplit h body => Sys2Proof.Machine.execEngineSplit h body s
  | .drainEnd e => Sys2Proof.Machine.execDrainEnd e s
  | .engineJoin h body => Sys2Proof.Machine.execEngineJoin h body s
  | .calZero h body => Sys2Proof.Machine.execCalZero h body s
  | .calFull h body => Sys2Proof.Machine.execCalFull h body s
  | .calAverageEnd => Sys2Proof.Machine.execCalAverageEnd s
  | .calCommit h body => Sys2Proof.Machine.execCalCommit h body s
  | .calDiscard h body => Sys2Proof.Machine.execCalDiscard h body s
  | .recInfo h body => Sys2Proof.Machine.execRecInfo h body s
  | .recRead h body => Sys2Proof.Machine.execRecRead h body s
  | .recClear h body => Sys2Proof.Machine.execRecClear h body s
  | .fuseRead h body => Sys2Proof.Machine.execFuseRead h body s
  | .fuseAdvance h body => Sys2Proof.Machine.execFuseAdvance h body s
  | .fabricMap h body => Sys2Proof.Machine.execFabricMap h body s
  | .peerAccept h body => Sys2Proof.Machine.execPeerAccept h body s
  | .peerExpel h body => Sys2Proof.Machine.execPeerExpel h body s
  | .streamOpen h body => Sys2Proof.Machine.execStreamOpen h body s
  | .streamClose h body => Sys2Proof.Machine.execStreamClose h body s
  | .debugAttach h body => Sys2Proof.Machine.execDebugAttach h body s
  | .halt h e => Sys2Proof.Machine.execHalt h e s
  | .resume h e => Sys2Proof.Machine.execResume h e s
  | .debugStep h e => Sys2Proof.Machine.execDebugStep h e s
  | .debugRead h e space addr len => Sys2Proof.Machine.execDebugRead h e space addr len s
  | .debugWrite h e space addr data => Sys2Proof.Machine.execDebugWrite h e space addr data s
  | .breakSet h e addr set => Sys2Proof.Machine.execBreakSet h e addr set s
  | .debugDetach h body => Sys2Proof.Machine.execDebugDetach h body s
  | .firmwareBegin h body => Sys2Proof.Machine.execFirmwareBegin h body s
  | .firmwareChunk h body => Sys2Proof.Machine.execFirmwareChunk h body s
  | .firmwareEnd h body => Sys2Proof.Machine.execFirmwareEnd h body s
  | .firmwareCheckEnd => Sys2Proof.Machine.execFirmwareCheckEnd s
  | .firmwareSwitch h body => Sys2Proof.Machine.execFirmwareSwitch h body s
  | .counterClear p v => Sys2Proof.Machine.execCounterClear p v s
  | .cnvGo w v => Sys2Proof.Machine.execCnvGo w v s
  | .cnvSnap w v => Sys2Proof.Machine.execCnvSnap w v s
  | .tbRead w => Sys2Proof.Machine.execTbRead w s
  | .tmrGo w lo hi => Sys2Proof.Machine.execTmrGo w lo hi s
  | .tmrSnap w lo hi => Sys2Proof.Machine.execTmrSnap w lo hi s
  | .pop w n => Sys2Proof.Machine.execPop w n s
  | .capsw w n => Sys2Proof.Machine.execCapsw w n s
  | .stop w n => Sys2Proof.Machine.execStop w n s
  | .arm w n => Sys2Proof.Machine.execArm w n s
  | .start w n => Sys2Proof.Machine.execStart w n s
  | .periodWrite w n v => Sys2Proof.Machine.execPeriodWrite w n v s
  | .compareWrite w n one v => Sys2Proof.Machine.execCompareWrite w n one v s
  | .domainPowerDown d => Sys2Proof.Machine.execDomainPowerDown d s
  | .domainPowerUp d => Sys2Proof.Machine.execDomainPowerUp d s
  | .cvuInit u => Sys2Proof.Machine.execCvuInit u s
  | .cvuData u width v differ => Sys2Proof.Machine.execCvuData u width v differ s
  | .cvuExpect u v => Sys2Proof.Machine.execCvuExpect u v s
  | .registerWrite w addr v => Sys2Proof.Machine.execRegisterWrite w addr v s
  | .windowStart staged n => Sys2Proof.Machine.execWindowStart staged n s
  | .commit staged n wA wB ask fault stuckA stuckB => Sys2Proof.Machine.execCommit staged n wA wB ask fault stuckA stuckB s
  | .overrun staged n => Sys2Proof.Machine.execOverrun staged n s
  | .holdDeadline staged n => Sys2Proof.Machine.execHoldDeadline staged n s
  | .runAhead staged a => Sys2Proof.Machine.execRunAhead staged a s
  | .migration staged n crcOk => Sys2Proof.Machine.execMigration staged n crcOk s
  | .selfTestEnd e r => Sys2Proof.Machine.execSelfTestEnd e r s
  | .evaluation p bad => Sys2Proof.Machine.execEvaluation p bad s
  | .delayExpiry p site => Sys2Proof.Machine.execDelayExpiry p site s
  | .longDelayExpiry p u => Sys2Proof.Machine.execLongDelayExpiry p u s
  | .refresh p => Sys2Proof.Machine.execRefresh p s
  | .evaluationTimeout p => Sys2Proof.Machine.execEvaluationTimeout p s
  | .mirrorBuild p => Sys2Proof.Machine.execMirrorBuild p s
  | .rewrite p => Sys2Proof.Machine.execRewrite p s
  | .holdAllowance r => Sys2Proof.Machine.execHoldAllowance r s
  | .roomSelfTest p => Sys2Proof.Machine.execRoomSelfTest p s
  | .roomSelfTestEnd p o => Sys2Proof.Machine.execRoomSelfTestEnd p o s
  | .inputChange t mV => Sys2Proof.Machine.execInputChange t mV s
  | .glitchFilter q t => Sys2Proof.Machine.execGlitchFilter q t s
  | .debounce q n => Sys2Proof.Machine.execDebounce q n s
  | .disagree n => Sys2Proof.Machine.execDisagree n s
  | .gateTime q m => Sys2Proof.Machine.execGateTime q m s
  | .periodTimeout q m => Sys2Proof.Machine.execPeriodTimeout q m s
  | .pulseFrame => Sys2Proof.Machine.execPulseFrame s
  | .pulse k pt => Sys2Proof.Machine.execPulse k pt s
  | .overload k low => Sys2Proof.Machine.execOverload k low s
  | .readbackDisagree k minus => Sys2Proof.Machine.execReadbackDisagree k minus s
  | .lineSense q k m => Sys2Proof.Machine.execLineSense q k m s
  | .groupSupply q g mV short => Sys2Proof.Machine.execGroupSupply q g mV short s
  | .oversum g sum => Sys2Proof.Machine.execOversum g sum s
  | .uplinkLaunch => Sys2Proof.Machine.execUplinkLaunch s
  | .uplinkFrame l bad => Sys2Proof.Machine.execUplinkFrame l bad s
  | .frameMissing l => Sys2Proof.Machine.execFrameMissing l s
  | .downlinkFrame => Sys2Proof.Machine.execDownlinkFrame s
  | .downlinkAccept q bad => Sys2Proof.Machine.execDownlinkAccept q bad s
  | .configurationPacket q => Sys2Proof.Machine.execConfigurationPacket q s
  | .resultBlock l c flip => Sys2Proof.Machine.execResultBlock l c flip s
  | .sequencerStop q selfFault => Sys2Proof.Machine.execSequencerStop q selfFault s
  | .peerDead q => Sys2Proof.Machine.execPeerDead q s
  | .gateHold k => Sys2Proof.Machine.execGateHold k s
  | .silence => Sys2Proof.Machine.execSilence s
  | .holdTime k => Sys2Proof.Machine.execHoldTime k s
  | .conversionStart c slice => Sys2Proof.Machine.execConversionStart c slice s
  | .conversionResult c x => Sys2Proof.Machine.execConversionResult c x s
  | .holdBackEnd c => Sys2Proof.Machine.execHoldBackEnd c s
  | .referenceCheck c diff => Sys2Proof.Machine.execReferenceCheck c diff s
  | .stale ch => Sys2Proof.Machine.execStale ch s
  | .supplyMeasurement q mV => Sys2Proof.Machine.execSupplyMeasurement q mV s
  | .switchOff => Sys2Proof.Machine.execSwitchOff s
  | .fieldFall => Sys2Proof.Machine.execFieldFall s
  | .cellarFall => Sys2Proof.Machine.execCellarFall s
  | .startupStep o => Sys2Proof.Machine.execStartupStep o s
  | .domainDownEnd d => Sys2Proof.Machine.execDomainDownEnd d s
  | .domainUpEnd d o => Sys2Proof.Machine.execDomainUpEnd d o s
  | .domainFault d => Sys2Proof.Machine.execDomainFault d s
  | .domainRetry d => Sys2Proof.Machine.execDomainRetry d s
  | .lossOfSignal q => Sys2Proof.Machine.execLossOfSignal q s
  | .relock => Sys2Proof.Machine.execRelock s
  | .disagreement ppm wA wB => Sys2Proof.Machine.execDisagreement ppm wA wB s
  | .woscCheck wosc ppmA ppmB => Sys2Proof.Machine.execWoscCheck wosc ppmA ppmB s
  | .holdupMeasurement ms => Sys2Proof.Machine.execHoldupMeasurement ms s
  | .operatingSecond => Sys2Proof.Machine.execOperatingSecond s
  | .endEvent n differ => Sys2Proof.Machine.execEndEvent n differ s
  | .compare n one => Sys2Proof.Machine.execCompare n one s
  | .fuseBlow r => Sys2Proof.Machine.execFuseBlow r s
  | .programmingWindow mV temp => Sys2Proof.Machine.execProgrammingWindow mV temp s
  | .flushInterval => Sys2Proof.Machine.execFlushInterval s
  | .flushEnd o => Sys2Proof.Machine.execFlushEnd o s
  | .switchover p => Sys2Proof.Machine.execSwitchover p s
  | .processorRestart q ok => Sys2Proof.Machine.execProcessorRestart q ok s
  | .sessionTimeout k => Sys2Proof.Machine.execSessionTimeout k s
  | .challengeTimeout k => Sys2Proof.Machine.execChallengeTimeout k s
  | .lockOutEnd => Sys2Proof.Machine.execLockOutEnd s
  | .loadTimeout => Sys2Proof.Machine.execLoadTimeout s
  | .calibrationTimeout => Sys2Proof.Machine.execCalibrationTimeout s
  | .streamPacket k => Sys2Proof.Machine.execStreamPacket k s
  | .prpSupervision => Sys2Proof.Machine.execPrpSupervision s
  | .hello p => Sys2Proof.Machine.execHello p s
  | .helloReceived p f => Sys2Proof.Machine.execHelloReceived p f s
  | .helloTimeout p => Sys2Proof.Machine.execHelloTimeout p s
  | .lsa => Sys2Proof.Machine.execLsa s
  | .lsaReceived p f => Sys2Proof.Machine.execLsaReceived p f s
  | .lsaAgeOut uid => Sys2Proof.Machine.execLsaAgeOut uid s
  | .routeRecompute => Sys2Proof.Machine.execRouteRecompute s
  | .release k => Sys2Proof.Machine.execRelease k s
  | .sdata p f => Sys2Proof.Machine.execSdata p f s
  | .watchdog k => Sys2Proof.Machine.execWatchdog k s
  | .cdata p f => Sys2Proof.Machine.execCdata p f s
  | .bdata p f => Sys2Proof.Machine.execBdata p f s
  | .sealChange code => Sys2Proof.Machine.execSealChange code s
  | .cover c => Sys2Proof.Machine.execCover c s
  | .ready => Sys2Proof.Machine.execReady s
  | .stateRecompute => Sys2Proof.Machine.execStateRecompute s
  | .agreement n => Sys2Proof.Machine.execAgreement n s
  | .offPulse q n => Sys2Proof.Machine.execOffPulse q n s
  | .sagRideThrough p port => Sys2Proof.Machine.execSagRideThrough p port s
  | .thermalShutdown k low => Sys2Proof.Machine.execThermalShutdown k low s
  | .blockClose c => Sys2Proof.Machine.execBlockClose c s
  | .speedMonitor sea eng => Sys2Proof.Machine.execSpeedMonitor sea eng s
  | .mailboxFrame w bytes => Sys2Proof.Machine.execMailboxFrame w bytes s
  | .arp bytes => Sys2Proof.Machine.execArp bytes s
  | .icmpEcho bytes => Sys2Proof.Machine.execIcmpEcho bytes s
  | .breakpoint e => Sys2Proof.Machine.execBreakpoint e s
  | .charged => Sys2Proof.Machine.execCharged s
  | .safetyLoadWindow p => Sys2Proof.Machine.execSafetyLoadWindow p s

end Sys2Proof.Machine
end

