-- ==== Sys2Proof/Machine/Tick.lean ====
section
/-! DEFINITION. What happens while no command waits: one tick of the timebase (R28, R267, R280, R370). -/

namespace Sys2Proof.Machine

/-- 20 ms after the switch-off FIELD has fallen (R264). -/
def State.fieldBound (s : State) : State :=
  if s.pwr.off && !s.pwr.fieldFell && s.alive && decide (s.pwr.offAt + 4000000 ≤ s.now) then s.fieldDown
  else s

/-- The responses that wait are sent. -/
def State.serveBoxes (s : State) : State := if s.porchUp then s.sendBoxes else s

/-- One tick: the timers step, TB advances, the link ports serve their queues and the responses that wait leave; a
stopped timebase stands still, and only CELLAR's supervision and the porch go on. -/
def State.tick (s : State) : State :=
  if s.ticking then s.tmrTick.servePorts.fieldBound.serveBoxes
  else if s.alive then
    ({ s with pwr := { s.pwr with still := s.pwr.still + 1 } } : State).fieldBound.serveBoxes
  else s

end Sys2Proof.Machine
end

