-- ==== Sys2Proof/Safety.lean ====
section
/-! DEFINITION. What a run of the block is, and what counts as a safe state of the outputs, in the
terms that statements use. -/

namespace Sys2Proof

open Machine

/-- `t` is reached from `s` by `n` steps, none of which stops. -/
def Reaches : Nat → State → State → Prop
  | 0, s, t => s = t
  | n + 1, s, t => ∃ u, step s = .next u ∧ Reaches n u t

/-- A step from `s` goes on. -/
def GoesOn (s : State) : Prop := ∃ t, step s = .next t

/-- The command sent for output `k` is OFF in both copies of the output matrix (R19, R20). -/
def CommandedOff (s : State) (k : Nat) : Prop := s.bothOff k = true

/-- The switches of output `k` are open: its terminal is not in LOAD (Table 2.2). -/
def SwitchesOpen (s : State) (k : Nat) : Prop := (s.fout k).phase ≠ .load

/-! ### The form of the tables -/

/-- The tables of the field side, in canonical form (log 103). -/
def FieldTables (s : State) : Prop :=
  Tab.ok .low s.fld.terms = true ∧ Tab.ok .start s.fld.ins = true ∧ Tab.ok .start s.fld.cnts = true ∧
  Tab.ok .start s.fld.groups = true ∧ Tab.ok .start s.fld.outs = true ∧ Tab.ok .start s.lgc.ins = true ∧
  Tab.ok [] s.lgc.orst = true ∧ Tab.ok .start s.cnv.convs = true ∧ Tab.ok .start s.cnv.chans = true ∧
  Tab.ok .start s.cnv.bufA = true ∧ Tab.ok .start s.cnv.bufB = true ∧ Tab.ok (0, 0, 0) s.cnv.snaps = true

/-- The tables of the logic, in canonical form. -/
def LogicTables (s : State) : Prop :=
  Tab.ok .start s.sea.rooms = true ∧ Tab.ok .none s.sea.imap = true ∧ Tab.ok .start s.eng.engines = true ∧
  Tab.ok none s.eng.insts = true ∧ Tab.ok .zero s.eng.masks = true ∧ Tab.ok .unused s.tmr.timers = true ∧
  Tab.ok .fresh s.tmr.readers = true ∧ Tab.ok .fresh s.cvu = true ∧ Tab.ok FnShow.none s.svc.fns = true

/-- The tables of the store, the power block, the porch and the links, in canonical form. -/
def PorchTables (s : State) : Prop :=
  Tab.ok .empty s.nv.slots = true ∧ Tab.ok .unity s.nv.cal = true ∧ Tab.ok .ready s.pwr.doms = true ∧
  Tab.ok none s.por.sessions = true ∧ Tab.ok .start s.lnk.ports = true ∧ Tab.ok .start s.lnk.prod = true ∧
  Tab.ok .start s.lnk.cons = true ∧ Tab.ok .none s.lnk.control = true

/-- Every numbered table of the state is in canonical form, and no response is held between commands. -/
def Canonical (s : State) : Prop :=
  FieldTables s ∧ LogicTables s ∧ PorchTables s ∧ s.por.hold = false

/-! ### Requests -/

/-- What a request finds that is new to its session (R337, R338): the state with its entry in the cache
of that session, and its operation; outside a session the state as it is, and operation 0. None where
the request is denied, polls, or is lost. -/
def entered (s : State) (h : Hdr) (k : Kind) : Option (State × Nat) :=
  if s.porchUp = false ∨ s.noBox h.session = true then none
  else if h.session = 0 then (if k.level = .observe then some (s, 0) else none)
  else
    match s.session h.session.toNat with
    | none => none
    | some v =>
      if v.takes h k = false then none
      else
        match v.meet h k.opcode (s.por.nextOp + 1) s.tb with
        | .fresh v1 =>
          some (({ s with por := { s.por with nextOp := s.por.nextOp + 1 } }).setSession h.session.toNat
            (some v1), s.por.nextOp + 1)
        | _ => none

/-- The same for a request that the seal, the maintenance loader and the want of a timebase let pass as well
(R333, R343, Table 12.5). -/
def admission (s : State) (h : Hdr) (k : Kind) : Option (State × Nat) :=
  if (k.level = .engineer ∧ s.cfg.sealNow ≠ 0) ∨ (s.inLoader = true ∧ k.loader = false) ∨
      (s.pwr.result = 6 ∧ k.level ≠ .observe) then none
  else entered s h k

/-- A command's own rules have led to `t`: a command that has ended is cached as ended (R338), and the
response is sent (R331). -/
def answer (t : State) (op : Nat) (h : Hdr) (opcode status : Nat) (body : List Byte) : State :=
  (if status = stAccepted then t else t.finish op status body).respond h opcode status body

/-- The bytes of a response, without its check value (Table 16.2). -/
def responseBytes (epoch : Nat) (h : Hdr) (opcode status : Nat) (body : List Byte) : List Byte :=
  respHeader h opcode status epoch body.length ++ body

end Sys2Proof
end

