-- ==== Sys2Proof/Certificates/Slice0/Obligations.lean ====
section
/-! DEFINITION. The statements about this model, for the provers. -/

open Sys2Proof Sys2Proof.Machine

/-! ### Steps, the queue and the whole machine -/

/-- O1. A step runs the command at the front of the queue, on the state with the rest of the queue;
with no command waiting it is one tick (01_architecture.md (R28), 12_power_and_startup.md (R267),
13_timers.md, 16_porch_and_mailboxes.md). -/
def Obligations.StepRunsFrontCommand : Prop :=
  (∀ (c : Instr) (rest : List Instr) (s : State), s.pending = c :: rest →
    step s = exec c { s with pending := rest }) ∧
  (∀ s : State, s.pending = [] → ∃ t, step s = .next t ∧ t.pending = [] ∧
    (s.ticking = true → t.tb = s.tb + 1 ∧ t.nv.rows = s.nv.rows) ∧
    (s.ticking = false → t.tb = s.tb ∧ t.nv.rows = s.nv.rows) ∧ (s.alive = false → t = s))

/-- O2. The model's choice (log entry 2): no step of the block ends in a fault or a refusal of the
model (16_porch_and_mailboxes.md (R333), 12_power_and_startup.md (R268)). -/
def Obligations.EveryStepGoesOn : Prop := ∀ s : State, GoesOn s

/-- O3. No command touches the queue of the commands that wait: a step removes the front one and
nothing else (16_porch_and_mailboxes.md, The mailbox). -/
def Obligations.QueueIsFirstInFirstOut : Prop :=
  ∀ s t : State, step s = .next t → t.pending = s.pending.tail

/-- The fuse array is in canonical form, and every bit of `f` is blown in it. -/
def Sys2Proof.Blown (f : Nat → Word) (s : State) : Prop :=
  Tab.ok .blank s.nv.rows = true ∧
    ∀ w, f w &&& (Tab.get .blank s.nv.rows w).bits = f w

/-- O4. A fuse that is blown stays blown: no step of any kind makes a row of the array lose a bit
(R378, R380, 18_fuse_bank.md). -/
def Obligations.BlownFusesStayBlown : Prop :=
  ∀ (f : Nat → Word) (s t : State), Blown f s → step s = .next t → Blown f t

/-- O5. The state at reset meets the invariant of the fuse array, with the array of a blank device,
and that of the tables (R378, 18_fuse_bank.md). -/
def Obligations.ResetFusesBlown : Prop :=
  Blown (fun w => (Tab.get .blank blankRows w).bits) State.reset ∧ Canonical State.reset

/-- O6. Every command keeps the tables of the state canonical: a step from a state whose tables are
in canonical form leads to such a state (16_porch_and_mailboxes.md (R331, R334), 18_fuse_bank.md
(R378), 01_architecture.md). -/
def Obligations.TablesStayCanonical : Prop :=
  ∀ s t : State, Canonical s → step s = .next t → Canonical t

/-- O7. No command moves TB, but for the start-up that a supply measurement or a processor restart
begins, which sets it to 0 (R28, 12_power_and_startup.md). -/
def Obligations.CommandsKeepTheTimebase : Prop :=
  ∀ (c : Instr) (s t : State), exec c s = .next t →
    t.tb = s.tb ∨ (t.tb = 0 ∧
      ((∃ q mV, c = .supplyMeasurement q mV) ∨ (∃ q ok, c = .processorRestart q ok)))

/-! ### Mailboxes -/

/-- The mailbox request that a command is: its header, how it is judged, and whether its body has
the layout and values that the command takes (Table 16.4). -/
def Sys2Proof.requestOf : Instr → Option (Hdr × Kind × Bool)
  | .identify h b => some (h, observe 0x01 true, b.isEmpty)
  | .getStatus h b => some (h, observe 0x02 true, b.isEmpty)
  | .readRegs h _ => some (h, observe 0x03 true, true)
  | .writeRegs h _ => some (h, observe 0x04 true, true)
  | .sessionOpen h b =>
    let k : Kind :=
      { opcode := 0x10, level := .observe, loader := true, opens := b.head? == some 1#8 }
    some (h, k, true)
  | .sessionClose h b =>
    let k : Kind := { opcode := 0x11, level := .operate, loader := true, opens := false }
    some (h, k, b.isEmpty)
  | .imageBegin h b => some (h, engineer 0x20, b.length == 4)
  | .imageChunk h b => some (h, engineer 0x21, decide (5 ≤ b.length ∧ b.length ≤ 1004))
  | .imageEnd h b => some (h, engineer 0x22, b.isEmpty)
  | .imageValidate h b => some (h, engineer 0x23, b.length == 1)
  | .imageStage h b => some (h, engineer 0x24, b.length == 1)
  | .imageHandover h b => some (h, engineer 0x25, b.length == 1)
  | .imageAbandon h b => some (h, engineer 0x26, b.isEmpty)
  | .functionReset h b => some (h, operate 0x30, b.length == 4)
  | .outputReset h _ => some (h, operate 0x30, true)
  | .functionQuery h b => some (h, observe 0x31 false, b.length == 2)
  | .engineSplit h b => some (h, operate 0x40, b.length == 1)
  | .engineJoin h b => some (h, operate 0x41, b.length == 1)
  | .calZero h b => some (h, operate 0x50, b.length == 1)
  | .calFull h b => some (h, operate 0x51, b.length == 8)
  | .calCommit h b => some (h, operate 0x52, b.length == 1)
  | .calDiscard h b => some (h, operate 0x53, b.length == 1)
  | .recInfo h b => some (h, observe 0x60 true, b.isEmpty)
  | .recRead h b => some (h, observe 0x61 true, recReadShaped b)
  | .recClear h b => some (h, observe 0x62 false, b.isEmpty)
  | .fuseRead h b => some (h, observe 0x70 true, b.isEmpty)
  | .fuseAdvance h b => some (h, engineer 0x71, b.length == 4)
  | .fabricMap h b => some (h, observe 0x80 false, b.length == 4 &&
      (decide (numAt b 0 1 < 64) || numAt b 0 1 == 255) && decide (1 ≤ numAt b 2 1 ∧ numAt b 2 1 ≤ 62))
  | .peerAccept h b => some (h, engineer 0x81, b.length == 8)
  | .peerExpel h b => some (h, engineer 0x82, b.length == 8)
  | .streamOpen h b => some (h, operate 0x90, streamShaped b)
  | .streamClose h b => some (h, operate 0x91, b.length == 1)
  | .debugAttach h b => some (h, engineer 0xA0, debugShaped b)
  | .halt h e => some (h, engineer 0xA0, debugShaped (debugBody e.val 1 0 0 0 []))
  | .resume h e => some (h, engineer 0xA0, debugShaped (debugBody e.val 2 0 0 0 []))
  | .debugStep h e => some (h, engineer 0xA0, debugShaped (debugBody e.val 3 0 0 0 []))
  | .debugRead h e sp a n =>
    some (h, engineer 0xA0, debugShaped (debugBody e.val 4 sp a.toNat n.toNat []))
  | .debugWrite h e sp a d =>
    some (h, engineer 0xA0, debugShaped (debugBody e.val 5 sp a.toNat d.length d))
  | .breakSet h e a n => some (h, engineer 0xA0, debugShaped (debugBody e.val 6 0 a.toNat n.toNat []))
  | .debugDetach h b => some (h, engineer 0xA1, b.length == 1)
  | .firmwareBegin h b => some (h, fwKind 0xB0, b.length == 4)
  | .firmwareChunk h b => some (h, fwKind 0xB1, decide (5 ≤ b.length ∧ b.length ≤ 1004))
  | .firmwareEnd h b => some (h, fwKind 0xB2, b.isEmpty)
  | .firmwareSwitch h b => some (h, fwKind 0xB3, b.isEmpty)
  | _ => none

/-- The session of a request is judged: its cache holds the request's TAG and SEQUENCE, or the SEQUENCE
is above its highest and there is room in the cache (R333 step 3, R338, R339). -/
def Sys2Proof.Judged (v : Session) (h : Hdr) : Prop :=
  (∃ e ∈ v.cache, e.tag = h.tag ∧ e.seq = h.seq) ∨
    ((∀ n, v.highest = some n → n < h.seq.toNat) ∧
      (v.cache.length < 32 ∨ ∃ e ∈ v.cache, e.done.isSome = true))

/-- The request of session `k` that the porch denies at its binding (R335, R337). -/
def Sys2Proof.Denied (s : State) (h : Hdr) (k : Kind) : Prop :=
  if h.session = 0 then k.level ≠ .observe
  else match s.session h.session.toNat with
    | none => True
    | some v => (v.origin ≠ h.origin ∨ (v.challenge.isSome = true ∧ k.opens = false)) ∧ Judged v h

/-- O8. A request without the level, the session or the mailbox that it needs has one effect: the
answer DENIED_LEVEL or BUSY (a foreign binding: log entry 25) (16_porch_and_mailboxes.md (R333,
R334, R335, R337)). -/
def Obligations.NoCommandWithoutItsSession : Prop :=
  ∀ (c : Instr) (h : Hdr) (k : Kind) (b : Bool) (s : State), requestOf c = some (h, k, b) →
    s.porchUp = true →
    (16 ≤ s.por.boxes.length ∨ (h.session ≠ 0 ∧
        8 ≤ (s.por.boxes.filter fun x => x.session == h.session.toNat).length) →
      exec c s = .next (s.respondBare h k.opcode stBusy [])) ∧
    (s.noBox h.session = false → Denied s h k → exec c s = .next (s.respond h k.opcode stLevel []))

/-- O9. An ENGINEER command of an open session is answered DENIED_SEAL while the seal does not read
0x00; after the seal a body of the wrong layout is answered BAD_ARG (16_porch_and_mailboxes.md
(R333, R335), 15_configuration_and_seal.md). -/
def Obligations.SealAndBodyAreJudgedInOrder : Prop :=
  ∀ (c : Instr) (h : Hdr) (k : Kind) (b : Bool) (s s1 : State) (op : Nat),
    requestOf c = some (h, k, b) → entered s h k = some (s1, op) →
    (k.level = .engineer → s.cfg.sealNow ≠ 0 →
      exec c s = .next (answer s1 op h k.opcode stSeal [])) ∧
    ((k.level = .engineer → s.cfg.sealNow = 0) → b = false →
      exec c s = .next (answer s1 op h k.opcode stArg []))

/-- O10. A request whose TAG and SEQUENCE are in its session's cache is answered from it and runs
nothing; one at or below the highest SEQUENCE is LOST (log 25) (16_porch_and_mailboxes.md (R333,
R338, R339, Table 16.11)). -/
def Obligations.RepeatedRequestIsAPoll : Prop :=
  ∀ (c : Instr) (h : Hdr) (k : Kind) (b : Bool) (s : State) (v : Session),
    requestOf c = some (h, k, b) → s.porchUp = true → s.noBox h.session = false → h.session ≠ 0 →
    s.session h.session.toNat = some v →
    (∀ e, v.cache.find? (fun x => x.tag == h.tag && x.seq == h.seq) = some e → v.takes h k = true →
      exec c s = .next ((s.touch h.session.toNat).respond h k.opcode
        (if e.opcode ≠ k.opcode then stArg else (e.done.map Prod.fst).getD stAccepted)
        (if e.opcode ≠ k.opcode then [] else (e.done.map Prod.snd).getD []))) ∧
    (v.cache.find? (fun x => x.tag == h.tag && x.seq == h.seq) = none →
      let s1 := if v.takes h k = true then s.touch h.session.toNat else s
      ((∃ n, v.highest = some n ∧ h.seq.toNat ≤ n) →
        exec c s = .next (s1.respond h k.opcode stLost [])) ∧
      ((∀ n, v.highest = some n → n < h.seq.toNat) → 32 ≤ v.cache.length →
        (∀ e ∈ v.cache, e.done = none) → exec c s = .next (s1.respond h k.opcode stBusy [])))

/-- O11. A response echoes OPCODE, SESSION, TAG and SEQUENCE, carries the epoch and a CRC-32C over
header and body, and changes nothing else (16_porch_and_mailboxes.md (R328, R330, R331, R334, Table
16.2), 14_check_values.md). -/
def Obligations.ResponseMailbox : Prop :=
  ∀ (t : State) (op : Nat) (h : Hdr) (opcode status : Nat) (body : List Byte),
    let m := be16 opcode ++ [BitVec.ofNat 8 status, BitVec.ofNat 8 (128 + 64 * b2n h.staged),
      h.session, BitVec.ofNat 8 t.por.epoch] ++ be32 h.tag.toNat ++ be32 h.seq.toNat ++
      be16 body.length ++ body
    let r := answer t op h opcode status body
    let out := fun b => Sent.mailbox h.origin b
    ∀ wire : List Byte,
    (∀ ip p, h.origin = .udp ip p → wire = m ++ be32 (crc32c m)) →
    (h.origin = .usb → wire = 0x7E#8 :: stuff (0#8 :: (m ++ be32 (crc32c m))) ++ [0x7E#8]) →
    (t.unit (procUnit t.por.active)).upset = 0 → t.por.prp = false → Tab.ok .fresh t.cvu = true →
    (t.por.hold = false → r.sent = t.sent ++ t.por.boxes.map Box.out ++ [out wire] ∧ r.por.boxes = []) ∧
    (t.por.hold = true → r.sent = t.sent ∧
      r.por.boxes = t.por.boxes ++ [{ session := h.session.toNat, out := out wire }]) ∧
    r = { t with sent := r.sent, cvu := r.cvu,
                 por := { t.por with sessions := r.por.sessions, ops := r.por.ops,
                                     boxes := r.por.boxes } } ∧
    (∀ u, u ≠ procUnit t.por.active → r.unit u = t.unit u) ∧
    (status = stAccepted → r.por = { t.por with boxes := r.por.boxes })

/-- O12. A new request of a session takes a place in its cache, raises its highest SEQUENCE, and
changes nothing else (16_porch_and_mailboxes.md (R338, R339)). -/
def Obligations.NewRequestEntersTheCache : Prop :=
  ∀ (s s1 : State) (h : Hdr) (k : Kind) (op : Nat), entered s h k = some (s1, op) →
    Tab.ok none s.por.sessions = true →
    (h.session = 0 → s1 = s ∧ op = 0 ∧ k.level = .observe) ∧
    (h.session ≠ 0 → op = s.por.nextOp + 1 ∧
      (∃ v w, s.session h.session.toNat = some v ∧ s1.session h.session.toNat = some w ∧
        v.origin = h.origin ∧
        w = { v with highest := some h.seq.toNat, cache := w.cache, lastAt := s.tb } ∧
        let e : CacheEntry := { tag := h.tag, seq := h.seq, opcode := k.opcode, done := none, op := op }
        (v.cache.length < 32 → w.cache = e :: v.cache) ∧
        (32 ≤ v.cache.length → ∃ (old new : List CacheEntry) (x : CacheEntry),
          v.cache = new ++ x :: old ∧ x.done.isSome = true ∧ (∀ y ∈ old, y.done = none) ∧
          (v.cache.Nodup → w.cache = e :: (new ++ old))) ∧
        (v.cache.length ≤ 32 → w.cache.length ≤ 32)) ∧
      (∀ n, n ≠ h.session.toNat → s1.session n = s.session n) ∧
      s1 = { s with por := { s.por with sessions := s1.por.sessions, nextOp := op } })

/-- A mailbox request as it travels, with its check value. -/
def Sys2Proof.requestFrame (opcode : Nat) (h : Hdr) (body : List Byte) : List Byte :=
  let b := be16 opcode ++ [0#8, BitVec.ofNat 8 (64 * b2n h.staged), h.session, h.epoch] ++
    be32 h.tag.toNat ++ be32 h.seq.toNat ++ be16 body.length ++ body
  b ++ be32 (crc32c b)

/-- What brings frame `b` from `o`: a datagram, or a service-port frame on channel 0 with its escapes. -/
def Sys2Proof.carried (o : Origin) (b : List Byte) : List Byte :=
  match o with
  | .udp _ _ => b
  | .usb => stuff (0#8 :: b)

/-- How it comes: untagged, whole, to the mailbox port, without a PRP trailer. -/
def Sys2Proof.mailWire (o : Origin) (held : Bool) : Wire :=
  { origin := o, port := 39500#16, tagged := false, fragment := false, trailer := none, held := held }

/-- The frame has run: failed units are charged, and no response is held. -/
def Sys2Proof.taken (t : State) : State :=
  { t.chargeUnits with por := { t.chargeUnits.por with hold := false } }

/-- O13. MAILBOX_FRAME with a sound frame runs the command of its OPCODE, by a host port or the
service port; one of a wrong length or check is discarded and counted (16_porch_and_mailboxes.md
(R328, R330, R331, R332, R333, Table 16.2), 14_check_values.md). -/
def Obligations.MailboxFrameRunsItsCommand : Prop :=
  (∀ (o : Origin) (held : Bool) (s : State), s.porchUp = true → s.por.hold = false →
    (s.unit (procUnit s.por.active)).upset = 0 → Tab.ok .fresh s.cvu = true →
    (∀ u < 19, (s.unit u).due = false) →
    (∀ (opcode : Nat) (h : Hdr) (body : List Byte), opcode < 65536 → body.length ≤ 1004 →
      h.origin = o → ∃ s1, s1 = { s with cvu := s1.cvu, por := { s.por with hold := held } } ∧
        (∀ u, u ≠ procUnit s.por.active → s1.unit u = s.unit u) ∧
        (s.noBox h.session = false →
          (∀ f, commandOf opcode h body = some f →
            exec (.mailboxFrame (mailWire o held) (carried o (requestFrame opcode h body))) s =
              .next (taken (nextState (f s1) s1))) ∧
          (commandOf opcode h body = none →
            exec (.mailboxFrame (mailWire o held) (carried o (requestFrame opcode h body))) s =
              .next (taken (s1.respondBare h opcode stFrame [])))) ∧
        (s.noBox h.session = true →
          exec (.mailboxFrame (mailWire o held) (carried o (requestFrame opcode h body))) s =
            .next (taken (s1.respondBare h opcode stBusy [])))) ∧
    (∀ b : List Byte, b.length < 20 ∨ b.length ≠ 20 + numAt b 14 2 ∨ 1004 < numAt b 14 2 →
      exec (.mailboxFrame (mailWire o held) (carried o b)) s =
        .next { s with por := { s.por with crcerr := min 0xFFFF (s.por.crcerr + 1) } }) ∧
    (∀ b : List Byte, b.length = 20 + numAt b 14 2 → numAt b 14 2 ≤ 1004 →
      numAt b (16 + numAt b 14 2) 4 ≠ crc32c (b.take (16 + numAt b 14 2)) →
      ∃ t, exec (.mailboxFrame (mailWire o held) (carried o b)) s = .next t ∧
        t = { s with cvu := t.cvu, por := { s.por with crcerr := min 0xFFFF (s.por.crcerr + 1) } } ∧
        ∀ u, u ≠ procUnit s.por.active → t.unit u = s.unit u) ∧
    (∀ b : List Byte, unstuff b = none → exec (.mailboxFrame (mailWire .usb held) b) s =
        .next { s with por := { s.por with crcerr := min 0xFFFF (s.por.crcerr + 1) } })) ∧
  (∀ (w : Wire) (b : List Byte) (s : State) (ip : Word) (p : Half), w.origin = .udp ip p →
    w.tagged = true ∨ w.fragment = true ∨ w.port ≠ 39500#16 → exec (.mailboxFrame w b) s = .next s) ∧
  (∀ bs : List Byte, unstuff (stuff bs) = some bs ∧ 0x7E#8 ∉ stuff bs) ∧
  (∀ bs : List Byte, unstuff (stuff bs ++ [0x7D#8]) = none) ∧
  (∀ (bs rest : List Byte) (c : Byte), c ≠ 0x5E#8 → c ≠ 0x5D#8 →
    unstuff (stuff bs ++ 0x7D#8 :: c :: rest) = none)

/-- O14. IDENTIFY, GET_STATUS, FUNCTION_QUERY, REC_INFO, REC_READ, FUSE_READ and FABRIC_MAP each
complete: OK, the body of their table byte by byte, nothing changed (16_porch_and_mailboxes.md
(R343, Tables 16.4, 16.6, 16.7, 16.8), 19_recorder.md, 18_fuse_bank.md, 17_fabric.md). -/
def Obligations.ObserveCommandsAnswer : Prop :=
  ∀ (s s1 : State) (h : Hdr) (op : Nat),
    (admission s h (observe 0x01 true) = some (s1, op) → exec (.identify h []) s = .next
      (answer s1 op h 0x01 stOk (be32 0x9664 ++ wordBytes s1.devStep ++ be64 s1.uid ++
        wordBytes (if s1.procIn .a then (s1.bankOf .a).version else 0) ++
        wordBytes (if s1.procIn .b then (s1.bankOf .b).version else 0) ++
        [if s1.procIn .a then BitVec.ofNat 8 (s1.bankOf .a).rollback else 0#8,
         if s1.procIn .b then BitVec.ofNat 8 (s1.bankOf .b).rollback else 0#8,
         BitVec.ofNat 8 s1.rollback, BitVec.ofNat 8 (b2n s1.inLoader + 2 * b2n s1.por.prp)] ++
        s1.mac 0 ++ s1.mac 1 ++ s1.por.h1.take 4 ++ s1.por.h2.take 4 ++
        (match s1.img false with
          | some m => be32 m.hdr.gen ++ m.hdr.name
          | none => be32 0 ++ List.replicate 32 0#8)))) ∧
    (admission s h (observe 0x02 true) = some (s1, op) → exec (.getStatus h []) s = .next
      (answer s1 op h 0x02 stOk (wordBytes s1.devStatus ++
        (if s1.inLoader then List.replicate 32 0#8
          else wordBytes s1.svc.word ++ wordBytes s1.svcInv0 ++ wordBytes s1.svcInv1 ++
            wordBytes s1.svcInv2 ++ wordBytes s1.svcInv3 ++ wordBytes s1.shedWord ++ be64 s1.tb) ++
        be32 s1.pwr.opsec ++ be32 (s1.pwr.cycles % 2 ^ 24) ++ wordBytes s1.startWord ++
        (if s1.inLoader then List.replicate 12 0#8
          else wordBytes s1.stageWord ++ wordBytes s1.ostat ++ be32 s1.svc.change) ++
        (match s1.newestRec with | some r => be32 r.seq | none => be32 0) ++
        [BitVec.ofNat 8 (128 * sideNat s1.por.active +
          16 * (s1.proc (otherSide s1.por.active)).st.otherCode), BitVec.ofNat 8 s1.por.epoch,
         BitVec.ofNat 8 s1.openSessions.length,
          BitVec.ofNat 8 (1 + s1.por.boxes.length),
         BitVec.ofNat 8 (b2n (s1.stream 0).isSome + 2 * b2n (s1.stream 1).isSome +
           4 * b2n (s1.stream 2).isSome + 8 * b2n (s1.stream 3).isSome), 0#8] ++
        be16 (min 0xFFFF s1.por.crcerr)))) ∧
    (∀ m i a b, admission s h (observe 0x31 false) = some (s1, op) → s1.img h.staged = some m →
      s1.instImg h.staged (numAt [a, b] 0 2) = some i →
      exec (.functionQuery h [a, b]) s = .next (answer s1 op h 0x31 stOk
        (wordBytes (s1.svcFn h.staged i.num) ++ wordBytes (s1.svcWhy h.staged i.num) ++
          wordBytes (s1.engInst h.staged i.num) ++
          [BitVec.ofNat 8 i.type, BitVec.ofNat 8 (m.owned i.num).length, 0#8, 0#8] ++
          be32 ((match s1.inst h.staged i.num with | some v => v.lastWin | none => 0) % 2 ^ 32) ++
          (m.owned i.num).flatMap fun t => match m.trigs[t]? with
            | none => []
            | some x => [BitVec.ofNat 8 t, BitVec.ofNat 8 (bf x.word 31 28), BitVec.ofNat 8 x.sense,
                0#8] ++ (if bf x.word 31 28 = 2 then wordBytes x.thr else be32 0)))) ∧
    (∀ m x a b, admission s h (observe 0x31 false) = some (s1, op) → s1.img h.staged = some m →
      s1.instImg h.staged (numAt [a, b] 0 2) = none →
      m.sfuncs.find? (fun y => y.num == numAt [a, b] 0 2) = some x →
      exec (.functionQuery h [a, b]) s = .next (answer s1 op h 0x31 stOk
        (wordBytes (s1.svcFn h.staged x.num) ++ wordBytes (s1.svcWhy h.staged x.num) ++ be32 0 ++
          [0#8, BitVec.ofNat 8 x.rooms.length, 0#8, 0#8] ++ be32 0 ++
          x.rooms.map (BitVec.ofNat 8)))) ∧
    (admission s h (observe 0x60 true) = some (s1, op) → exec (.recInfo h []) s = .next
      (answer s1 op h 0x60 stOk (be32 s1.nv.found.length ++
        (match s1.circRead with | r :: _ => be32 r.seq | [] => be32 0) ++
        (match s1.circRead.getLast? with | some r => be32 r.seq | none => be32 0) ++
        be32 s1.nv.lastClr ++ be32 s1.rcd.buf.length))) ∧
    (∀ q n, admission s h (observe 0x61 true) = some (s1, op) → 1 ≤ q → q < 2 ^ 32 → 1 ≤ n → n ≤ 15 →
      let l := s1.recRead q n
      let bad := l.filter fun r => (s1.nv.found.contains r || s1.nv.circ.contains r) &&
        r.crc != crc32c r.bytes
      exec (.recRead h (be32 q ++ [BitVec.ofNat 8 n])) s =
        .next (answer { s1 with rcd := { s1.rcd with
            readErr := min 0xFFFF (s1.rcd.readErr + bad.length) } } op h 0x61 stOk
          ([BitVec.ofNat 8 l.length, 0#8, 0#8, 0#8] ++ l.flatMap fun r => r.bytes ++ be32 r.crc))) ∧
    (admission s h (observe 0x70 true) = some (s1, op) → ∃ marg, marg.length = 16 ∧
      (∀ w < 128, (beNat marg).testBit w = decide (Tab.get 0#32 s1.fus.marg w ≠ 0)) ∧
      exec (.fuseRead h []) s = .next (answer s1 op h 0x70 stOk
        ((List.range 128).flatMap (fun w => wordBytes (Tab.get 0#32 s1.fus.shadow w)) ++ marg ++
          [BitVec.ofNat 8 s1.nv.sparesUsed]))) ∧
    (∀ f a n, admission s h (observe 0x80 false) = some (s1, op) → (f < 64 ∨ f = 255) → a < 256 →
      1 ≤ n → n ≤ 62 →
      let fab := if f = 255 then (match s1.fab with | some g => g.fabric | none => 0) else f
      let l := ((s1.mapNodes fab).filter fun x => decide (a ≤ x.1 % 256)).take n
      exec (.fabricMap h [BitVec.ofNat 8 f, BitVec.ofNat 8 a, BitVec.ofNat 8 n, 0#8]) s =
        .next (answer s1 op h 0x80 stOk ([BitVec.ofNat 8 l.length, 0#8, 0#8, 0#8] ++
          l.flatMap fun x => be64 x.2 ++ be16 (x.1 % 0x4000) ++
            (if x.1 < 0x8000 then
              [BitVec.ofNat 8 (s1.peerState x.2), BitVec.ofNat 8 (s1.hopsTo false x.2),
               BitVec.ofNat 8 (s1.portsTo false x.2),
               BitVec.ofNat 8 (b2n (match s1.lsaOf x.2 with | some v => v.taint | none => false) +
                 (match s1.fab with
                   | some g => 2 * b2n (x.1 == addrOf g.fabric g.master) +
                       4 * b2n (x.1 == addrOf g.fabric g.standby)
                   | none => 0))]
            else
              [BitVec.ofNat 8 (if s1.nv.expel.contains x.2 then 3
                 else if s1.nv.accept.contains x.2 then 1 else 2),
               BitVec.ofNat 8 (s1.hopsTo true x.2), BitVec.ofNat 8 (s1.portsTo true x.2),
               BitVec.ofNat 8 (b2n (match s1.lnk.roof.find? fun v => v.uid == x.2 with
                   | some v => v.taint | none => false) +
                 (match s1.fab with
                   | some _ => 2 * b2n (x.1 % 256 == 0) + 4 * b2n (x.1 % 256 == 1)
                   | none => 0))]) ++ [0#8, 0#8])))

/-! ### Sessions, streams, the host ports -/

/-- O15. SESSION_OPEN: phase 0 assigns the lowest free number and a nonce, phase 1 judges the MAC;
SESSION_CLOSE and the three timeouts end what they name (16_porch_and_mailboxes.md (R336, R337)). -/
def Obligations.SessionsOpenAndEnd : Prop :=
  (∀ (s s1 : State) (h : Hdr) (op : Nat), s.por.lockedAt = none →
     (∀ n, h.session = 0 → admission s h (observe 0x10 true) = some (s1, op) → 1 ≤ n → n ≤ 8 →
       s.session n = none → (∀ j, 1 ≤ j → j < n → (s.session j).isSome = true) →
       let nonce := beBytes 16 (Config.nonce s.free).toNat
       let v : Session :=
         { origin := h.origin, challenge := some (nonce, s.tb), highest := none, cache := [],
           lastAt := s.tb }
       exec (.sessionOpen h [0#8]) s = .next (answer ({ s with free := s.free + 1 }.setSession n (some v))
         op h 0x10 stOk ([BitVec.ofNat 8 n, 0#8, 0#8, 0#8] ++ nonce))) ∧
     (∀ v c mac a b d, mac.length = 32 → s1.session h.session.toNat = some v →
       v.challenge = some c → h.session ≠ 0 →
       admission s h { observe 0x10 true with opens := true } = some (s1, op) →
       let opened := s1.setSession h.session.toNat (some { v with challenge := none, lastAt := s1.tb })
       let good := hmac256 s1.por.secret (c.1 ++ be64 s1.uid ++ [BitVec.ofNat 8 h.session.toNat])
       let set := ¬(s1.por.secret.all (fun x => x == 0#8) = true)
       (set → mac = good → exec (.sessionOpen h ([1#8, a, b, d] ++ mac)) s =
         .next (answer opened op h 0x10 stOk [])) ∧
       (set → mac ≠ good → exec (.sessionOpen h ([1#8, a, b, d] ++ mac)) s =
         .next (answer (s1.failMac h.session.toNat h.origin) op h 0x10 stLevel [])) ∧
       (¬set → s1.cfg.sealNow = 0 → exec (.sessionOpen h ([1#8, a, b, d] ++ mac)) s =
         .next (answer opened op h 0x10 stOk [])) ∧
       (¬set → s1.cfg.sealNow ≠ 0 → exec (.sessionOpen h ([1#8, a, b, d] ++ mac)) s =
         .next (answer s1 op h 0x10 stSeal [])))) ∧
  (∀ (s s1 : State) (h : Hdr) (op : Nat),
    admission s h { operate 0x11 with loader := true } = some (s1, op) →
    exec (.sessionClose h []) s =
      .next (answer (s1.closeSession h.session.toNat) op h 0x11 stOk [])) ∧
  (∀ (s : State) (k : Fin 8) (v : Session), s.porchUp = true → s.session (k.val + 1) = some v →
    v.challenge = none → v.lastAt + 120000000000 ≤ s.tb →
    (∀ e ∈ s.por.streams, e.2.map Stream.session ≠ some (k.val + 1)) →
    exec (.sessionTimeout k) s = .next (s.closeSession (k.val + 1))) ∧
  (∀ (s : State) (k : Fin 8) (v : Session) (c : List Byte × Nat), s.porchUp = true →
    s.session (k.val + 1) = some v → v.challenge = some c → c.2 + 2000000000 ≤ s.tb →
    exec (.challengeTimeout k) s = .next (s.setSession (k.val + 1) none)) ∧
  (∀ (s : State) (t : Nat), s.alive = true → s.por.lockedAt = some t → t + 12000000000 ≤ s.tb →
    exec .lockOutEnd s = .next { s with por := { s.por with lockedAt := none } }) ∧
  (∀ (s : State) (k : Nat), Tab.ok none s.por.sessions = true →
    (s.closeSession k).session k = none ∧
    (∀ j, j ≠ k → (s.closeSession k).session j = s.session j) ∧
    (∀ l, (s.closeSession k).cfg.load = some l ↔ s.cfg.load = some l ∧ l.session ≠ k) ∧
    (∀ c, (s.closeSession k).cnv.cal = some c ↔ s.cnv.cal = some c ∧ c.session ≠ k) ∧
    (∀ e, e ∈ (s.closeSession k).por.streams ↔
      e ∈ s.por.streams ∧ e.2.map Stream.session ≠ some k) ∧
    (s.closeSession k).cfg.image = s.cfg.image ∧ (s.closeSession k).cfg.staged = s.cfg.staged)

/-- O16. STREAM_OPEN takes the lowest free stream within the rate, STREAM_CLOSE frees it,
STREAM_PACKET sends up to 340 entries; ARP, ICMP and PRP frames answer (16_porch_and_mailboxes.md
(R328, R330, R351, Table 16.10)). -/
def Obligations.StreamsOpenSendAndClose : Prop :=
  (∀ (s s1 : State) (h : Hdr) (op k : Nat) (body : List Byte) (d : Origin),
    admission s h (operate 0x90) = some (s1, op) → streamShaped body = true →
    streamDest h (numAt body 1 1 == 1) (numAt body 2 2) = some d → k < 4 →
    s1.stream k = none → (∀ j, j < k → (s1.stream j).isSome = true) →
    s1.rateSum (numAt body 1 1 == 1) +
      s1.rateOf (numAt body 0 1) (numAt body 4 1) (numAt body 6 2) ≤
      (if numAt body 1 1 = 1 then 800000 else 60000000) →
    let x : Stream :=
      { session := h.session.toNat, conv := numAt body 0 1, usb := numAt body 1 1 == 1, dest := d,
        mask := numAt body 4 1, dec := numAt body 6 2, seen := 0, packet := 0, dropped := 0,
        queue := [] }
    exec (.streamOpen h body) s =
      .next (answer (s1.setStream k (some x)) op h 0x90 stOk [BitVec.ofNat 8 k])) ∧
  (∀ (s s1 : State) (h : Hdr) (op k : Nat), admission s h (operate 0x91) = some (s1, op) → k < 4 →
    (s1.stream k).isSome = true →
    exec (.streamClose h [BitVec.ofNat 8 k]) s =
      .next (answer (s1.setStream k none) op h 0x91 stOk [])) ∧
  (∀ (s : State) (k : Fin 4) (x : Stream) (e : StreamEntry), s.porchUp = true →
    s.stream k.val = some x → x.queue.head? = some e →
    (340 ≤ x.queue.length ∨ e.wrote + 200000 ≤ s.tb) →
    let y := { x with packet := (x.packet + 1) % 2 ^ 32, queue := x.queue.drop 340 }
    let es := x.queue.take 340
    let b := [0x53#8, BitVec.ofNat 8 k.val] ++ be16 es.length ++ be32 x.packet ++ be32 e.seq ++
      be64 e.tick ++ be32 x.dropped ++ es.flatMap fun q => wordBytes q.word
    let p := b ++ be32 (crc32c b)
    exec (.streamPacket k) s = .next (({ s with
      por := { s.por with streams := Tab.set none s.por.streams k.val (some y) } } : State).post
        (.stream 39501 x.dest (match x.dest with
          | .udp _ _ => p
          | .usb => 0x7E#8 :: stuff (1#8 :: p) ++ [0x7E#8])))) ∧
  (∀ s : State, s.porchUp = true →
    (∀ ip front, front.length = 24 → front.take 8 = [0#8, 1#8, 8#8, 0#8, 6#8, 4#8, 0#8, 1#8] →
      ip.length = 4 → (ip = s.por.h1.take 4 ∨ ip = s.por.h2.take 4) →
      exec (.arp (front ++ ip)) s = .next (s.post (.arpReply ip))) ∧
    (∀ rest, 4 ≤ rest.length →
      let m (type : Byte) := [type, 0#8] ++ be16 (inetSum ([type, 0#8, 0#8, 0#8] ++ rest)) ++ rest
      exec (.icmpEcho (m 8#8)) s = .next (s.post (.echoReply (m 0#8)))) ∧
    (s.por.prp = true → s.por.prpAt + 400000000 ≤ s.tb → exec .prpSupervision s =
      .next (({ s with por := { s.por with prpAt := s.tb } } : State).post .prpSupervision))) ∧
  (∀ (s : State) (x : Sent),
    (s.por.prp = false ∨ x.onHost = false → s.post x = { s with sent := s.sent ++ [x] }) ∧
    (s.por.prp = true → x.onHost = true → s.post x =
      { s with sent := s.sent ++ [x, .trailer s.por.prpSeq]
               por := { s.por with prpSeq := (s.por.prpSeq + 1) % 65536 } }))

/-! ### Images, configuration and the seal -/

/-- O17. IMAGE_BEGIN empties the slot, IMAGE_CHUNK writes exactly its bytes at its offset, IMAGE_END
makes the slot LOADED (15_configuration_and_seal.md (R311, R312, Table 15.5)). -/
def Obligations.ImageLoadsKeepTheSlotMemory : Prop :=
  ∀ (s s1 : State) (h : Hdr) (op : Nat),
    (∀ len, admission s h (engineer 0x20) = some (s1, op) → len ≤ 8388608 → s1.cfg.load = none →
      s1.cfg.running = none →
      let k := if s1.cfg.image.isSome then 1 - s1.cfg.slot else 1 - s1.nv.active
      (s1.slot k).st ≠ .staged →
      let l : Load :=
        { session := h.session.toNat, slot := k, len := len, next := 0, lastAt := s1.tb }
      exec (.imageBegin h (be32 len)) s = .next (answer ({ s1 with
        cfg := { s1.cfg with load := some l } }.setSlot k
          { st := .loading, mem := [], len := 0 }) op h 0x20 stOk [BitVec.ofNat 8 k])) ∧
    (∀ l data, admission s h (engineer 0x21) = some (s1, op) → s1.cfg.load = some l →
      l.session = h.session.toNat → 1 ≤ data.length → data.length ≤ 1000 →
      l.next + data.length ≤ l.len → l.next < 2 ^ 32 → Tab.ok .empty s1.nv.slots = true →
      (s1.slot l.slot).mem.wf = true →
      ∃ t m, exec (.imageChunk h (be32 l.next ++ data)) s = .next (answer t op h 0x21 stOk []) ∧
        t.slot l.slot = { s1.slot l.slot with mem := m } ∧ m.wf = true ∧
        (∀ a, l.next ≤ a ∧ a < l.next + data.length → m.read a = nth data (a - l.next) 0) ∧
        (∀ a, ¬(l.next ≤ a ∧ a < l.next + data.length) → m.read a = (s1.slot l.slot).mem.read a) ∧
        (∀ k, k ≠ l.slot → t.slot k = s1.slot k) ∧
        t = { s1 with nv := { s1.nv with slots := t.nv.slots }
                      cfg := { s1.cfg with load := some { l with next := l.next + data.length
                                                                 lastAt := s1.tb } } }) ∧
    (∀ l off data, admission s h (engineer 0x21) = some (s1, op) → s1.cfg.load = some l →
      l.session = h.session.toNat → 1 ≤ data.length → data.length ≤ 1000 → off < 2 ^ 32 →
      off + data.length ≤ l.next → l.next ≤ l.len →
      (s1.slot l.slot).mem.readList off data.length = data →
      exec (.imageChunk h (be32 off ++ data)) s = .next (answer { s1 with
        cfg := { s1.cfg with load := some { l with lastAt := s1.tb } } } op h 0x21 stOk [])) ∧
    (∀ l, admission s h (engineer 0x22) = some (s1, op) → s1.cfg.load = some l →
      l.session = h.session.toNat → l.next = l.len →
      exec (.imageEnd h []) s = .next (answer ({ s1 with cfg := { s1.cfg with load := none } }.setSlot
        l.slot { s1.slot l.slot with st := .loaded, len := l.len }) op h 0x22 stOk []))

/-- O18. IMAGE_VALIDATE starts a run that VALIDATION_DONE ends with the verdict: the slot VALID or
INVALID, a record, the status (15_configuration_and_seal.md (R313, Table 15.6), 14_check_values.md
(R301)). -/
def Obligations.ValidationRuns : Prop :=
  (∀ (s s1 : State) (h : Hdr) (op k : Nat), admission s h (engineer 0x23) = some (s1, op) → k < 2 →
    (s1.slot k).st ∈ [SlotSt.loaded, .valid, .invalid] → s1.cfg.running = none →
    exec (.imageValidate h [BitVec.ofNat 8 k]) s = .next (answer { s1 with cfg := { s1.cfg with
      running := some (k, op), valSect := noSect, valSlot := k, valStep := 0, valResult := 5 } }
      op h 0x23 stAccepted [])) ∧
  (∀ (s : State) (k op : Nat), s.alive = true → s.cfg.running = some (k, op) →
    let r := s.verdict (s.slotBytes k) (s.slot k).len
    let v := r.2
    let st := verdictStatus v.1
    let u := ({ r.1 with cfg := { r.1.cfg with running := none, valSect := v.2, valSlot := k,
                                               valStep := v.1, valResult := st.2 } }).setSlotSt k
      (if v.1 = 0 then .valid else .invalid)
    r.1 = { s with cvu := r.1.cvu, rcd := r.1.rcd } ∧
    exec .validationDone s = .next ((u.record 0x0A03 1 ([BitVec.ofNat 8 k] ++ wordBytes u.valWhy ++
      be32 (parseHeader (s.slotBytes k)).gen)).finish op st.1 (wordBytes u.valWhy))) ∧
  (∀ (s : State) (bs : List Byte) (len : Nat), let n := (s.verdict bs len).2.1
    n ≤ 8 ∧ (n = 0 ∨ 3 < n → s.signatureOk bs = true) ∧ (n = 0 ∨ 4 < n → s.cfg.sealNow = 0) ∧
    (n = 0 ∨ 5 < n → ∀ m, s.cfg.image = some m → m.hdr.gen < (parseHeader bs).gen))

/-- O19. IMAGE_STAGE places a VALID image that fits; READY marks it when the shadow clock reaches
SHADOW; IMAGE_ABANDON and 600 s end loads and stagings (15_configuration_and_seal.md (R312, R320,
R322, R323)). -/
def Obligations.StagingReadinessAndAbandonment : Prop :=
  (∀ (s s1 : State) (h : Hdr) (op k : Nat) (m : Image), admission s h (engineer 0x24) = some (s1, op) →
    k < 2 → (s1.slot k).st = .valid → s1.cfg.staged = none → s1.busy = false →
    s1.cfg.running = none → s1.slotImage k = some m → s1.eng.thresh = 0 → s1.spareOk m = true →
    s1.fitOk m = true → ∃ t, (s1.imageStage k op).1 = t ∧ t.cfg.staged = some m ∧
      t.cfg.stagedSlot = k ∧ t.cfg.clock0 = s1.pwr.opsec ∧ t.cfg.ready = false ∧
      t.cfg.image = s1.cfg.image ∧ t.cfg.slot = s1.cfg.slot ∧
      (Tab.ok .empty s1.nv.slots = true → (t.slot k).st = .staged ∧
        ∀ j, j ≠ k → t.slot j = s1.slot j) ∧
      exec (.imageStage h [BitVec.ofNat 8 k]) s = .next (answer t op h 0x24 stAccepted [])) ∧
  (∀ (s : State) (m : Image), s.alive = true → s.cfg.staged = some m →
    m.hdr.shadow ≤ s.pwr.opsec - s.cfg.clock0 →
    exec .ready s = .next { s with cfg := { s.cfg with ready := true } }) ∧
  (∀ (s s1 : State) (h : Hdr) (op : Nat) (l : Load), admission s h (engineer 0x26) = some (s1, op) →
    s1.cfg.load = some l → l.session = h.session.toNat → exec (.imageAbandon h []) s =
      .next (answer ({ s1 with cfg := { s1.cfg with load := none } }.setSlot l.slot .empty) op h 0x26
        stOk [])) ∧
  (∀ (s s1 : State) (h : Hdr) (op : Nat), admission s h (engineer 0x26) = some (s1, op) →
    s1.cfg.load = none →
    s1.cfg.staged.isSome = true →
    ∃ t, exec (.imageAbandon h []) s = .next (answer t op h 0x26 stOk []) ∧
      t = s1.endStage .abandon ∧ t.cfg.staged = none ∧ t.cfg.ended = .abandon ∧
      t.cfg.handover = none ∧ t.cfg.image = s1.cfg.image ∧ t.cfg.slot = s1.cfg.slot ∧
      (Tab.ok .empty s1.nv.slots = true → (t.slot s1.cfg.stagedSlot).st = .valid)) ∧
  (∀ (s : State) (l : Load), s.cfg.load = some l → s.alive = true →
    l.lastAt + 120000000000 ≤ s.tb → exec .loadTimeout s =
      .next ({ s with cfg := { s.cfg with load := none } }.setSlot l.slot .empty))

/-- O20. IMAGE_HANDOVER is accepted for the next hyper-period; HANDOVER_COMMIT makes the staged
image run, or is refused by the seal or by outputs that bump (15_configuration_and_seal.md (R324,
R325, R326), 17_fabric.md (R362), 05_evaluation_engines.md). -/
def Obligations.HandOver : Prop :=
  (∀ (s s1 : State) (h : Hdr) (op : Nat) (b : Byte) (m : Image),
    admission s h (engineer 0x25) = some (s1, op) → s1.cfg.staged = some m →
    (s1.cfg.ready = true ∨ m.hdr.shadow ≤ s1.pwr.opsec - s1.cfg.clock0) → s1.cfg.handover = none →
    s1.busy = false → ∃ n, n % 1600000 = 10000 ∧ s1.tb + 210000 ≤ n ∧ n < s1.tb + 1810000 ∧
      exec (.imageHandover h [b]) s = .next (answer { s1 with cfg := { s1.cfg with
        handover := some { force := b.getLsbD 0, op := op, at_ := n } } } op h 0x25 stAccepted [])) ∧
  (∀ (s : State) (o : Handover) (m : Image), s.cfg.handover = some o → s.cfg.staged = some m →
    o.at_ ≤ s.tb → s.ticking = true →
    let gen := (s.cfg.image.map fun i => i.hdr.gen).getD 0
    let stay := { s with cfg := { s.cfg with handover := none } }
    let nb := s.bumps o.force
    (s.cfg.sealNow ≠ 0 → exec .handoverCommit s =
      .next ((stay.handoverRecord gen m.hdr.gen stSeal o.force).finish o.op stSeal)) ∧
    (s.cfg.sealNow = 0 → nb ≠ 0 → exec .handoverCommit s =
      .next (({ stay with cfg := { stay.cfg with lastnb := nb } }.handoverRecord gen m.hdr.gen stBump
        o.force).finish o.op stBump (be64 nb.toNat))) ∧
    (s.cfg.sealNow = 0 → nb = 0 → Tab.ok .empty s.nv.slots = true →
      ∃ t, exec .handoverCommit s = .next t ∧ t.cfg.image = some m ∧
        t.cfg.slot = s.cfg.stagedSlot ∧ t.cfg.staged = none ∧ t.cfg.handover = none ∧
        t.cfg.ended = .handover ∧ t.nv.active = s.cfg.stagedSlot ∧
        (t.slot s.cfg.stagedSlot).st = .running ∧
        (s.cfg.image.isSome = true → s.cfg.slot ≠ s.cfg.stagedSlot →
          (t.slot s.cfg.slot).st = .loaded) ∧
        t.lgc.bank = !s.lgc.bank ∧ t.lgc.tripA = [] ∧ t.lgc.tripB = [] ∧
        t.nv.accept = [] ∧ t.nv.expel = [])) ∧
  (∀ (s : State) (force : Bool) (k : Nat), k < 64 →
    let trip (q : Side) (l : List TripLatch) :=
      s.tripSourced k && s.mx q && l.any fun x => x.out == k
    let old := s.command false k && !trip .a s.lgc.tripA && !trip .b s.lgc.tripB
    let new := s.command true k
    (s.bumps force).getLsbD k =
      ((s.cfg.image.isSome && Image.outMode s.cfg.image k != Image.outMode s.cfg.staged k &&
          (old || new)) || ((old != new) && (!force || new))))

/-- O21. A new seal code is accepted and recorded; a cover open for 100 ms counts a seal opening;
the cover bit follows the switch (15_configuration_and_seal.md (R317, R318, R319)). -/
def Obligations.SealAndCover : Prop :=
  ∀ s : State, s.alive = true →
    (∀ code, code ≠ s.cfg.sealNow →
      let u := { s with cfg := { s.cfg with sealNow := code } }
      let r := u.record 0x0A01 2 [s.cfg.sealNow, code, BitVec.ofNat 8 u.sealJudge]
      (s.cfg.sealNow ≠ 0 → exec (.sealChange code) s = .next r) ∧
      (s.cfg.sealNow = 0 → ∃ t, exec (.sealChange code) s = .next t ∧
        t = ((r.abandonLoad fun _ => true).abandonFw).detachEngine 3 ∧ t.cfg.sealNow = code ∧
        t.cfg.load = none ∧ t.eng.attached = none ∧
        (∀ f, t.por.fw = some f → f.phase ≠ .loading)) ∧
      r.cfg.sealNow = code) ∧
    (s.cfg.coverOpen = false → exec (.cover .opened) s =
      .next { s with cfg := { s.cfg with coverOpen := true, coverAt := some s.now } }) ∧
    (∀ t, s.cfg.coverAt = some t → t + 20000000 ≤ s.now →
      let u := ({ s with cfg := { s.cfg with coverOpen := true
                                             coverAt := none } } : State).advanceCounter 86 16 512
      exec (.cover .held) s = .next (u.record 0x0A02 2 ([u.cfg.sealNow] ++ be16 u.openings))) ∧
    exec (.cover .closed) s = .next { s with cfg := { s.cfg with coverOpen := false, coverAt := none } }

/-! ### Engines and the debugger -/

/-- O22. FUNCTION_RESET of an instance waits for its next snapshot; OUTPUT_RESET of a failed output
that is commanded OFF waits for its re-test (16_porch_and_mailboxes.md (R346),
05_evaluation_engines.md (R148), 09_outputs.md (R230)). -/
def Obligations.ResetsReachTheirTarget : Prop :=
  ∀ (s s1 : State) (h : Hdr) (op : Nat), admission s h (operate 0x30) = some (s1, op) →
    (∀ n im v e, n < 1024 → (h.staged = true → s1.cfg.staged.isSome = true) →
      s1.instImg h.staged n = some im → im.hostreset = true → s1.inst h.staged n = some v →
      v.engine = some e → exec (.functionReset h ([0#8, 0#8] ++ be16 n)) s =
        .next (answer (s1.setInst h.staged n (some { v with resets := v.resets ++ [op] })) op h 0x30
          stAccepted [])) ∧
    (∀ k : Fin 64, h.staged = false → (s1.oform k.val).cause ≠ 0 → s1.bothOff k.val = true →
      exec (.outputReset h k) s = .next (answer { s1 with lgc := { s1.lgc with
        orst := Tab.set [] s1.lgc.orst k.val (Tab.get [] s1.lgc.orst k.val ++ [op]) } } op h 0x30
          stAccepted [])) ∧
    (∀ k : Fin 64, exec (.outputReset h k) s = exec (.functionReset h ([1#8, 0#8] ++ be16 k.val)) s)

/-- O23. ENGINE_SPLIT drains an engine whose work fits elsewhere, DRAIN_END makes it SPLIT,
ENGINE_JOIN sends it through its self-test (05_evaluation_engines.md (R134, R135)). -/
def Obligations.SplitAndJoin : Prop :=
  (∀ (s s1 : State) (h : Hdr) (op : Nat) (e : Fin 8), admission s h (operate 0x40) = some (s1, op) →
    s1.migrating = false → e.val ∈ s1.inService → s1.splitFits e.val false = true →
    exec (.engineSplit h [BitVec.ofNat 8 e.val]) s = .next (answer
      (((s1.setEngine e.val { s1.engine e.val with drainOp := op, forDebug := false }).setEngSt e.val
        .draining).redistribute.settle) op h 0x40 stAccepted [])) ∧
  (∀ (s : State) (e : Fin 8), (s.engine e.val).st = .draining → s.ticking = true →
    s.tb % 50000 = 0 →
    (∀ x ∈ s.eng.insts, ∀ w, x.2 = some w → w.left ≠ some e.val ∧ ∀ y ∈ w.wins, y.eng ≠ e.val) →
    let v := s.engine e.val
    let s1 := s.setEngine e.val { v with drainOp := 0, forDebug := false }
    (v.forDebug = true →
      exec (.drainEnd e) s = .next (((s1.setEngSt e.val .debug).finish v.drainOp stOk).settle)) ∧
    (v.forDebug = false → exec (.drainEnd e) s =
      .next ((((s1.setEngSt e.val .split).startP2 e.val).finish v.drainOp stOk).settle))) ∧
  (∀ (s s1 : State) (h : Hdr) (op : Nat) (e : Fin 8), admission s h (operate 0x41) = some (s1, op) →
    (s1.engine e.val).st = .split →
    exec (.engineJoin h [BitVec.ofNat 8 e.val]) s =
      .next (answer (s1.startTest e.val (.join op)) op h 0x41 stAccepted []))

/-- O24. An engine that passes its self-test returns as SPARE, one that fails or has its third
transient in 24 hours is retired (05_evaluation_engines.md (R117, R129, R135, Table 5.5),
14_check_values.md (R304)). -/
def Obligations.EngineSelfTestVerdicts : Prop :=
  ∀ (s : State) (e : Fin 8), (s.engine e.val).st = .testing →
    s.powered (engDom (engSide e.val)) = true → (s.unit e.val).failed = false →
    Tab.ok .start s.eng.engines = true →
    let v := s.engine e.val
    let tr := s.pwr.opsec :: within24h v.trans s.pwr.opsec
    let counted := s.setEngine e.val { v with trans := tr }
    let spare := fun t : State => ((t.setEngSt e.val .spare).replace).settle
    (v.why = .window [.engine] → tr.length < 3 →
      exec (.selfTestEnd e .pass) s = .next (spare counted)) ∧
    (v.why = .window [.engine] → 3 ≤ tr.length →
      exec (.selfTestEnd e .pass) s = .next (counted.retireEngine e.val)) ∧
    (∀ q, v.why = .window [.cmp q] →
      exec (.selfTestEnd e .pass) s = .next (spare (s.chargeCmp q))) ∧
    (∀ cs, v.why = .window cs →
      let t := cs.foldl (fun a c => a.charge e.val c) s
      ((t.engine e.val).trans.length < 3 ∨ Charge.engine ∉ cs →
        exec (.selfTestEnd e .pass) s = .next (spare t)) ∧
      (3 ≤ (t.engine e.val).trans.length → Charge.engine ∈ cs →
        exec (.selfTestEnd e .pass) s = .next (t.retireEngine e.val)) ∧
      exec (.selfTestEnd e .fail) s = .next (s.retireEngine e.val) ∧
      exec (.selfTestEnd e .unit) s = .next ((s.failUnit e.val).retireEngine e.val)) ∧
    (∀ op, v.why = .join op →
      exec (.selfTestEnd e .pass) s = .next ((spare (s.joinTaint e.val)).finish op stOk) ∧
      exec (.selfTestEnd e .fail) s = .next ((s.retireEngine e.val).finish op stFault) ∧
      exec (.selfTestEnd e .unit) s =
        .next (((s.failUnit e.val).retireEngine e.val).finish op stFault)) ∧
    (v.why = .auto → exec (.selfTestEnd e .pass) s = .next (spare (s.joinTaint e.val)) ∧
      exec (.selfTestEnd e .fail) s = .next (s.retireEngine e.val) ∧
      exec (.selfTestEnd e .unit) s = .next ((s.failUnit e.val).retireEngine e.val))

/-- O25. DEBUG_ATTACH drains and taints the engine it names; DEBUG_DETACH leaves it SPLIT; a
breakpoint halts a running engine (05_evaluation_engines.md (R136, R137), 16_porch_and_mailboxes.md
(R348)). -/
def Obligations.DebuggerAttachAndDetach : Prop :=
  (∀ (s s1 : State) (h : Hdr) (op : Nat) (e : Fin 8), admission s h (engineer 0xA0) = some (s1, op) →
    s1.migrating = false → s1.eng.attached = none →
    (s1.engine e.val).st ∉ [EngSt.suspect, .testing, .retired, .off] →
    let v := { s1.engine e.val with tainted := true, drainOp := op, forDebug := true, halted := false }
    let t := s1.setEngine e.val v
    let u := { t with eng := { t.eng with taint := true, attached := some e.val } }
    exec (.debugAttach h (debugBody e.val 0 0 0 0 [])) s = .next (answer
      ((((((u.taintRecord e.val 0).announce).evict e.val).setEngSt e.val .draining).redistribute).settle)
      op h 0xA0 stAccepted [])) ∧
  (∀ (s s1 : State) (h : Hdr) (op : Nat) (e : Fin 8), admission s h (engineer 0xA1) = some (s1, op) →
    (s1.engine e.val).st = .debug → s1.eng.attached = some e.val →
    let a := s1.setEngine e.val
      { s1.engine e.val with halted := false, breaks := [], drainOp := 0, forDebug := false }
    let b := { a with eng := { a.eng with attached := none } }
    exec (.debugDetach h [BitVec.ofNat 8 e.val]) s = .next (answer
      ((((b.setEngSt e.val .split).taintRecord e.val 1).announce).settle)
      op h 0xA1 stOk [])) ∧
  (∀ (s : State) (e : Fin 8), (s.engine e.val).st = .debug → (s.engine e.val).halted = false →
    (s.engine e.val).breaks ≠ [] → let u := s.takeDues
    Tab.ok .start u.eng.engines = true →
    ∃ t, exec (.breakpoint e) s = .next t ∧
      t = { u with free := u.free + 1, eng := { u.eng with engines := t.eng.engines } } ∧
      t.engine e.val = { u.engine e.val with halted := true, spaces := [], ran := u.free + 1 } ∧
      ∀ k, k ≠ e.val → t.engine k = u.engine k)

/-- O26. HALT, RESUME, STEP, READ, WRITE and BREAK act on the engine in DEBUG that they name, and
are answered OK (16_porch_and_mailboxes.md (R348)). -/
def Obligations.DebuggerOperations : Prop :=
  ∀ (s s1 : State) (h : Hdr) (op : Nat) (e : Fin 8), admission s h (engineer 0xA0) = some (s1, op) →
    let v := s1.engine e.val
    let ok := fun t : State => answer t op h 0xA0 stOk []
    (v.st = .debug →
      exec (.halt h e) s = .next (ok (s1.takeDues.setEngine e.val { v with halted := true })) ∧
      exec (.resume h e) s = .next (ok (s1.setEngine e.val { v with halted := false })) ∧
      exec (.debugStep h e) s = .next (ok { s1.setEngine e.val
        { v with spaces := [], ran := s1.free + 1 } with free := s1.free + 1 }) ∧
      (∀ a : Word, (v.breaks.filter fun x => x != a).length < 8 → exec (.breakSet h e a 1) s =
        .next (ok (s1.setEngine e.val { v with breaks := (v.breaks.filter fun x => x != a) ++ [a] }))) ∧
      (∀ a : Word, exec (.breakSet h e a 0) s =
        .next (ok (s1.setEngine e.val { v with breaks := v.breaks.filter fun x => x != a }))) ∧
      (v.halted = true → ∀ (sp : DebugSpace) (a : Word), sp.toNat < 4 →
        (∀ n : Half, 1 ≤ n.toNat → n.toNat ≤ 1000 → a.toNat + n.toNat ≤ spaceSize sp.toNat →
          exec (.debugRead h e sp a n) s = .next (answer s1 op h 0xA0 stOk
            ((List.range n.toNat).map fun j => v.byte e.val sp.toNat (a.toNat + j)))) ∧
        (∀ data : List Byte, 1 ≤ data.length → data.length ≤ 992 → 1 ≤ sp.toNat →
          a.toNat + data.length ≤ spaceSize sp.toNat → Tab.ok [] v.spaces = true →
          Tab.ok none (Tab.get [] v.spaces sp.toNat) = true →
          ∃ w, exec (.debugWrite h e sp a data) s = .next (ok (s1.setEngine e.val w)) ∧
            w = { v with spaces := w.spaces } ∧
            (∀ j, j < data.length → w.byte e.val sp.toNat (a.toNat + j) = nth data j 0) ∧
            (∀ j, ¬(a.toNat ≤ j ∧ j < a.toNat + data.length) →
              w.byte e.val sp.toNat j = v.byte e.val sp.toNat j) ∧
            (∀ x j, x ≠ sp.toNat → w.byte e.val x j = v.byte e.val x j)))) ∧
    (v.st ≠ .debug → exec (.halt h e) s = .next (answer s1 op h 0xA0 stState []) ∧
      exec (.resume h e) s = .next (answer s1 op h 0xA0 stState []) ∧
      exec (.debugStep h e) s = .next (answer s1 op h 0xA0 stState []))

/-- O27. A window starts where TB is a multiple of its period, with the number TB div the period;
there WINDOW_START takes the snapshot of the instance on its engine (R107). -/
def Obligations.WindowsStartOnTheBoundary : Prop :=
  (∀ x : InstImg, x.ticks = 50000 * 2 ^ x.window) ∧
  (∀ (x y : InstImg) (n : Nat), x.window ≤ y.window → n % y.ticks = 0 → n % x.ticks = 0) ∧
  (∀ (s : State) (st : Bool) (i : Fin 1024) (im : InstImg), s.instImg st i.val = some im →
    s.tb % im.ticks ≠ 0 → exec (.windowStart st i) s = .next s) ∧
  ∀ (s : State) (i : Fin 1024) (m : Image) (im : InstImg) (v : Inst) (e : Nat),
    s.img false = some m → s.instImg false i.val = some im → s.inst false i.val = some v →
    im.prio ≠ 2 → v.moving = false → v.engine = some e → e ∈ s.inService → s.judging = true →
    s.ticking = true → 8 ≤ s.pwr.step → s.tb % im.ticks = 0 → v.wins.length < 2 →
    (∀ w ∈ v.wins, w.start ≠ s.tb) → (v.started = true → v.lastWin ≠ s.tb / im.ticks) →
    Tab.ok none s.eng.insts = true → Tab.ok .start s.eng.engines = true →
    Tab.ok .fresh s.cvu = true → (s.unit e).upset = 0 →
    ∃ t w, exec (.windowStart false i) s = .next (if s.pwr.step = 8 then t.endStart else t) ∧
      w.start = s.tb ∧
      w.start % im.ticks = 0 ∧ w.eng = e ∧
      w.snap = s.snapshot false m im v ∧ w.resets = v.resets ∧
      t.inst false i.val = some { v with wins := v.wins ++ [w], resets := [], spec := none } ∧
      (∀ p, v.spec = some (snapHash w.snap, p) → w.passA = some p ∧
        t.engine e = { s.engine e with hits := ((s.engine e).hits + 1) % 2 ^ 32 }) ∧
      ((∀ p, v.spec ≠ some (snapHash w.snap, p)) → w.passA = none ∧
        t.engine e = { s.engine e with misses := ((s.engine e).misses + 1) % 2 ^ 32 }) ∧
      (∀ j, j ≠ i.val → t.inst false j = s.inst false j) ∧
      t = { s with cvu := t.cvu
                   eng := { s.eng with engines := t.eng.engines, insts := t.eng.insts } }

/-- O28. COMMIT of a window whose two passes agree applies the function to the window's snapshot and
publishes it; one whose passes differ fails the window (05_evaluation_engines.md (R111, R112, R114,
R115, R116, R117, R118, R119, R113, R120, R121), 07_converters.md (R173)). -/
def Obligations.CommitTakesTheAgreedResult : Prop :=
  (∀ (s : State) (st : Bool) (i : Fin 1024) (m : Image) (im : InstImg) (v : Inst) (w : Window)
    (rest : List Window) (wA : List (Word × Word)) (wB : List (Word × PassB)) (ask : List (Fin 32)),
    s.img st = some m → s.instImg st i.val = some im → s.inst st i.val = some v → im.num = i.val →
    v.wins = w :: rest → s.alive = true → s.tb ≤ w.start + im.ticks + 10000 →
    (s.unit w.eng).fault = false → (s.unit w.eng).upset = 0 → Tab.ok .fresh s.cvu = true →
    let n := w.start / im.ticks
    let p := w.passA.getD (PassA.of i.val n wA)
    let com (a b : CmpStuck) := exec (.commit st i wA wB ask .none a b) s
    let ends (t : State) := ((t.commitWindow st m im v w p .none).askUrgent st m w.eng ask).settle
    p.rail' = ~~~p.rail → p.faulty = false →
    (im.prio = 2 → com .ok .ok = .next (ends s)) ∧
    (im.prio ≠ 2 →
      let g := s.engine w.eng
      let skew : Bool := (g.judged + 1) % max (match s.img false with
        | some r => bf r.engCmp 24 16
        | none => 64) 1 == 0
      let checked (ws : List (Word × Word)) := (s.setUnit w.eng ((s.unit w.eng).payload 3#2
        (be16 i.val ++ be32 (n % 2 ^ 32) ++ ws.flatMap fun e => wordBytes e.1 ++ wordBytes e.2))).setEngine
          w.eng { g with judged := g.judged + 1, skews := g.skews + b2n skew }
      let tested (t : State) := { t with eng := { t.eng with skews := (t.eng.skews + 1) % 65536 } }
      let judged (ws : List (Word × Word)) := if skew = true then tested (checked ws) else checked ws
      (∀ ws, decodeWrites (snapCoded w.snap) wB = some ws →
        let sb := signature i.val n ws
        (p.rail.toNat = sb → s.judging = true → com .ok .ok = .next (ends (judged ws))) ∧
        (p.rail.toNat ≠ sb → s.judging = true →
          (skew = true → p.rail.toNat ≠ sb ^^^ 2 ^ (g.skews % 32)) →
          com .ok .ok = .next ((judged ws).failWindow st im w 0 .engine)) ∧
        (p.rail.toNat = sb → s.cmpOk .a = true → s.cmpOk .b = true →
          com .stuckMismatch .ok = .next ((judged ws).failWindow st im w 4 (.cmp .a)) ∧
          com .ok .stuckMismatch = .next ((judged ws).failWindow st im w 4 (.cmp .b)) ∧
          (skew = true →
            com .stuckMatch .ok =
              .next (ends (tested (((checked ws).record 0x0703 2 [0#8, 0#8]).retireCmp .a))) ∧
            com .ok .stuckMatch =
              .next (ends (tested (((checked ws).record 0x0703 2 [1#8, 0#8]).retireCmp .b)))))) ∧
      (decodeWrites (snapCoded w.snap) wB = none → s.judging = true →
        com .ok .ok = .next ((judged []).failWindow st im w 1 .engine)) ∧
      (s.judging = false → ∀ a b, com a b = .next s) ∧
      (w.passA = none → wB = wA.map (fun e => (e.1, .native e.2)) → s.judging = true →
        com .ok .ok = .next (ends (judged wA))))) ∧
  (∀ (t : State) (st : Bool) (m : Image) (im : InstImg) (v : Inst) (w : Window) (p : PassA),
    im.num < 1024 → t.inst st im.num = some v → Tab.ok none t.eng.insts = true →
    Tab.ok .zero t.eng.masks = true →
    let u := t.commitWindow st m im v w p .none
    ∃ c, u.inst st im.num = some c ∧ c.st = fnStep im (im.axisOf m) w.snap v.st ∧
      c.wins = v.wins.drop 1 ∧ c.hold = none ∧ c.safe = false ∧ c.started = true ∧
      c.lastWin = w.start / im.ticks ∧ c.lastAt = t.tb ∧
      (t.ckmFor w.eng = true → im.prio ≠ 2 → c.ckpt = some (c.st, w.start / im.ticks)) ∧
      ∀ k ∈ m.owned im.num, (u.mask st k).mask = maskFor m im c.st) ∧
  ∀ (t : State) (m : Image) (e : Nat) (ask : List (Fin 32)),
    (t.lgc.urg.Pairwise fun x y => x.tick < y.tick ∨ (x.tick = y.tick ∧ x.eng ≤ y.eng)) →
    (∀ x ∈ t.lgc.urg, x.tick ≤ t.tb) →
    ∃ before after, t.lgc.urg = before ++ after ∧ (∀ x ∈ before, x.tick < t.tb ∨ x.eng ≤ e) ∧
      (∀ x ∈ after, x.tick = t.tb ∧ e < x.eng) ∧
      t.askUrgent false m e ask = { t with lgc := { t.lgc with urg := before ++
        ((ask.filter fun c => m.chanOwner c.val == some e).map fun c =>
          ({ tick := t.tb, eng := e, conv := c.val / 8, ch := c.val % 8 } : UrgAsk)) ++ after } }

/-- O29. OVERRUN fails the window and its engine becomes SUSPECT; a hold that passes without a
commit sends the instance to SAFE; run-ahead and migration (05_evaluation_engines.md (R119, R120,
R121, R127, R128, R143)). -/
def Obligations.FailedWindowsHoldThenGoSafe : Prop :=
  ∀ (s : State) (st : Bool) (i : Fin 1024) (im : InstImg) (v : Inst),
    s.instImg st i.val = some im → s.inst st i.val = some v → im.num = i.val → s.alive = true →
    Tab.ok none s.eng.insts = true → Tab.ok .start s.eng.engines = true →
    (∀ w rest, v.wins = w :: rest → im.prio ≠ 2 → w.start + im.ticks ≤ s.tb →
      let holds := im.holdw = true ∧ v.ckpt.isSome = true ∧ s.ckmOk v.ckIn = true
      ∃ (t : State) (y : Inst), exec (.overrun st i) s = .next (t.redistribute.settle) ∧ t.inst st i.val = some y ∧
        y.wins = [] ∧ y.spec = none ∧ y.resets = v.wins.flatMap Window.resets ++ v.resets ∧
        (v.safe = false → holds → y.st = v.st ∧ y.safe = false ∧
          y.hold = some (v.hold.getD (w.start + 2 * im.ticks + 10000))) ∧
        (v.safe = false → ¬holds →
          y.st = v.st.toDemand im s.tb ∧ y.safe = true ∧ y.hold = none) ∧
        (t.engine w.eng).failed = min 0xFFFF ((s.engine w.eng).failed + 1) ∧
        (t.engine w.eng).overrun = min 0xF ((s.engine w.eng).overrun + 1) ∧
        ((s.engine w.eng).st = .active ∨ (s.engine w.eng).st = .spare →
          (t.engine w.eng).st = .suspect ∧ (t.engine w.eng).why = .window [.engine]) ∧
        ∀ e, e ≠ w.eng → t.engine e = s.engine e) ∧
    (∀ n, v.hold = some n → n ≤ s.tb → ∃ t, exec (.holdDeadline st i) s = .next t ∧
      t.inst st i.val = some { v with st := v.st.toDemand im s.tb, safe := true, hold := none } ∧
      (∀ k, k ≠ instKey st i.val → Tab.get none t.eng.insts k = Tab.get none s.eng.insts k) ∧
      t = { s with eng := { s.eng with insts := t.eng.insts }, rcd := t.rcd, cvu := t.cvu }) ∧
    (im.type ≠ 0x0E → (v.st.toDemand im s.tb).outs = 0 ∧ (v.st.toDemand im s.tb).logic =
      if 1 ≤ v.st.logic ∧ v.st.logic ≤ 3 then v.st.logic else 1) ∧
    (im.type ≠ 0x0E → (v.st.fallen im s.tb).outs = 0 ∧ (v.st.fallen im s.tb).logic = v.st.logic) ∧
    (∀ e wA, v.moving = false → v.wins = [] → v.started = true → im.prio ≠ 2 → v.engine = some e →
      e ∈ s.inService → (∀ x ∈ s.eng.insts, ∀ u, x.2 = some u → ∀ y ∈ u.wins, y.eng ≠ e) →
      (s.unit e).upset = 0 → Tab.ok .fresh s.cvu = true →
      let bytes := be16 i.val ++ be32 ((v.lastWin + 1) % 2 ^ 32) ++
        wA.flatMap fun x => wordBytes x.1 ++ wordBytes x.2
      let sa := BitVec.ofNat 32 (crc32c bytes)
      let p : PassA := { staged := wA, rail := sa, rail' := ~~~sa, faulty := (s.unit e).fault }
      exec (.runAhead st ⟨i, wA⟩) s = .next ((if (s.unit e).fault = true then s else
        s.setUnit e ((s.unit e).payload 3#2 bytes)).setInst st i.val (some { v with spec :=
          (v.lastHash.map fun hash => (hash, p)) }))) ∧
    (∀ e c, v.moving = true → v.wins = [] → v.engine = some e → e ∈ s.inService →
      s.movesLater im = false → v.restore = true → v.ckpt = some c → s.ckmOk v.ckIn = true →
      v.ckBad = false → (s.unit e).upset = 0 → Tab.ok .fresh s.cvu = true →
      ∃ t0 : State, t0 = { s with cvu := t0.cvu, free := s.free + 2 } ∧ (∀ u, u ≠ e → t0.unit u = s.unit u) ∧
      exec (.migration st i true) s = .next ((t0.setInst st i.val (some
        { v with st := if v.safe then c.1.fallen im s.tb else c.1, lastWin := c.2,
                 moving := false })).settle) ∧
      ∃ t : State, exec (.migration st i false) s = .next t.settle ∧ t.inst st i.val = some
        { v with st := ((t0.record 0x0706 3 (be16 i.val) st).toSafe st im).startFn im, ckpt := none
                 hold := none, safe := true, started := false, spec := none, lastHash := none
                 began := s.tb, moving := false })

/-! ### Calibration, recorder, fuses, peers and firmware -/

/-- O30. CAL_ZERO and CAL_FULL start an averaging that 1,024 good entries end; CAL_COMMIT stores the
record; CAL_DISCARD and 600 s end the session (07_converters.md (R185, R186)). -/
def Obligations.CalibrationSession : Prop :=
  (∀ (s s1 : State) (h : Hdr) (op r : Nat) (c : Fin 32), admission s h (operate 0x50) = some (s1, op) →
    s1.rangeOf c.val = some r → s1.cnv.cal = none →
    let k : Cal :=
      { session := h.session.toNat, chan := c.val, phase := .zeroing, count := 0, sum := 0,
        bad := false, since := s1.tb, zero := 0, full := 0, applied := 0, op := op, lastCmd := s1.tb }
    exec (.calZero h [BitVec.ofNat 8 c.val]) s =
      .next (answer (s1.setCal (some k)) op h 0x50 stAccepted [])) ∧
  (∀ (s s1 : State) (h : Hdr) (op r : Nat) (c : Fin 32) (k : Cal) (v : Word),
    admission s h (operate 0x51) = some (s1, op) → s1.rangeOf c.val = some r →
    appliedOk r v.toInt = true → s1.cnv.cal = some k → k.session = h.session.toNat →
    k.chan = c.val → (k.phase = .zeroed ∨ k.phase = .filled) →
    let next := { k with phase := .filling, count := 0, sum := 0, bad := false, since := s1.tb,
                         applied := v.toInt * (rangeScale r).2, op := op, lastCmd := s1.tb }
    exec (.calFull h ([BitVec.ofNat 8 c.val, 0#8, 0#8, 0#8] ++ wordBytes v)) s =
      .next (answer (s1.setCal (some next)) op h 0x51 stAccepted [])) ∧
  (∀ (s : State) (k : Cal), s.cnv.cal = some k → k.bad = false → s.isStale k.chan = false →
    1024 ≤ k.count →
    (k.phase = .zeroing → exec .calAverageEnd s =
      .next ((s.setCal (some { k with phase := .zeroed, zero := k.sum })).finish k.op stOk)) ∧
    (k.phase = .filling → exec .calAverageEnd s =
      .next ((s.setCal (some { k with phase := .filled, full := k.sum })).finish k.op stOk))) ∧
  (∀ (s : State) (k : Cal), s.cnv.cal = some k → k.bad = true →
    (k.phase = .zeroing → exec .calAverageEnd s =
      .next ((s.setCal (some { k with phase := .spoiled })).finish k.op stFault)) ∧
    (k.phase = .filling → exec .calAverageEnd s =
      .next ((s.setCal (some { k with phase := .zeroed })).finish k.op stFault))) ∧
  (∀ (s s1 : State) (h : Hdr) (op : Nat) (c : Fin 32) (k : Cal) (r : CalRec),
    admission s h (operate 0x52) = some (s1, op) → s1.cnv.cal = some k →
    k.session = h.session.toNat → k.chan = c.val → k.phase = .filled → k.record = some r →
    Tab.ok .unity s1.nv.cal = true → Tab.ok .fresh s1.cvu = true →
    (s1.unit (procUnit s1.por.active)).upset = 0 →
    ∃ t, exec (.calCommit h [BitVec.ofNat 8 c.val]) s =
      .next (answer t op h 0x52 stOk (wordBytes r.word)) ∧ t.cnv.cal = none ∧
      (∀ j, Tab.get .unity t.nv.cal j = if j = c.val then r else Tab.get .unity s1.nv.cal j)) ∧
  (∀ (s s1 : State) (h : Hdr) (op : Nat) (c : Fin 32) (k : Cal),
    admission s h (operate 0x53) = some (s1, op) → s1.cnv.cal = some k →
    k.session = h.session.toNat → k.chan = c.val → exec (.calDiscard h [BitVec.ofNat 8 c.val]) s =
      .next (answer (s1.setCal none) op h 0x53 stOk [])) ∧
  (∀ (s : State) (k : Cal), s.cnv.cal = some k → s.alive = true →
    k.lastCmd + 120000000000 ≤ s.tb → exec .calibrationTimeout s =
      .next { s with cnv := { s.cnv with cal := none } }) ∧
  (∀ (k : Cal) (r : CalRec), k.record = some r →
    let d : Int := (1000000 * (k.full - k.zero)).natAbs
    ∃ n : Int, (n = 1024 * k.applied ∨ n = -(1024 * k.applied)) ∧ 0 < d ∧
      95 * d ≤ 100 * n ∧ 100 * n ≤ 105 * d ∧ k.zero.natAbs ≤ 500 * 1024 ∧ r.good = true ∧
      r.crc = crc32c (be16 (twos 16 r.ofs) ++ be16 r.gain) ∧ r.ofs = (2 * k.zero + 1024) / 2048 ∧ r.gain = ((65536 * n + d) / (2 * d)).toNat)

/-- O31. REC_CLEAR enters a CLEAR record from which the circulating area is read; a verified flush
writes every pending record to the store (19_recorder.md (R391, R397, R402, R403)). -/
def Obligations.RecorderClearsAndFlushes : Prop :=
  (∀ (s s1 : State) (h : Hdr) (op : Nat) (r : Rec), admission s h (observe 0x62 false) = some (s1, op) →
    s1.newestRec = some r → r.code = 1 →
    exec (.recClear h []) s = .next (answer s1 op h 0x62 stOk (be32 r.seq))) ∧
  (∀ (s s1 : State) (h : Hdr) (op : Nat) (r : Rec), admission s h (observe 0x62 false) = some (s1, op) →
    s1.newestRec = some r → r.code ≠ 1 → s1.alive = true → s1.rcd.failed = none →
    s1.rcd.buf.length < 512 → s1.rcd.lost = 0 → 4096 < s1.rcd.next →
    (∀ x ∈ s1.rcd.buf, x.seq ≠ s1.rcd.next) → (s1.unit 18).upset = 0 → Tab.ok .fresh s1.cvu = true →
    ∃ t c, exec (.recClear h []) s = .next (answer t op h 0x62 stOk (be32 s1.rcd.next)) ∧
      t.rcd.buf = s1.rcd.buf ++ [c] ∧ c.code = 1 ∧ c.seq = s1.rcd.next ∧
      t.nv.lastClr = s1.rcd.next ∧ t.nv.found = s1.nv.found ∧ t.circRead = [c]) ∧
  (∀ (s : State) (o : FlushOutcome), s.rcd.flushing = true → s.alive = true →
    (s.pwr.pfail = true ∨ s.pwr.step = 0 ∨ 3 < s.pwr.step) → s.rcd.hidden = false →
    s.rcd.failed = none → (∀ x, s.nv.found.getLast? = some x → x.broken = false) →
    (∀ x, s.nv.circ.getLast? = some x → x.broken = false) →
    ∃ t, exec (.flushEnd o) s = .next t ∧ t.rcd.flushing = false ∧
      t.rcd.verify = min 0xFFFF (s.rcd.verify + o.fails.val) ∧
      (o.fails.val ≠ 2 → t.rcd.buf = [] ∧ t.rcd.flushed = s.tb ∧ t.rcd.failed = none ∧
        t.nv.found = s.foundAll ∧ t.nv.circ = s.circAll.drop (s.circAll.length - 61440)) ∧
      (o.fails.val = 2 → let l := s.rcd.buf.take (min o.stored (s.rcd.buf.length - 1))
        t.rcd.failed = some .store ∧ t.nv.found = s.nv.found ++ l.filter Rec.founding ∧
        let c := s.nv.circ ++ l.filter fun r => !r.founding
        t.nv.circ = c.drop (c.length - 61440))) ∧
  (∀ s : State, s.alive = true → s.rcd.flushed + 2000000000 ≤ s.tb → s.rcd.failed = none →
    s.rcd.buf ≠ [] → exec .flushInterval s =
      .next { s with rcd := { s.rcd with flushing := true } })

/-- O32. FUSE_ADVANCE queues every step up to its target; a verified blow puts its bit into the row;
leaving the window makes the other blows pending (18_fuse_bank.md (R347, R385, R386, R387)). -/
def Obligations.FusesAdvanceAndBlow : Prop :=
  (∀ (s s1 : State) (h : Hdr) (op c target : Nat), admission s h (engineer 0x71) = some (s1, op) →
    c < 2 → target ≤ (if c = 0 then 128 else 4) →
    (target ≤ s1.advValue c → exec (.fuseAdvance h ([BitVec.ofNat 8 c, 0#8] ++ be16 target)) s =
      .next (answer s1 op h 0x71 stOk (be16 (s1.advValue c)))) ∧
    (s1.advValue c < target → (c = 0 → s1.aboveFirmware target = false) → s1.fus.window = true →
      ∃ t, exec (.fuseAdvance h ([BitVec.ofNat 8 c, 0#8] ++ be16 target)) s =
        .next (answer t op h 0x71 stAccepted []) ∧ t.nv.rows = s1.nv.rows ∧
        s1.nv.blows <+: t.nv.blows ∧
        ∀ i, s1.advValue c ≤ i → i < target →
          ∃ x ∈ t.nv.blows, x.word = (if c = 0 then 49 else 53) + i / 32 ∧ x.bit = i % 32)) ∧
  (∀ (s : State) (x : Blow) (rest : List Blow), s.nv.blows = x :: rest → s.fus.blowing = true →
    s.alive = true → Tab.ok .blank s.nv.rows = true →
    ∃ t, exec (.fuseBlow .blown) s = .next t ∧ t.nv.blows = rest ∧
      ∀ w, Tab.get .blank t.nv.rows w = if w = x.word
        then (Tab.get .blank s.nv.rows w).or (.whole (BitVec.ofNat 32 (1 <<< x.bit)))
        else Tab.get .blank s.nv.rows w) ∧
  (∀ (s : State) (x : Blow) (rest : List Blow) (i : Nat), s.nv.blows = x :: rest →
    s.fus.blowing = true → s.alive = true → x.word < 128 → x.bit < 32 → i < 8 →
    Tab.ok .blank s.nv.rows = true → Tab.ok .blank s.nv.redir = true →
    (∀ j, j < i → (s.nv.entryUse j).isSome = true) → Tab.get .blank s.nv.redir i = .blank →
    Tab.get .blank s.nv.rows (128 + i) = .blank →
    ∃ t, exec (.fuseBlow .bad) s = .next t ∧ t.nv.blows = rest ∧ t.nv.entryUse i = some x.word ∧
      (t.nv.rowRead x.word).bits =
        (s.nv.rowRead x.word).bits ||| BitVec.ofNat 32 (1 <<< x.bit)) ∧
  (∀ (s : State) (mV : Nat) (temp : Int), s.alive = true → s.fus.window = true →
    let u := { s with fus := { s.fus with rail := mV, temp := temp } }
    ((3200 ≤ mV ∧ mV ≤ 3400 ∧ -200 ≤ temp ∧ temp ≤ 850) →
      exec (.programmingWindow mV temp) s = .next { u with fus := { u.fus with
        blowing := s.fus.blowing || (!s.pwr.pfail && !s.nv.blows.isEmpty) } }) ∧
    (¬(3200 ≤ mV ∧ mV ≤ 3400 ∧ -200 ≤ temp ∧ temp ≤ 850) → s.fus.blowing = false →
      ∃ t, exec (.programmingWindow mV temp) s = .next t ∧ t.nv.blows =
        (s.nv.blows.filter fun x => !x.advance).map fun x => { x with pending := true }))

/-- O33. PEER_ACCEPT and PEER_EXPEL move a device between the accept and expel lists of at most 16
entries each (17_fabric.md (R362)). -/
def Obligations.PeerLists : Prop :=
  ∀ (s s1 : State) (h : Hdr) (op : Nat) (uid : Long),
    let u := uid.toNat
    let entry (list event : Byte) := be64 u ++ [list, event]
    (admission s h (engineer 0x81) = some (s1, op) →
      (u ≠ s1.uid → s1.peerState u ≠ 1 → u ∉ s1.nv.accept → s1.nv.accept.length < 16 →
        let nv := { s1.nv with accept := s1.nv.accept ++ [u]
                               expel := s1.nv.expel.filter fun x => x != u }
        let a := { s1 with nv := nv }.record 0x0C03 2 (entry 0 0)
        let b := if u ∈ s1.nv.expel then a.record 0x0C03 2 (entry 1 1) else a
        let t := b.routesDue.judgePeers
        exec (.peerAccept h (be64 u)) s = .next (answer t op h 0x81 stOk []) ∧
          t.nv.accept = nv.accept ∧ t.nv.expel = nv.expel) ∧
      (u = s1.uid → exec (.peerAccept h (be64 u)) s = .next (answer s1 op h 0x81 stArg [])) ∧
      (u ≠ s1.uid → s1.peerState u = 1 ∨ u ∈ s1.nv.accept → exec (.peerAccept h (be64 u)) s =
        .next (answer s1 op h 0x81 stOk [])) ∧
      (u ≠ s1.uid → s1.peerState u ≠ 1 → u ∉ s1.nv.accept → 16 ≤ s1.nv.accept.length →
        exec (.peerAccept h (be64 u)) s = .next (answer s1 op h 0x81 stCapacity []))) ∧
    (admission s h (engineer 0x82) = some (s1, op) →
      (u ≠ s1.uid → u ∉ s1.nv.expel → s1.nv.expel.length < 16 →
        let nv := { s1.nv with expel := s1.nv.expel ++ [u]
                               accept := s1.nv.accept.filter fun x => x != u }
        let a := { s1 with nv := nv }.record 0x0C03 2 (entry 1 0)
        let b := if u ∈ s1.nv.accept then a.record 0x0C03 2 (entry 0 1) else a
        let t := (((b.keepClaim u ((s1.lsaOf u).map Lsa.addr)).routesDue).judgePeers).expelCons s1 u
        exec (.peerExpel h (be64 u)) s = .next (answer t op h 0x82 stOk []) ∧
          t.nv.accept = nv.accept ∧ t.nv.expel = nv.expel) ∧
      (u = s1.uid → exec (.peerExpel h (be64 u)) s = .next (answer s1 op h 0x82 stArg [])) ∧
      (u ≠ s1.uid → u ∈ s1.nv.expel → exec (.peerExpel h (be64 u)) s =
        .next (answer s1 op h 0x82 stOk [])) ∧
      (u ≠ s1.uid → u ∉ s1.nv.expel → 16 ≤ s1.nv.expel.length → exec (.peerExpel h (be64 u)) s =
        .next (answer s1 op h 0x82 stCapacity [])))

/-- O34. A firmware load fills the bank not in use of the standby; its checks make the bank sound; a
switch restarts the standby first (16_porch_and_mailboxes.md (R349, R350)). -/
def Obligations.FirmwareLoadsAndSwitches : Prop :=
  (∀ (s s1 : State) (h : Hdr) (op len : Nat), admission s h (fwKind 0xB0) = some (s1, op) →
    s1.inLoader = false → len ≤ 4194304 → s1.por.fw = none →
    (s1.proc (otherSide s1.por.active)).st = .standby →
    let f : FwLoad := { len := len, next := 0, phase := .loading, op := 0, data := [] }
    let u := s1.putSpare (otherSide s1.por.active) { version := 0, rollback := 0, sound := false }
    exec (.firmwareBegin h (be32 len)) s =
      .next (answer { u with por := { u.por with fw := some f } } op h 0xB0 stOk [])) ∧
  (∀ (s s1 : State) (h : Hdr) (op : Nat) (f : FwLoad) (data : List Byte),
    admission s h (fwKind 0xB1) = some (s1, op) → s1.por.fw = some f → f.phase = .loading →
    1 ≤ data.length → data.length ≤ 1000 → f.next + data.length ≤ f.len → f.next < 2 ^ 32 →
    f.data.wf = true → ∃ m, m.wf = true ∧
      (∀ a, m.read a = if f.next ≤ a ∧ a < f.next + data.length then nth data (a - f.next) 0
        else f.data.read a) ∧
      exec (.firmwareChunk h (be32 f.next ++ data)) s = .next (answer { s1 with por := { s1.por with
        fw := some { f with data := m, next := f.next + data.length } } } op h 0xB1 stOk [])) ∧
  (∀ (s s1 : State) (h : Hdr) (op : Nat) (f : FwLoad), admission s h (fwKind 0xB2) = some (s1, op) →
    s1.por.fw = some f → f.phase = .loading → exec (.firmwareEnd h []) s =
      .next (answer { s1 with por := { s1.por with fw := some { f with phase := .checking
                                                                       op := op } } }
        op h 0xB2 stAccepted [])) ∧
  (∀ (s : State) (f : FwLoad), s.porchUp = true → s.inLoader = false → s.por.fw = some f →
    f.phase = .checking →
    let bytes := f.data.readList 0 f.len
    let v := wordAt bytes 4
    let r := numAt bytes 8 1
    let q := otherSide s.por.active
    let good := s.putSpare q { version := v, rollback := r, sound := true }
    (s.fwGood f bytes = true → exec .firmwareCheckEnd s = .next (({ good with por := { good.por with
      fw := some { f with phase := .checked v r, op := 0 } } }.fwRecord q v r stOk).finish f.op stOk)) ∧
    (s.fwGood f bytes = false → exec .firmwareCheckEnd s = .next
      (({ s with por := { s.por with fw := none } }.fwRecord q v r stFault).finish f.op stFault))) ∧
  (∀ (s s1 : State) (h : Hdr) (op r : Nat) (v : Word) (f : FwLoad),
    admission s h (fwKind 0xB3) = some (s1, op) → s1.inLoader = false → s1.por.fw = some f →
    f.phase = .checked v r → (s1.proc (otherSide s1.por.active)).st = .standby →
    s1.cfg.load = none → s1.cfg.running = none → s1.cnv.cal = none → s1.pwr.pfail = false →
    let u := { s1 with por := { s1.por with fw := some { f with phase := .switching v r false
                                                                op := op } } }
    let q := otherSide s1.por.active
    exec (.firmwareSwitch h []) s =
      .next (answer (u.setProc q { u.proc q with st := .restarting }) op h 0xB3 stAccepted []))

/-- O35. When the active processor is lost its standby takes over: the epoch advances, running work
ends, results and sessions survive; a lost standby is lost alone (16_porch_and_mailboxes.md (R334,
R341, R342)). -/
def Obligations.PorchSwitchesOver : Prop :=
  (∀ (s : State) (cause : Nat), s.porchUp = true → s.inLoader = false →
    (s.proc (otherSide s.por.active)).st = .standby → s.alive = true → s.por.prp = false →
    ∃ t, exec (.switchover (.active cause)) s = .next t ∧ t.por.active = otherSide s.por.active ∧
      (t.proc t.por.active).st = .active ∧ (t.proc s.por.active).st ∈ [ProcSt.lost, .retired] ∧
      t.por.epoch = s.por.epoch % 255 + 1 ∧
      t.cfg.load = none ∧ t.cfg.running = none ∧ t.cnv.cal = none ∧ t.por.fw = none ∧
      t.por.streams = [] ∧ t.por.boxes = [] ∧
      t.por.sessions = s.por.sessions.map (fun e => (e.1, e.2.map fun (v : Session) =>
        { v with cache := v.cache.map fun c =>
          if c.done.isNone && c.op != 0 then { c with done := some (stLost, []) } else c })) ∧
      t.sent = s.sent ++ [.arpAnnounce 0 (s.por.h1.take 4), .arpAnnounce 1 (s.por.h2.take 4)]) ∧
  (∀ s : State, s.porchUp = true → s.inLoader = false →
    let q := otherSide s.por.active
    let l := s.pwr.opsec :: within24h (s.proc q).losses s.pwr.opsec
    (s.proc q).st = .standby →
    (l.length < 3 → exec (.switchover .standby) s = .next (s.setProc q { st := .lost, losses := l })) ∧
    (3 ≤ l.length → exec (.switchover .standby) s =
      .next ((s.setProc q { st := .retired, losses := l }).retireBit (14 + sideNat q)))) ∧
  (∀ (s : State) (q : Side), s.alive = true → s.powered 1 = true → (s.proc q).st = .lost →
    s.bankOk q = true → (s.proc (otherSide q)).st = .active →
    let c := s.unit (procUnit q)
    exec (.processorRestart q true) s = .next ((s.setUnit (procUnit q) c.restarted).setProc q
      { s.proc q with st := .standby }) ∧
    c.restarted = { Cvu.fresh with bad := c.bad, faults := c.faults, failed := c.failed
                                   stamps := c.stamps, upset := c.upset, due := c.due })

/-! ### Registers, timers and check-value units -/

/-- O36. READ_REGS answers the words it lists, in order; WRITE_REGS writes in order, up to a refusal
of PWR_DOMCTL, and answers how many (16_porch_and_mailboxes.md (R335, R345), 12_power_and_startup.md
(R271, R273), 01_architecture.md (R4, R7)). -/
def Obligations.RegisterAccessByTheHost : Prop :=
  ∀ (s s1 : State) (h : Hdr) (op : Nat), s1.inLoader = false → s1.pwr.result ≠ 6 →
    (∀ l : List Nat, admission s h (observe 0x03 true) = some (s1, op) → 1 ≤ l.length → l.length ≤ 250 →
      (∀ a ∈ l, addrOk a = true ∧ s1.admitted h.session (regLevel false a) = true) →
      exec (.readRegs h (be16 l.length ++ [0#8, 0#8] ++ l.flatMap be32)) s =
        .next (answer (s1.readList false l).1 op h 0x03 stOk
          (be16 l.length ++ [0#8, 0#8] ++ (s1.readList false l).2.flatMap wordBytes))) ∧
    (∀ l : List (Nat × Word), admission s h (observe 0x04 true) = some (s1, op) → 1 ≤ l.length →
      l.length ≤ 125 → (∀ e ∈ l, e.1 < 2 ^ 32) →
      let c : Instr := .writeRegs h (be16 l.length ++ [0#8, 0#8] ++
        l.flatMap fun e => be32 e.1 ++ wordBytes e.2)
      let w := fun (t : State) (e : Nat × Word) => t.writeReg .porch true e.1 e.2
      let run := fun (p : List (Nat × Word)) => p.foldl (fun t e => (w t e).1) s1
      let good := fun (p : List (Nat × Word)) => ∀ q e r, p = q ++ e :: r → (w (run q) e).2 = stOk
      ((∀ e ∈ l, addrOk e.1 = true ∧ s1.admitted h.session (regLevel true e.1) = true) →
        (good l → exec c s = .next (answer (run l) op h 0x04 stOk (be16 l.length))) ∧
        (∀ p e r, l = p ++ e :: r → good p → (w (run p) e).2 ≠ stOk →
          exec c s = .next (answer (w (run p) e).1 op h 0x04 (w (run p) e).2 (be16 p.length)))) ∧
      ((∃ e ∈ l, addrOk e.1 = true ∧ s1.admitted h.session (regLevel true e.1) = false) →
        exec c s = .next (answer s1 op h 0x04 stLevel [])) ∧
      ((∀ e ∈ l, addrOk e.1 = true → s1.admitted h.session (regLevel true e.1) = true) →
        (∃ e ∈ l, addrOk e.1 = false) → exec c s = .next (answer s1 op h 0x04 stArg []))) ∧
    (∀ (t : State) (v : Word),
      t.writeReg .porch true 0x10014 v = t.domCtl (bf v 2 0) (bitOf v 8) ∧
      (∀ a, a ≠ 0x10014 → a < 2 ^ 32 → addrOk a = true → (t.writeReg .porch true a v).2 = stOk) ∧
      (t.porchUp = true → ∀ d : BitVec 3,
        exec (.domainPowerUp d) t = .next (t.domCtl d.toNat true).1 ∧
        exec (.domainPowerDown d) t = .next (t.domCtl d.toNat false).1)) ∧
    (∀ (s : State) (w : Agent), s.readReg w 0 = 0x9664#32 ∧
      s.readReg w 0x8 = BitVec.ofNat 32 (s.uid / 2 ^ 32) ∧ s.readReg w 0xC = BitVec.ofNat 32 s.uid)

/-- O37. A local write to a register has the effect of that register's command; a write of 1 clears
a W1C flag, a read-only register ignores writes (01_architecture.md (R4, R5), 13_timers.md (R281,
R282, R284, R285, R288, R294), 07_converters.md (R188), 03_inputs.md (R79), 14_check_values.md
(R306)). -/
def Obligations.RegisterWritesAreTheCommands : Prop :=
  ∀ (s : State) (w : Agent) (v : Word), s.alive = true →
    let write := fun (a : Nat) (v : Word) => exec (.registerWrite w (BitVec.ofNat 32 a) v) s
    (∀ n : Fin 64, let r := fun o => 0x31000 + 64 * n.val + o
      write (r 0x14) v = exec (.periodWrite w n v) s ∧
      write (r 0x18) v = exec (.compareWrite w n false v) s ∧
      write (r 0x1C) v = exec (.compareWrite w n true v) s ∧
      write (r 0x08) 0x20 = exec (.pop w n) s ∧ write (r 0x08) 0x10 = exec (.capsw w n) s ∧
      write (r 0x08) 0x08 = exec (.stop w n) s ∧ write (r 0x08) 0x04 = exec (.start w n) s ∧
      write (r 0x08) 0x02 = exec (.arm w n) s ∧
      (let put := fun (b : Nat) (f : State → State) (t : State) => if bitOf v b = true then f t else t
       write (r 0x08) v = .next (put 2 (fun t => t.tmrStart w n) (put 1 (fun t => t.tmrArm w n)
         (put 3 (fun t => t.tmrStop w n) (put 4 (fun t => t.tmrCapsw w n)
           (put 5 (fun t => t.tmrPop w n) s.takeDues)))))) ∧
      (let t := s.takeDues.timer n
       let f := fun (b : Nat) (was : Bool) => was && (!bitOf v b ||
         Tab.get none s.takeDues.flagSet (timerFlag n b) == some s.tb)
       write (r 0x0C) v = .next (if t.owned w = true then s.takeDues.setTimer n { t with
         cf0 := f 2 t.cf0, cf1 := f 3 t.cf1, capovf := f 4 t.capovf, gomiss := f 5 t.gomiss,
         terr := f 6 t.terr } else s.takeDues)) ∧
      (∀ o ∈ [0x00, 0x04, 0x10, 0x20, 0x24, 0x28, 0x2C, 0x30, 0x34, 0x38, 0x3C],
        write (r o) v = .next s.takeDues)) ∧
    write 0x30010 v = exec (.tmrGo w v 0) s ∧ write 0x30014 v = exec (.tmrGo w 0 v) s ∧
    write 0x30018 v = exec (.tmrSnap w v 0) s ∧ write 0x3001C v = exec (.tmrSnap w 0 v) s ∧
    (∀ o, o < 0x10000 → (o < 0x10 ∨ 0x20 ≤ o) → (o < 0x1000 ∨ 0x2000 ≤ o) → o % 4 = 0 →
      write (0x30000 + o) v = .next s.takeDues) ∧
    write 0x60040 v = exec (.cnvGo w (BitVec.ofNat 4 v.toNat)) s ∧
    write 0x60044 v = exec (.cnvSnap w (BitVec.ofNat 4 v.toNat)) s ∧
    (∀ c : Fin 4, write (0x60010 + 4 * c.val) v = .next (s.setConv c { s.conv c with
      tmiss := (s.conv c).tmiss && (!bitOf v 9 ||
        Tab.get none s.flagSet (tmissFlag c) == some s.tb) })) ∧
    (∀ c : Fin 32, write (0x60B00 + 4 * c.val) v = .next (
      if s.codeOwns w (bf (s.chShown c).cfg 27 24) = true then s.setChan c { s.chan c with
        wcf := (s.chan c).wcf && (!bitOf v 31 || Tab.get none s.flagSet (wcfFlag c) == some s.tb) }
      else s)) ∧
    (∀ o, o < 0x10000 → (o < 0x10 ∨ 0x20 ≤ o) → o ≠ 0x40 → o ≠ 0x44 → (o < 0xB00 ∨ 0xB80 ≤ o) →
      write (0x60000 + o) v = .next s) ∧
    (∀ p : Fin 4, exec (.registerWrite .porch (BitVec.ofNat 32 (0x51800 + 4 * p.val)) v) s =
      exec (.counterClear p v) s) ∧
    (∀ m : Fin 128, write (0x51600 + 4 * m.val) v = .next (
      let f := fun b => bitOf v b && !(Tab.get none s.flagSet (counterFlag m b) == some s.tb)
      if s.ownsCounter w m = true then
        s.clearFlags { num := m, wrap := f 0, qerr := f 1, excess := f 5 } else s)) ∧
    (∀ o, o < 0x10000 → (o < 0x1600 ∨ 0x1810 ≤ o) → write (0x50000 + o) v = .next s) ∧
    (∀ e : Fin 8, bitOf v 0 = true → s.unitOn e.val = true →
      exec (.registerWrite (.engine e) (BitVec.ofNat 32 (0x40004 + 64 * e.val)) v) s =
        exec (.cvuInit ⟨e.val, by omega⟩) s) ∧
    (∀ a, a < 2 ^ 32 → (a / 0x10000 ∉ [1, 3, 4, 5, 6] ∨ addrOk a = false ∨
      (a / 0x10000 = 1 ∧ (a ≠ 0x10014 ∨ w ≠ .porch)) ∨
      (a / 0x10000 = 4 ∧ s.unitOf w ≠ some (a % 0x10000 / 0x40))) → write a v = .next s)

/-- O38. COUNTER_CLEAR asks for the porch's counters, CNV_GO releases or misses the triggers it
names, CNV_SNAP takes one coherent reading (03_inputs.md (R79), 07_converters.md (R175, R188)). -/
def Obligations.CountersTriggersAndSnapshots : Prop :=
  ∀ s : State, s.alive = true →
    (∀ (p : Fin 4) (v : Word), ∃ c : BitVec 128,
      exec (.counterClear p v) s = .next { s with lgc := { s.lgc with cclr := c } } ∧
      ∀ j, j < 128 → c.getLsbD j = (s.lgc.cclr.getLsbD j || (decide (j / 32 = p.val) &&
        v.getLsbD (j % 32) && s.porchCounter j))) ∧
    (∀ (w : Agent) (v : BitVec 4), exec (.cnvGo w v) s = .next ((s.fld.cfg.convs.filter fun i =>
      bf i.cfg 3 2 == 1 && v.getLsbD i.conv).foldl (fun acc i => acc.cnvTrigger i.conv) s)) ∧
    (∀ (c : Nat) (i : ConvImg), s.fld.cfg.convs.find? (fun x => x.conv == c) = some i →
      Tab.ok .start s.cnv.convs = true → let v := s.conv c
      (bf i.cfg 1 0 = 2 → bitOf (nth i.list v.next 0) 4 = true → v.release = false →
        v.failed = false → (s.cnvTrigger c).conv c = { v with release := true } ∧
        (s.cnvTrigger c).flagSet = s.flagSet) ∧
      (bf i.cfg 1 0 ≠ 2 → (s.cnvTrigger c).conv c = { v with tmiss := true })) ∧
    (∀ (w : Agent) (v : BitVec 4), Tab.ok (0, 0, 0) s.cnv.snaps = true → ∃ sn,
      exec (.cnvSnap w v) s = .next { s with cnv := { s.cnv with snaps := sn } } ∧
      ∀ c, Tab.get (0, 0, 0) sn c = if c < 4 ∧ v.getLsbD c = true then
        (let b := s.rbuf (if s.memIn .a = true then .a else .b) c; (b.ptr, b.seq, b.seqTb))
        else Tab.get (0, 0, 0) s.cnv.snaps c)

/-- O39. A read of TMR_TB_LO gives TB [31:0] and latches TB [63:32] for its reader; TMR_SNAP latches
TB and the named counts (R279). -/
def Obligations.TimebaseReadsAndSnapshots : Prop :=
  (∀ (s : State) (w : Agent), s.alive = true → Tab.ok .fresh s.tmr.readers = true →
    s.readReg w 0x30000 = BitVec.ofNat 32 s.tb ∧
    exec (.tbRead w) s = .next (s.afterRead w 0x30000) ∧ State.reset.readReg w 0x30004 = 0 ∧
    (∀ r, s.reader w = some r →
      let v := s.readerSt r
      exec (.tbRead w) s =
        .next (s.setReader r { v with tbHi := BitVec.ofNat 32 (s.tb / 2 ^ 32) }) ∧
      s.readReg w 0x30004 = v.tbHi ∧
      (s.tbRead w).readReg w 0x30004 = BitVec.ofNat 32 (s.tb / 2 ^ 32) ∧
      (∀ r', r' ≠ r → (s.tbRead w).readerSt r' = s.readerSt r') ∧
      (∀ lo hi : Word, let s0 := s.takeDues
        Tab.ok 0#32 v.scnt = true → ∃ sc, exec (.tmrSnap w lo hi) s =
          .next (s0.setReader r { v with snapTb := BitVec.ofNat 64 s.tb, scnt := sc }) ∧
        ∀ n, Tab.get 0#32 sc n =
          if n < 64 ∧ (hi ++ lo).getLsbD n = true then (s0.timer n).count
          else Tab.get 0#32 v.scnt n)) ∧
    (s.reader w = none → exec (.tbRead w) s = .next s ∧ s.readReg w 0x30004 = 0 ∧
      ∀ lo hi, exec (.tmrSnap w lo hi) s = .next s.takeDues)) ∧
  (∀ (s : State) (e : Fin 8), s.reader .porch = some 0 ∧ s.reader (.engine e) = some (e.val + 1)) ∧
  (∀ (s : State) (st : Bool) (i : Fin 1024) (v : Inst), s.inst st i.val = some v →
    (v.moving = false → s.reader (.inst st i) = v.engine.map (· + 1)) ∧
    (∀ e, v.moving = true → v.from_ = some e → (s.engine e).st = .draining →
      s.reader (.inst st i) = some (e + 1)))

/-- Timer `n` stands alone: it is no part of a cascade (R286). -/
def Sys2Proof.Alone (s : State) (n : Nat) : Prop :=
  n < 64 ∧ (s.timer n).casc = false ∧ (n < 63 → (s.timer (n + 1)).casc = false)

/-- O40. The owner's ARM, START, STOP, POP, CAPSW, PERIOD_WRITE and COMPARE_WRITE act on its timer
alone; another's have no effect (13_timers.md (R281, R282, R284, R285, R289, R293)). -/
def Obligations.TimerControl : Prop :=
  ∀ (s0 : State) (w : Agent) (n : Fin 64), s0.alive = true → Tab.ok .unused s0.tmr.timers = true →
    let s := s0.takeDues
    let t := s.timer n.val
    let one := fun (c : Instr) (f : Timer → Prop) => ∃ u, exec c s0 = .next u ∧ f (u.timer n.val) ∧
      (∀ j, j ≠ n.val → u.timer j = s.timer j) ∧
      u = { s with flagSet := u.flagSet, tmr := { s.tmr with timers := u.tmr.timers } }
    ((∀ x ∈ s0.tmr.timers, x.2.endDue = false ∧ x.2.cmpDue0 = false ∧ x.2.cmpDue1 = false) →
      s = s0) ∧
    (t.owned w = true → Alone s n.val →
      one (.arm w n) (fun x => x.st = .armed ∧ x.count = 0 ∧ x.queue = [] ∧ x.cfg = t.cfg ∧
        x.period = t.period) ∧
      (t.st = .armed → one (.start w n) (fun x => x.count = 0 ∧ x.period = t.period ∧
        if t.period = 0 then x.st = .done ∧ x.endDue = true else x.st = .running)) ∧
      (t.st ≠ .armed → one (.start w n) (fun x => x = { t with gomiss := true })) ∧
      one (.stop w n) (fun x => x.st = .idle ∧ x.queue = [] ∧ x.count = t.count) ∧
      one (.pop w n) (fun x => x = { t with queue := t.queue.drop 1 }) ∧
      (s.frozen n.val = false → t.st = .running → t.capStamp ≠ some s.tb → t.queue.length < 4 →
        one (.capsw w n)
          (fun x => x = { t with queue := t.queue ++ [t.count], capStamp := some s.tb })) ∧
      (s.frozen n.val = false → t.st = .running → t.capStamp ≠ some s.tb → 4 ≤ t.queue.length →
        one (.capsw w n) (fun x => x = { t with capovf := true, capStamp := some s.tb })) ∧
      (∀ v, one (.periodWrite w n v)
        (fun x => x = { t with period := v, late := x.late } ∧
          (x.late = true ↔ t.st = .running ∧ v ≤ t.count))) ∧
      (∀ v, one (.compareWrite w n false v) (fun x => x = { t with cmp0 := v }) ∧
        one (.compareWrite w n true v) (fun x => x = { t with cmp1 := v }))) ∧
    (t.owned w = false → ∀ v, exec (.arm w n) s0 = .next s ∧ exec (.start w n) s0 = .next s ∧
      exec (.stop w n) s0 = .next s ∧ exec (.pop w n) s0 = .next s ∧
      exec (.capsw w n) s0 = .next s ∧ exec (.periodWrite w n v) s0 = .next s ∧
      exec (.compareWrite w n false v) s0 = .next s ∧
      exec (.compareWrite w n true v) s0 = .next s) ∧
    (∀ lo hi : Word, exec (.tmrGo w lo hi) s0 = .next (((List.range 64).filter fun j =>
      (hi ++ lo).getLsbD j).foldl (fun acc j => acc.tmrStart w j) s))

/-- O41. A running timer steps at every P-th tick and is DONE at its period; a compare fires once,
when the count has reached it (13_timers.md (R280, R282, R283, R284)). -/
def Obligations.TimersCountAndEnd : Prop :=
  (∀ (s : State) (n : Nat) (t : Timer), s.pending = [] → s.ticking = true → s.pwr.off = false →
    s.tmr.timers = [(n, t)] → n < 64 → t.casc = false → t ≠ .unused → t.st = .running →
    s.frozen n = false → t.latched = false → t.late = false → t.endDue = false →
    t.cmpDue0 = false → t.cmpDue1 = false → t.count < t.period → t.phase < t.presc →
    ∃ u, step s = .next u ∧ u.tb = s.tb + 1 ∧
      let x := u.timer n
      let fire := fun (on fired : Bool) (c : Word) =>
        on && !fired && decide (c ≤ x.count ∧ c ≤ t.period)
      (t.phase + 1 < t.presc → x.count = t.count ∧ x.phase = t.phase + 1) ∧
      (t.phase + 1 = t.presc → x.count = t.count + 1 ∧ x.phase = 0) ∧
      x.period = t.period ∧
      (x.count = t.period → x.st = .done ∧ x.endDue = true) ∧
      (x.count ≠ t.period → x.st = .running ∧ x.endDue = false) ∧
      x.cmpDue0 = fire (bitOf t.src 24) t.fired0 t.cmp0 ∧ x.fired0 = (t.fired0 || x.cmpDue0) ∧
      x.cmpDue1 = fire (bitOf t.src 25) t.fired1 t.cmp1 ∧ x.fired1 = (t.fired1 || x.cmpDue1)) ∧
  (∀ (s : State) (n : Fin 64), s.alive = true → s.frozen n.val = false →
    Tab.ok .unused s.tmr.timers = true →
    let t := s.timer n.val
    (t.endDue = true → ∃ u, exec (.endEvent n false) s = .next u ∧
      (u.timer n.val).st = t.st ∧ (u.timer n.val).count = t.count ∧
      (u.timer n.val).endDue = false ∧ (u.timer n.val).ends = t.ends + 1) ∧
    (t.endDue = false → exec (.endEvent n false) s = .next s) ∧
    (t.st = .running → Alone s n.val → ∃ u, exec (.endEvent n true) s = .next u ∧
      (u.timer n.val).st = .idle ∧ (u.timer n.val).terr = true ∧
      ∀ j, j ≠ n.val → u.timer j = s.timer j)) ∧
  (∀ (s : State) (n : Fin 64), s.alive = true → s.frozen n.val = false →
    Tab.ok .unused s.tmr.timers = true →
    let t := s.timer n.val
    (t.cmpDue0 = true → ∃ u, exec (.compare n false) s = .next u ∧
      u.timer n.val = { t with cf0 := true, cmpDue0 := false } ∧
      ∀ j, j ≠ n.val → u.timer j = s.timer j) ∧
    (t.cmpDue1 = true → ∃ u, exec (.compare n true) s = .next u ∧
      u.timer n.val = { t with cf1 := true, cmpDue1 := false } ∧
      ∀ j, j ≠ n.val → u.timer j = s.timer j) ∧
    (t.cmpDue0 = false → exec (.compare n false) s = .next s) ∧
    (t.cmpDue1 = false → exec (.compare n true) s = .next s))

/-- O42. INIT starts the algorithm of POLY, in ALIVE mode with the alive value; data feed it byte by
byte; CVU_EXPECT compares and counts; FAULT inverts the result (14_check_values.md (R297, R299,
R300, R302, R303, R304)). -/
def Obligations.CheckValueUnits : Prop :=
  (∀ (s : State) (u : Fin 19), s.unitOn u.val = true → Tab.ok .fresh s.cvu = true →
    (∀ k < 19, (s.unit k).due = false) →
    let c := s.unit u.val
    let bytes := fun (w : Fin 3) (v : Word) => if w = 0 then [v.setWidth 8] else
      if w = 1 then [v.extractLsb' 8 8, v.setWidth 8] else
        [v.extractLsb' 24 8, v.extractLsb' 16 8, v.extractLsb' 8 8, v.setWidth 8]
    (c.alive = false → exec (.cvuInit u) s = .next (s.setUnit u.val
      { c with active := some c.poly, reg := (crcAlg c.poly).init, len := 0, fault := false,
               cmpd := false, match_ := false })) ∧
    (c.alive = true → c.upset = 0 → exec (.cvuInit u) s = .next (s.setUnit u.val
      { c with active := some c.poly, len := 0, fault := false, cmpd := false, match_ := false,
               reg := crcFeed (crcAlg c.poly) (crcAlg c.poly).init
                 [c.aliveV.extractLsb' 8 8, c.aliveV.setWidth 8],
               aliveV := if c.autoinc = true then c.aliveV + 1 else c.aliveV })) ∧
    (∀ (w : Fin 3) (v : Word), c.upset = 0 →
      exec (.cvuData u w v .none) s = .next (s.setUnit u.val (c.feed (bytes w v)))) ∧
    (∀ (w : Fin 3) (v : Word), u ≠ 18 → c.upset = 0 → (s.unit 18).upset = 0 → c.fault = false →
      (within24h c.stamps s.pwr.opsec).length < 2 → exec (.cvuData u w v .now) s =
        .next ((s.setUnit u.val { c.feed (bytes w v) with
          fault := true, faults := min 0xFF (c.faults + 1),
          stamps := s.pwr.opsec :: within24h c.stamps s.pwr.opsec }).record 0x0E01 2
            [BitVec.ofNat 8 u.val, 0#8])) ∧
    (∀ v : Word, exec (.cvuExpect u v) s = .next (s.setUnit u.val
      { c with match_ := decide (v.toNat = c.result) && !c.fault, cmpd := true,
               bad := if v.toNat = c.result then c.bad else min 0xFFFF (c.bad + 1) }))) ∧
  (∀ (d : Cvu) (p : BitVec 2), d.active = some p → d.fault = true →
    d.result = (2 ^ (crcAlg p).width - 1) ^^^ crcOut (crcAlg p) d.reg) ∧
  (∀ (d : Cvu) (a b : List Byte), (d.alive = false →
      ((d.init.feed a).feed b).result = crcOf d.poly (a ++ b)) ∧
    (d.alive = true → ((d.init.feed a).feed b).result =
      crcOf d.poly (be16 d.aliveV.toNat ++ (a ++ b))))

/-- O43. POLY selects an algorithm of Table 14.2; a change of POLY, MODE or AUTOINC takes effect at
INIT; CVU_RESULT is the finished check value, in the low bits (R297, R298). -/
def Obligations.CheckAlgorithmsAndTheirResult : Prop :=
  let nine : List Byte := [0x31, 0x32, 0x33, 0x34, 0x35, 0x36, 0x37, 0x38, 0x39]
  let alg := fun (p : BitVec 2) (w poly init : Nat) (r : Bool) (x v : Nat) =>
    crcAlg p = { width := w, poly := poly, init := init, refl := r, xorout := x } ∧ crcOf p nine = v
  alg 0 8 0x1D 0xFF false 0xFF 0x4B ∧ alg 1 16 0x1021 0xFFFF false 0 0x29B1 ∧
  alg 2 32 0x04C11DB7 0xFFFFFFFF true 0xFFFFFFFF 0xCBF43926 ∧
  alg 3 32 0x1EDC6F41 0xFFFFFFFF true 0xFFFFFFFF 0xE3069283 ∧
  (∀ g : CrcAlg, crcOrder g = if g.refl then [0, 1, 2, 3, 4, 5, 6, 7] else [7, 6, 5, 4, 3, 2, 1, 0]) ∧
  (∀ (g : CrcAlg) (r : Nat), crcOut g r = (if g.refl then bitRev g.width r else r) ^^^ g.xorout) ∧
  (∀ (c : Cvu) (o : Nat) (v : Word) (bs : List Byte), (c.write o v).result = c.result ∧
    ((c.write o v).feed bs).result = (c.feed bs).result ∧ c.init.active = some c.poly) ∧
  (∀ (c : Cvu) (p : BitVec 2), c.active = some p → c.fault = false → c.reg < 2 ^ (crcAlg p).width →
    c.result = crcOut (crcAlg p) c.reg ∧ c.result < 2 ^ (crcAlg p).width)

/-- O44. The host reads the CVU_ registers at OBSERVE; WRITE_REGS to the CVU_ block has no effect
and is answered OK; no register write of the host reaches a unit (R296). -/
def Obligations.HostReachesNoCheckUnit : Prop :=
  (∀ a, a / 0x10000 = 4 → regLevel false a = .observe) ∧
  (∀ (s s1 : State) (h : Hdr) (op a : Nat) (v : Word), s1.inLoader = false →
    admission s h (observe 0x04 true) = some (s1, op) → a / 0x10000 = 4 → a % 4 = 0 →
    exec (.writeRegs h ([0#8, 1#8, 0#8, 0#8] ++ be32 a ++ wordBytes v)) s =
      .next (answer s1 op h 0x04 stOk [0#8, 1#8])) ∧
  (∀ (s : State) (w : Agent) (a : Nat) (v : Word), a / 0x10000 = 4 →
    s.writeReg w true a v = (s, stOk))

/-- O45. A record that finds 512 pending is dropped without a sequence number and counted; the next
one that finds a place follows a LOST record with the number dropped (R398). -/
def Obligations.FullBufferDropsRecords : Prop :=
  ∀ (s : State) (code sev : Nat) (pay : List Byte), s.alive = true → s.rcd.failed = none →
    (s.unit 18).upset = 0 → Tab.ok .fresh s.cvu = true →
    let t := s.record code sev pay
    (512 ≤ s.rcd.buf.length → t.rcd.buf = s.rcd.buf ∧ t.rcd.next = s.rcd.next ∧
      t.rcd.drop = s.rcd.drop + 1 ∧ t.rcd.lost = s.rcd.lost + 1) ∧
    (s.rcd.buf.length < 512 → s.rcd.lost = 0 → ∃ r, t.rcd.buf = s.rcd.buf ++ [r] ∧ r.code = code ∧
      r.sev = sev ∧ r.payload = pay ∧ r.seq = s.rcd.next ∧ t.rcd.next = nextSeq s.rcd.next ∧
      t.rcd.drop = s.rcd.drop) ∧
    (s.rcd.buf.length < 511 → s.rcd.lost ≠ 0 → ∃ l r, t.rcd.buf = s.rcd.buf ++ [l, r] ∧
      l.code = 0x0002 ∧ l.payload.take 4 = be32 s.rcd.lost ∧ l.seq = s.rcd.next ∧ r.code = code ∧
      r.seq = nextSeq s.rcd.next ∧ t.rcd.lost = 0)

/-! ### Supplies, domains, references and start-up -/

/-- O46. A good measurement changes its figures alone, 1 ms of low ones begins power-fail; then the
logic switches off, FIELD falls, and CELLAR at the hold-up's end (12_power_and_startup.md (R260,
R261, R263, R264), 14_check_values.md (R305)). -/
def Obligations.SuppliesAndSwitchOff : Prop :=
  (∀ (s : State) (q : Side) (mV : Int), s.alive = true → s.pwr.off = false → s.pwr.pfail = false →
    (s.supply q).st = .ok →
    (18000 ≤ mV → mV ≤ 30000 →
      let v := s.supply q
      let w := { v with volt := mV / 10, runUnder := 0, runOver := 0
                        runGood := if 18600 ≤ mV then v.runGood + 1 else 0 }
      exec (.supplyMeasurement q mV) s = .next (s.setSupply q w)) ∧
    (-1000 ≤ mV → mV < 18000 → 10 ≤ (s.supply q).runUnder → s.supplyOk (otherSide q) = false →
      s.cfg.staged = none → s.cfg.load = none →
      ∃ t, exec (.supplyMeasurement q mV) s = .next t ∧ (t.supply q).st = .under ∧
        t.pwr.pfail = true ∧ t.pwr.failAt = s.now ∧ t.pwr.off = false ∧ t.fld = s.fld ∧
        t.eng = s.eng ∧ t.sea = s.sea)) ∧
  (∀ s : State, s.alive = true → s.pwr.off = false → s.pwr.pfail = true →
    Tab.ok .ready s.pwr.doms = true →
    ∃ u, exec .switchOff s = .next u ∧ u.pwr.off = true ∧ u.pwr.offAt = s.now ∧
      (∀ d, 1 ≤ d → d ≤ 6 → (u.dom d).st = .notStarted) ∧ u.por.sessions = [] ∧
      u.eng.insts = [] ∧ u.sea.imap = [] ∧ u.lnk.ports = [] ∧ u.nv.rows = s.nv.rows ∧
      (Tab.ok .fresh s.cvu = true → ∀ k, k < 18 → u.unit k = (s.unit k).cleared)) ∧
  (∀ s : State, s.alive = true → s.pwr.off = true → s.pwr.fieldFell = false →
    s.pwr.offAt + 1000000 ≤ s.now → Tab.ok .ready s.pwr.doms = true →
    ∃ u, exec .fieldFall s = .next u ∧ (∀ k, SwitchesOpen u k) ∧ (u.dom 7).st = .notStarted ∧
      u.pwr.fieldFell = true ∧ u.por = s.por ∧ u.nv = s.nv) ∧
  (∀ s : State, s.alive = true → s.supplyOk .a = false → s.supplyOk .b = false →
    s.pwr.off = true ∨ s.pwr.pfail = true →
    (if s.pwr.off then s.pwr.offAt else s.pwr.failAt) +
      (if s.pwr.charged = false then 0 else if s.pwr.weak then 20000 * s.pwr.holdup else 8000000) ≤
        s.now → s.pwr.fieldFell = false →
    ∃ u, exec .cellarFall s = .next u ∧ u.alive = false ∧ u.rcd.buf = [] ∧
      (Tab.ok .fresh s.cvu = true → u.unit 18 = (s.unit 18).cleared) ∧
      (∀ k, SwitchesOpen u k) ∧ u.nv = s.nv)

/-- O47. Each STARTUP_STEP ends one step of Table 12.3 and begins the next; hold-up, CHARGED and
operating seconds keep their counts; services are judged (12_power_and_startup.md (R261, R262, R266,
R268, R269, R271), 10_service_states.md (R243, R244, R245)). -/
def Obligations.StartUpAndOperatingTime : Prop :=
  ∀ s : State, s.alive = true →
    (s.pwr.off = false → ∀ o : StartOutcome,
      let ended := fun t : State => t.pwr.step = 9 ∧ t.pwr.holdup = o.storeCapMs ∧
        t.pwr.weak = decide (o.storeCapMs < 400) ∧ t.svc.change = 0 ∧
        t.pwr.duration = if s.pwr.result = 6 then 0 else s.tb / 200000
      let good := o.regBad = [] ∧ o.cvuBad = [] ∧ Tab.ok .ready s.pwr.doms = true
      (s.pwr.step = 1 → good → o.oscBad = [] →
        ∃ t, exec (.startupStep o) s = .next t ∧ t.pwr.step = 2 ∧ t.pwr.osc.a = .selected ∧
          t.pwr.osc.b = .standby ∧ (t.dom 4).st = .on ∧ (t.dom 5).st = .on) ∧
      (s.pwr.step = 2 → ∃ t, exec (.startupStep o) s = .next t ∧ t.pwr.step = 3 ∧
        t.fus.plost = o.plost ∧
        (∀ k, k < 128 → let w := Tab.get 0#32 t.fus.shadow k
          w &&& (s.nv.rowRead k).bits = (s.nv.rowRead k).bits ∧
          (s.nv.blows = [] → s.fus.window = true → w = (s.nv.rowRead k).bits)) ∧
        (o.plost = false → ∀ x ∈ s.nv.blows, x.bit < 32 →
          (Tab.get 0#32 t.fus.shadow x.word).getLsbD x.bit = true) ∧
        (s.pwr.result = 0 → (t.pwr.result = 1 ↔
          t.fus.uidFail = true ∨ t.fus.trimFail = true ∨ t.fus.keysFail = true))) ∧
      (s.pwr.step = 3 → good → o.ppBad = [] → s.pwr.result = 0 → s.fuseFault = false →
        (∀ q, s.isRetired (14 + sideNat q) = false ∧ (s.unit (16 + sideNat q)).failed = false ∧
          s.bankOk q = true) →
        ∃ t, exec (.startupStep o) s = .next t ∧ t.pwr.step = 4 ∧ (t.dom 1).st = .on ∧
          t.por.procA.st = .active ∧ t.por.procB.st = .standby ∧ t.por.active = .a ∧
          t = { s with pwr := t.pwr, por := t.por }) ∧
      (s.pwr.step = 4 → good → o.roomsBad = [] → o.roomsFixed = [] → o.engBad = [] →
        o.cmpBad = [] → o.ckmBad = [] → o.mxBad = [] → s.eng.ckmOut = [] → s.sea.imap = [] → s.cfg.staged = none →
        s.allRetired 2 = false → s.allRetired 3 = false → (s.dom 4).st = .on → (s.dom 5).st = .on →
        Tab.ok .start s.sea.rooms = true → Tab.ok .start s.eng.engines = true →
        ∃ t, exec (.startupStep o) s = .next t ∧ t.pwr.step = 5 ∧
          (∀ d, 2 ≤ d → d ≤ 5 → (t.dom d).st = .on) ∧
          (∀ r, r < 64 → (Tab.get 0#32 s.fus.shadow (102 + r / 32)).getLsbD (r % 32) = false →
            (t.room r).st = .free) ∧
          (∀ e, e < 8 → s.isRetired e = false → (t.engine e).st = .spare) ∧
          (∀ q, s.isRetired (8 + sideNat q) = false → t.cmp q = .inService) ∧
          t.eng.ckmA = true ∧ t.eng.ckmB = true) ∧
      (s.pwr.step = 5 →
        let u := s.startable.1
        u = { s with cvu := u.cvu, rcd := u.rcd } ∧
        (s.startable.2 = none → exec (.startupStep o) s = .next { u with pwr := { s.pwr with
          result := 3, step := 6, stepAt := s.tb } }) ∧
        (∀ m, s.startable.2 = some m →
          (s.cfg.sealNow ≠ 0 → s.cfg.sealNow ≠ m.hdr.sealCode → exec (.startupStep o) s =
            .next { u with pwr := { s.pwr with result := 4, step := 6, stepAt := s.tb } }) ∧
          (s.cfg.sealNow = 0 ∨ s.cfg.sealNow = m.hdr.sealCode → s.cfg.staged = none →
            Tab.ok .empty s.nv.slots = true →
            ∃ t, exec (.startupStep o) s = .next t ∧ t.pwr.step = 6 ∧ t.cfg.image = some m ∧
              t.cfg.slot = s.nv.active ∧ (t.slot s.nv.active).st = .running))) ∧
      (s.pwr.step = 6 → good → s.pwr.result = 0 → o.fsBad = [] → o.fxBad = false →
        o.linksBad = [] → (∀ b, 10 ≤ b → b ≤ 13 → s.isRetired b = false) →
        (∀ u, 12 ≤ u → u ≤ 15 → (s.unit u).failed = false) →
        ∃ t, exec (.startupStep o) s = .next t ∧ t.pwr.step = 7 ∧ (t.dom 6).st = .on ∧
          (t.dom 7).st = .on ∧ t.fld.seqA.st = .alive ∧ t.fld.seqB.st = .alive) ∧
      (s.pwr.step = 7 →
        (s.discovered = false → exec (.startupStep o) s = .next s) ∧
        (s.discovered = true → s.cfg.image = none →
          ∃ t, exec (.startupStep o) s = .next t ∧ ended t) ∧
        (s.discovered = true → s.cfg.image ≠ none → exec (.startupStep o) s = .next { s with pwr :=
          { s.pwr with holdup := o.storeCapMs, step := 8, stepAt := s.tb } })) ∧
      (s.pwr.step = 8 →
        (s.willRun = true → exec (.startupStep o) s = .next s) ∧
        (s.willRun = false → ∃ t, exec (.startupStep o) s = .next t ∧ ended t)) ∧
      (s.pwr.step = 9 → exec (.startupStep o) s = .next s)) ∧
    (∀ ms, s.pwr.off = false → s.pwr.holdupAt + 86400 ≤ s.pwr.opsec → 400 ≤ ms →
      exec (.holdupMeasurement ms) s = .next { s with pwr := { s.pwr with
        holdup := ms, weak := false, holdupAt := s.pwr.opsec } }) ∧
    (s.pwr.off = false →
      exec .charged s = .next { s with pwr := { s.pwr with charged := true } }) ∧
    (s.pwr.opTick + 200000000 ≤ s.now →
      let n := (s.pwr.opsec + 1) % 2 ^ 32
      (s.supplyOk .a = true ∨ s.supplyOk .b = true →
        exec .operatingSecond s = .next { s with
          pwr := { s.pwr with opsec := n, opTick := s.pwr.opTick + 200000000 },
          nv := { s.nv with opsec := if n % 60 = 0 then n else s.nv.opsec } }) ∧
      (s.supplyOk .a = false → s.supplyOk .b = false → exec .operatingSecond s =
        .next { s with pwr := { s.pwr with opTick := s.now } })) ∧
    ((∀ k, k < 19 → (s.unit k).due = false) → s.chargeUnits = s) ∧
    (let u := s.chargeUnits.autoJoin
      let worst := (((u.showAll.filter fun x => decide (x.2.1 < 2)).map fun x =>
        x.2.2.istate).foldl max 1)
      (u.showAll.map Prod.fst).Nodup → Tab.ok FnShow.none u.svc.fns = true →
      ∃ t, exec .stateRecompute s = .next t ∧
        t = { u with svc := t.svc, rcd := t.rcd, cvu := t.cvu } ∧
        (∀ x ∈ u.showAll, Tab.get FnShow.none t.svc.fns x.1 = x.2.2) ∧
        t.svc.istate = (if u.consumed = [] then worst else max worst 2) ∧
        (u.pwr.step < 9 → t.svc.state = 0) ∧
        (9 ≤ u.pwr.step → u.pwr.off = true ∨ u.cfg.image = none ∨ u.seqsIn = 0 ∨
          u.pwr.osc.stopped = true → t.svc.state = 4))

/-- O48. Domains are powered down and up by command or after a fault, and their parts are lost and
started with them (12_power_and_startup.md (R272, R273, R274, R275, R276)). -/
def Obligations.DomainsGoDownAndUp : Prop :=
  ∀ s : State, s.alive = true → Tab.ok .ready s.pwr.doms = true →
    (∀ d : BitVec 3, s.porchUp = true → 2 ≤ d.toNat → d.toNat ≤ 6 →
      s.switchingBut d.toNat = false → s.migrating = false → s.pwr.pfail = false →
      s.cfg.handover = none →
      (s.downWhy d.toNat = 0 → (s.dom d.toNat).st = .on →
        exec (.domainPowerDown d) s = .next (s.domTo d.toNat .goingDown)) ∧
      (s.downWhy d.toNat ≠ 0 → exec (.domainPowerDown d) s = .next { s with
        pwr := { s.pwr with whyDom := d.toNat, why := s.downWhy d.toNat } }) ∧
      ((s.dom d.toNat).st = .offCmd → exec (.domainPowerUp d) s = .next
        ((s.setDom d.toNat { s.dom d.toNat with retryAt := none }).domTo d.toNat .comingUp)) ∧
      ((s.dom d.toNat).st = .on → exec (.domainPowerUp d) s = .next { s with
        pwr := { s.pwr with whyDom := d.toNat, why := 11 } })) ∧
    (∀ (d : BitVec 3) (c : Instr), s.porchUp = true → c = .domainPowerDown d ∨ c = .domainPowerUp d →
      let deny := fun why : Nat => Host.Outcome.next { s with
        pwr := { s.pwr with whyDom := d.toNat, why := why } }
      (d.toNat < 2 ∨ d.toNat = 7 → exec c s = deny 9) ∧
      (2 ≤ d.toNat → d.toNat ≤ 6 → s.switchingBut d.toNat = true ∨ s.migrating = true ∨
        s.pwr.pfail = true ∨ s.cfg.handover ≠ none → exec c s = deny 10) ∧
      (2 ≤ d.toNat → d.toNat ≤ 6 → s.switchingBut d.toNat = false → s.migrating = false →
        s.pwr.pfail = false → s.cfg.handover = none → c = .domainPowerUp d →
        ((s.dom d.toNat).st = .offRetired → exec c s = deny 6) ∧
        ((s.dom d.toNat).st = .offFault → (s.dom d.toNat).held = true → exec c s = deny 12))) ∧
    (∀ d : Fin 8, (s.dom d.val).st = .goingDown →
      ∃ t, exec (.domainDownEnd d) s = .next t ∧ (t.dom d.val).st = .offCmd ∧
        (Tab.ok .fresh s.cvu = true → ∀ u, u < 18 → cvuDomain u = d.val → (t.unit u).len = 0 ∧
          (t.unit u).active = none ∧ (t.unit u).bad = 0) ∧
        (d.val = 1 → t.por.sessions = [] ∧ t.por.streams = [] ∧ t.por.boxes = [] ∧ t.por.fw = none ∧
          t.cfg.load = none ∧ t.cnv.cal = none ∧
          ∀ q, (t.proc q).st = .lost ∨ (t.proc q).st = .retired) ∧
        (∀ q, d.val = seaDom q → ∀ r, 32 * sideNat q ≤ r → r < 32 * sideNat q + 32 →
          Tab.ok .start s.sea.rooms = true →
          (t.room r).st = .off ∨ (t.room r).st = .retired) ∧
        (∀ q, d.val = engDom q → Tab.ok .start s.eng.engines = true →
          (∀ e ∈ sideEngines q, (t.engine e).st = .off ∨ (t.engine e).st = .retired) ∧
          t.cmp q ≠ .inService ∧ (t.link q).st ≠ .valid ∧ t.osc q = .off) ∧
        (d.val = 6 → t.lnk.db = [] ∧ t.lnk.roof = [] ∧
          (Tab.ok .start s.lnk.ports = true → ∀ p, p < 4 → (t.port p).st = .off)) ∧
        (d.val = 7 → (∀ k, SwitchesOpen t k) ∧ t.fld.seqA.st = .off ∧ t.fld.seqB.st = .off)) ∧
    (∀ (d : Fin 8) (o : StartOutcome), (s.dom d.val).st = .comingUp → o.cvuBad = [] →
      ∃ t, exec (.domainUpEnd d o) s = .next t ∧
        (d.val = 1 → o.ppBad = [] → s.fuseFault = false →
          (∀ q, s.isRetired (14 + sideNat q) = false ∧ (s.unit (16 + sideNat q)).failed = false ∧
            s.bankOk q = true) →
          (t.dom 1).st = .on ∧ t.por.procA.st = .active ∧ t.por.procB.st = .standby ∧
            t.por.epoch = s.por.epoch % 255 + 1) ∧
        (∀ q, d.val = seaDom q → o.roomsBad = [] → o.roomsFixed = [] → s.sea.imap = [] →
          s.cfg.staged = none → s.allRetired d.val = false → Tab.ok .start s.sea.rooms = true →
          (t.dom d.val).st = .on ∧
          ∀ r, 32 * sideNat q ≤ r → r < 32 * sideNat q + 32 →
            (Tab.get 0#32 s.fus.shadow (102 + r / 32)).getLsbD (r % 32) = false →
            (t.room r).st = .free) ∧
        (∀ q, d.val = engDom q → o.engBad = [] → o.cmpBad = [] → o.oscBad = [] →
          Tab.ok .start s.eng.engines = true → s.pwr.osc.stopped = false →
          (t.dom d.val).st = .on ∧
          (∀ e ∈ sideEngines q, s.isRetired e = false →
            (t.engine e).st = .spare ∨ (t.engine e).st = .active) ∧
          (s.isRetired (8 + sideNat q) = false → t.cmp q = .inService) ∧
          t.osc q = if s.oscIn (otherSide q) then .standby else .selected) ∧
        (d.val = 6 → o.portsBad = [] → Tab.ok .start s.lnk.ports = true →
          (t.dom 6).st = .on ∧ ∀ p, p < 4 → s.portRole p ≠ 0 → (t.port p).st = .down) ∧
        (d.val = 7 → o.fsBad = [] → o.fxBad = false → s.isRetired 12 = false →
          s.isRetired 13 = false →
          (t.dom 7).st = .on ∧ t.fld.seqA.st = .alive ∧ t.fld.seqB.st = .alive ∧
          t.fld.epoch = s.fld.epoch + 1 ∧
          ∀ m, s.cfg.image = some m → ∀ k, k < 64 → bitOf (nth m.fieldCfg.ocfg k 0) 31 = true →
            (t.fout k).cause = 11 ∧ SwitchesOpen t k)) ∧
    (∀ d : Fin 8, d.val ≠ 0 → (s.dom d.val).st = .on ∨ (s.dom d.val).st = .comingUp →
      let fs := s.pwr.opsec :: within24h (s.dom d.val).faults s.pwr.opsec
      ∃ t, exec (.domainFault d) s = .next t ∧ (t.dom d.val).st = .offFault ∧
        (t.dom d.val).faults = fs ∧
        (fs.length = 1 → t = (s.setDom d.val { s.dom d.val with
          faults := fs, held := false, retryAt := some (s.now + 200000000) }).loseDomain d.val
          .offFault) ∧
        (2 ≤ fs.length → t = (s.setDom d.val { s.dom d.val with
          faults := fs, held := true, retryAt := none }).loseDomain d.val .offFault)) ∧
    (∀ d : Fin 8, (s.dom d.val).st = .goingDown →
      exec (.domainFault d) s = .next ((s.domRecord d.val 4 1 0).loseDomain d.val .offCmd)) ∧
    ((s.dom 0).st = .on → ∃ t, exec (.domainFault 0) s = .next t ∧ t.pwr.off = true ∧
      t.pwr.pfail = false ∧ t.rcd.buf = [] ∧ t.por.sessions = [] ∧ t.eng.insts = [] ∧
      t.sea.imap = [] ∧ t.lnk.ports = [] ∧ t.fld = s.fld ∧
      ∀ d, 1 ≤ d → d ≤ 6 → (t.dom d).st = .notStarted) ∧
    (∀ (d : Fin 8) (t : Nat), (s.dom d.val).retryAt = some t → t ≤ s.now →
      (s.dom d.val).st = .offFault → (s.dom d.val).held = false → s.pwr.off = false →
      exec (.domainRetry d) s = .next ((s.setDom d.val { s.dom d.val with retryAt := none }).domTo
        d.val .comingUp))

/-- O49. A lost reference leaves the timebase on the other; of two that disagree the one farther
from WOSC is lost; WOSC is lost when both agree against it (12_power_and_startup.md (R266, R267)).
-/
def Obligations.ReferencesOfTheTimebase : Prop :=
  ∀ s : State, s.ticking = true →
    (∀ q : Side, s.oscIn .a = true → s.oscIn .b = true → s.pwr.osc.holdover = none →
      (s.osc q = .standby → s.osc (otherSide q) = .selected → ∃ t,
        exec (.lossOfSignal q) s = .next t ∧ t.osc q = .lost ∧ t.osc (otherSide q) = .selected ∧
        t.pwr.osc.stopped = false ∧ t.pwr.osc.holdover = none) ∧
      (s.osc q = .selected → s.osc (otherSide q) = .standby → ∃ t,
        exec (.lossOfSignal q) s = .next t ∧ t.osc q = .lost ∧ t.pwr.osc.stopped = false ∧
        t.pwr.osc.holdover = some (otherSide q, s.tb))) ∧
    (∀ q t, s.pwr.osc.holdover = some (q, t) → ∃ u, exec .relock s = .next u ∧
      u.osc q = .selected ∧ u.pwr.osc.holdover = none ∧ u.pwr.osc.stopped = false) ∧
    (∀ (ppm : Int) (a b : Nat), s.oscIn .a = true → s.oscIn .b = true → s.pwr.osc.holdover = none →
      (ppm.natAbs ≤ 1000 → exec (.disagreement ppm a b) s = .next { s with pwr := { s.pwr with
        osc := { s.pwr.osc with diff := ppm / 10 } } }) ∧
      (1000 < ppm.natAbs → s.pwr.osc.woscLost = false → a < b →
        ∃ t, exec (.disagreement ppm a b) s = .next t ∧ t.osc .b = .lost ∧ t.osc .a ≠ .lost) ∧
      (1000 < ppm.natAbs → s.pwr.osc.woscLost = false → b < a →
        ∃ t, exec (.disagreement ppm a b) s = .next t ∧ t.osc .a = .lost ∧ t.osc .b ≠ .lost) ∧
      (1000 < ppm.natAbs → s.pwr.osc.woscLost = true →
        ∀ q, s.osc q = .standby → s.osc (otherSide q) = .selected →
        ∃ t, exec (.disagreement ppm a b) s = .next t ∧ t.osc q = .lost ∧
          t.osc (otherSide q) = .selected)) ∧
    (∀ (q : Side) (a b : Int), s.oscIn q = true → s.oscIn (otherSide q) = false →
      s.pwr.osc.woscLost = false →
      let x := if q = .a then a else b
      let lone := fun since : Option Nat => Host.Outcome.next { s with
        pwr := { s.pwr with osc := { s.pwr.osc with loneSince := since } } }
      (x.natAbs ≤ 5000 → exec (.woscCheck false a b) s = lone none) ∧
      (5000 < x.natAbs → s.pwr.osc.loneSince = none →
        exec (.woscCheck false a b) s = lone (some s.tb)) ∧
      (5000 < x.natAbs → ∀ t0, s.pwr.osc.loneSince = some t0 → t0 + 2000000 ≤ s.tb →
        ∃ t, exec (.woscCheck false a b) s = .next t ∧ t.osc q = .lost ∧
          t.pwr.osc.stopped = true)) ∧
    (∀ a b : Int, s.oscIn .a = true → s.oscIn .b = true → s.pwr.osc.woscLost = false →
      5000 < a.natAbs → 5000 < b.natAbs → (a - b).natAbs ≤ 1000 →
      ∃ t, exec (.woscCheck true a b) s = .next t ∧ t.pwr.osc.woscLost = true ∧
        t.osc .a = s.osc .a ∧ t.osc .b = s.osc .b)

/-! ### The logic sea -/

/-- Room `p` has committed `c`: beside the sea only timers, with the flags and the converter triggers of
what falls due in them, and the observed differences may move, and in other rooms only the marks of the
comparison with a mirror. -/
def Sys2Proof.RoomCommits (s u : State) (p : Nat) (c : Cells) : Prop :=
  u = { s with sea := u.sea, tmr := u.tmr, flagSet := u.flagSet,
               cnv := { s.cnv with convs := u.cnv.convs },
               cfg := { s.cfg with dseen := u.cfg.dseen } } ∧
  (u.room p).st = (s.room p).st ∧
  (u.room p).cells = { c with due := (u.room p).cells.due } ∧
  ∀ r, r ≠ p → u.room r = { s.room r with
    differs := (u.room r).differs, cells := { (s.room r).cells with due := (u.room r).cells.due } }

/-- O50. A room that agrees commits; one that does not holds its latches and re-evaluates once:
agreement returns it, a second failure fails it (04_logic_sea.md (R86, R87, R89, R90, R91, R421)).
-/
def Obligations.RoomsEvaluateAndHold : Prop :=
  ∀ (s : State) (p : Fin 64) (key part : Nat) (m : RoomImg),
    s.evaluable p.val = some (key, part, m) → Tab.ok .start s.sea.rooms = true →
    Tab.ok .none s.sea.imap = true →
    let v := s.room p.val
    let d := s.takeDues
    let c := commitCells m v.cells (d.portsOf (decide (64 ≤ key)) v m) s.tb
    let hold := fun site => d.setRoom p.val { v with
      st := .held, heldAs := v.st, heldSite := site, cells := { v.cells with due := true, lastEval := s.tb } }
    let wait := fun n => s.setRoom p.val { v with
      cells := { v.cells with expired := v.cells.expired ++ [n] } }
    (v.st ≠ .held → part ≠ 3 → (∀ r, (s.irm key).room = some r → (s.room r).differs = false) →
      (d.evalDue p.val key m = true →
        ∃ u, exec (.evaluation p []) s = .next u ∧ RoomCommits s u p.val c) ∧
      (v.cells.loaded = true → v.cells.lastEval + 200000 ≤ s.tb →
        ∃ u, exec (.refresh p) s = .next u ∧ RoomCommits s u p.val c)) ∧
    (v.st ≠ .held → d.evalDue p.val key m = true →
      (∀ x l, exec (.evaluation p (x :: l)) s = .next (hold (if x < 960 then x else 0x3FF))) ∧
      exec (.evaluationTimeout p) s = .next (hold 0x3FF)) ∧
    (v.st = .held → part = 0 → (s.irm key).mirror = none → (s.irm key).building = none →
      v.cells.loaded = true →
      (∃ u, exec (.evaluation p []) s = .next u ∧ (u.room p.val).st = v.heldAs ∧
        (u.room p.val).first = satAdd 0xFFFF v.first 1 ∧ (u.room p.val).cells = c) ∧
      (∀ x l, s.cfg.staged = none → (s.irm key).failedAt = none → v.cells.committed = true →
        ∃ u, exec (.evaluation p (x :: l)) s = .next u ∧ (u.room p.val).st = .failed ∧
          (u.irm key).failedAt = some s.tb ∧ (u.irm key).frozen = v.cells.latches ∧
          u.sea.last = some (if x < 960 then x else 0x3FF, key % 64, p.val))) ∧
    (∀ x ∈ m.sites, ∀ t, m.sites.find? (fun y => y.site == x.site) = some x →
      Tab.get none v.cells.dly x.site = some t →
      (s.ticking = true → (t / 200 + 1) * 200 + x.delay * 200 ≤ s.tb →
        v.cells.expired.contains x.site = false →
        exec (.delayExpiry p x.site) s = .next (wait x.site)) ∧
      (s.tb < (t / 200 + 1) * 200 + x.delay * 200 →
        exec (.delayExpiry p x.site) s = .next s)) ∧
    (∀ (u : Fin 8) (x : LdImg) (t : Nat), m.lds.find? (fun y => y.unit == u.val) = some x →
      Tab.get none v.cells.ldDly u.val = some t →
      (s.ticking = true → (t / 200000 + 1) * 200000 + x.time * 200000 ≤ s.tb →
        v.cells.expired.contains (1000 + u.val) = false →
        exec (.longDelayExpiry p u) s = .next (wait (1000 + u.val))) ∧
      (s.tb < (t / 200000 + 1) * 200000 + x.time * 200000 →
        exec (.longDelayExpiry p u) s = .next s))

/-- O51. Mirrors and rewrites are loaded, hold allowances end in demand, rooms pass their
self-tests, ride-throughs end, and the monitors show their readings (04_logic_sea.md (R83, R93, R94,
R95, R96, R97, R101)). -/
def Obligations.RoomsAreRewrittenMirroredAndTested : Prop :=
  let calm := fun s : State => s.cfg.staged = none ∧ ∀ e ∈ s.sea.imap, e.2.failedAt = none ∧
    ∀ m, s.keyImg e.1 = some m → m.mirrored = false
  ∀ s : State, s.alive = true →
    (∀ p : Fin 64, s.roomOn p.val = true →
      let v := s.room p.val
      (∀ key r, s.part p.val = some (key, 2) → (s.irm key).built = false →
        (s.irm key).room = some r → (s.room r).st ≠ .held →
        exec (.mirrorBuild p) s = .next ((s.setRoom p.val { v with cells :=
          { (s.room r).cells with due := true, lastEval := s.tb, expired := [] } }).setIrm key
          { s.irm key with built := true })) ∧
      (∀ key m, s.part p.val = some (key, 3) → s.keyImg key = some m → v.cells.loaded = false →
        exec (.rewrite p) s = .next (s.setRoom p.val { v with cells := startCells m s.tb })) ∧
      (s.part p.val = none →
        (v.st = .failed → exec (.roomSelfTest p) s =
          .next (s.setRoom p.val { v with st := .testing, testAt := s.tb })) ∧
        (v.st = .free → (∀ r, r < 64 → (s.room r).st = .testing → (s.room r).afterFail = true) →
          exec (.roomSelfTest p) s =
            .next (s.setRoom p.val { v with st := .testing, testAt := s.tb, afterFail := false }))) ∧
      (v.st = .testing → Tab.ok .start s.sea.rooms = true →
        (v.afterFail = false → exec (.roomSelfTestEnd p .noneFound) s =
          .next (s.setRoom p.val { v with st := .free }).serveSea) ∧
        (v.afterFail = false → calm s → exec (.roomSelfTestEnd p .noneFound) s =
          .next (s.setRoom p.val { v with st := .free })) ∧
        (v.afterFail = true → (within24h v.trans s.pwr.opsec).length < 2 → calm s →
          ∃ u, exec (.roomSelfTestEnd p .noneFound) s = .next u ∧ u.room p.val = { v with
            st := .free, afterFail := false,
            trans := s.pwr.opsec :: within24h v.trans s.pwr.opsec }) ∧
        (v.afterFail = true → 2 ≤ (within24h v.trans s.pwr.opsec).length →
          ∃ u, exec (.roomSelfTestEnd p .noneFound) s = .next u ∧ (u.room p.val).st = .retired) ∧
        (∀ n, (v.spares < n →
            ∃ u, exec (.roomSelfTestEnd p (.repaired n)) s = .next u ∧
              (u.room p.val).st = .retired) ∧
          (n ≤ v.spares → calm s → ∃ u, exec (.roomSelfTestEnd p (.repaired n)) s = .next u ∧
            u.room p.val = { v with st := .free, afterFail := false, spares := v.spares - n } ∧
            ∀ r, r ≠ p.val → u.room r = s.room r)) ∧
        (∃ u, exec (.roomSelfTestEnd p .irreparable) s = .next u ∧
          (u.room p.val).st = .retired ∧ (calm s → ∀ r, r ≠ p.val → u.room r = s.room r)))) ∧
    (∀ (r : Fin 64) (m : RoomImg) (t : Nat), s.keyImg r.val = some m →
      (s.irm r.val).failedAt = some t → (s.irm r.val).demand = false → t + ticksMs m.hold ≤ s.tb →
      (s.irm (64 + r.val)).failedAt = none → Tab.ok .none s.sea.imap = true →
      ∃ u, exec (.holdAllowance r) s = .next u ∧
        u.sea = (s.setIrm r.val { s.irm r.val with
          demand := true, wasAt := some s.tb, was := (u.irm r.val).was }).sea ∧
        (∀ l, u.latch false r.val l = m.latchDemand l) ∧
        u = { s with sea := u.sea, tmr := u.tmr, flagSet := u.flagSet,
                     cnv := { s.cnv with convs := u.cnv.convs },
                     cfg := { s.cfg with dseen := u.cfg.dseen } }) ∧
    (∀ (p : Fin 64) (key part : Nat) (m : RoomImg) (x : PortImg) (n t : Nat),
      s.evaluable p.val = some (key, part, m) →
      m.ports.find? (fun y => y.port == x.port) = some x → x.source = .input n →
      (s.form n).sagAt = some t → t + ticksMs x.ride ≤ s.tb → (s.form n).invalid = true →
      let v := s.room p.val
      exec (.sagRideThrough p x.port) s = .next (s.setRoom p.val { v with
        rideEnded := Tab.set 0 v.rideEnded x.port (t + 1), cells := { v.cells with due := true } })) ∧
    (∀ a b x y : Nat, s.powered (seaDom .a) = true → s.powered (seaDom .b) = true →
      s.powered (engDom .a) = true → s.powered (engDom .b) = true → a ≤ 1500 → b ≤ 1500 →
      180 ≤ x → 180 ≤ y → exec (.speedMonitor [a, b] [x, y]) s = .next { s with
        sea := { s.sea with delayA := a, delayB := b }, eng := { s.eng with speedA := x, speedB := y } })

/-! ### Inputs, outputs, links and converters -/

/-- Nothing beside the field side moves. -/
def Sys2Proof.FieldOnly (s u : State) : Prop := u = { s with fld := u.fld }

/-- Unit `n` has no defect and no failure that waits to be charged. -/
def Sys2Proof.UnitClean (s : State) (n : Nat) : Prop :=
  Tab.ok .fresh s.cvu = true ∧ (s.unit n).upset = 0 ∧ (s.unit n).due = false

/-- O52. Comparators, glitch filter, debounce, off-pulses, counters and the two readings of an input
follow their times, and act no earlier (03_inputs.md (R57, R59, R60, R65, R68, R69, R74)). -/
def Obligations.InputsAreFilteredDebouncedAndCounted : Prop :=
  (∀ (s : State) (t : Fin 256) (mV : Int), s.fieldOn = true → Tab.ok .low s.fld.terms = true →
    ∃ u, exec (.inputChange t mV) s = .next u ∧
      u = { s with fld := { s.fld with terms := u.fld.terms } } ∧
      (∀ (q : Side) (x : Fin 256), (u.term q x.val).filt = (s.term q x.val).filt ∧
        (x ≠ t → u.term q x.val = s.term q x.val)) ∧
      ∀ q : Side, (11000 ≤ mV → (u.term q t.val).level = true) ∧
        (mV ≤ 5000 → (u.term q t.val).level = false) ∧
        ((u.term q t.val).level ≠ (s.term q t.val).level → (u.term q t.val).since = s.tb)) ∧
  (∀ (s : State) (q : Side) (t : Fin 256), let v := s.term q t.val
    (s.tb < v.since + 400 → exec (.glitchFilter q t) s = .next s) ∧
    (s.lives q = true → v.level ≠ v.filt → v.since + 400 ≤ s.tb → Tab.ok .low s.fld.terms = true →
      ∃ u, exec (.glitchFilter q t) s = .next u ∧ FieldOnly s u ∧
        u.term q t.val = { v with filt := v.level, filtAt := v.since } ∧
        ∀ (p : Side) (x : Fin 256), (p, x) ≠ (q, t) → u.term p x.val = s.term p x.val)) ∧
  (∀ (s : State) (q : Side) (n : Fin 192), let i := s.inp q n.val
    s.lives q = true → s.inUse n.val = true → Tab.ok .start s.fld.ins = true →
    (i.cause = 0 → i.judged ≠ i.deb →
      (s.tb / 200 < i.judgedAt / 200 + s.debounceUs n.val → i.judgedAt ≤ s.tb →
        exec (.debounce q n) s = .next s) ∧
      (i.judgedAt / 200 + s.debounceUs n.val ≤ s.tb / 200 →
        ∃ u, exec (.debounce q n) s = .next u ∧ FieldOnly s u ∧
          u.inp q n.val = { i with deb := i.judged } ∧
          ∀ (p : Side) (m : Fin 192), (p, m) ≠ (q, n) → u.inp p m.val = s.inp p m.val)) ∧
    (bf (s.icfg n.val) 31 30 = 2 → i.open_ = true → i.judged = true →
      (s.term q n.val).filt = false →
      (s.term q n.val).filtAt + 400 + ticksUs (bf (s.icfg n.val) 25 16) ≤ s.tb →
      ∃ u, exec (.offPulse q n) s = .next u ∧ FieldOnly s u ∧ (u.inp q n.val).judged = false ∧
        (u.inp q n.val).judgedAt = s.tb)) ∧
  (∀ (s : State) (q : Side) (m : Fin 128), let c := s.fcnt q m.val
    let len := ticksMs (bf (s.ccfg m.val) 31 16)
    s.lives q = true → Tab.ok .start s.fld.cnts = true →
    (s.cntMode m.val = 3 → c.gateAt + len ≤ s.tb →
      ∃ u, exec (.gateTime q m) s = .next u ∧ FieldOnly s u ∧ u.fcnt q m.val =
        { c with val := BitVec.ofNat 32 c.gate, gate := 0, gateAt := c.gateAt + len }) ∧
    (s.cntMode m.val = 4 → c.riseAt.getD c.gateAt + len + 400 ≤ s.tb →
      ∃ u, exec (.periodTimeout q m) s = .next u ∧ FieldOnly s u ∧ u.fcnt q m.val =
        { c with val := 0xFFFFFFFF, stopped := true, riseAt := none })) ∧
  (∀ (s : State) (n : Fin 192) (t : Nat), n.val ∈ s.inputsOf → Tab.ok .start s.lgc.ins = true →
    s.lgc.inBad.contains n.val = false →
    let f := s.form n.val
    let c := (s.table33 n.val).2.1
    (f.diffAt = some t → f.disagree = false → t + 4000000 ≤ s.tb →
      ∃ u, exec (.disagree n) s = .next u ∧ u.fld = s.fld ∧ (u.form n.val).invalid = true ∧
        (u.form n.val).v = false ∧ (u.form n.val).disagree = true ∧
        (u.form n.val).cause = (if c = 0 then 6 else min c 6) ∧
        ∀ m, m ≠ n.val → u.form m = s.form m) ∧
    (f.agreeAt = some t → f.disagree = true → t + 20000000 ≤ s.tb →
      ∃ u, exec (.agreement n) s = .next u ∧ u.fld = s.fld ∧
        (u.form n.val).invalid = decide (c ≠ 0) ∧ (u.form n.val).cause = c ∧
        (u.form n.val).disagree = false ∧
        (u.form n.val).v = (decide (c = 0) && (s.table33 n.val).1) ∧
        ∀ m, m ≠ n.val → u.form m = s.form m))

/-- O53. Overload, thermal shutdown, disagreeing readback, the end of a hold and silence open the
outputs they concern; a clean re-test clears the fault (09_outputs.md (R218, R220, R225, R227, R229,
R230)). -/
def Obligations.OutputFaultsOpenTheSwitches : Prop :=
  (∀ (s : State) (k : Fin 64), s.fieldOn = true →
    Tab.ok .start s.fld.outs = true → (s.fout k.val).retest = none →
    let o := s.fout k.val
    (o.cause = 0 → ∀ low, (low = true → s.single k.val = false) →
      (∃ u, exec (.overload k low) s = .next u ∧ FieldOnly s u ∧ (u.fout k.val).cause = 8 ∧
        (u.fout k.val).faultAt = s.tb ∧ SwitchesOpen u k.val ∧
        ∀ j, j ≠ k.val → u.fout j = s.fout j) ∧
      exec (.thermalShutdown k low) s = exec (.overload k low) s) ∧
    (o.cause ≠ 0 → o.faultAt < s.tb → ∀ low, (low = true → s.single k.val = false) →
      exec (.overload k low) s = .next s ∧ exec (.thermalShutdown k low) s = .next s) ∧
    (∀ (minus : Bool) (t : Nat), (if minus then o.disM else o.disP) = some t →
      s.lives .a = true → s.lives .b = true →
      (s.tb < t + 4000000 → exec (.readbackDisagree k minus) s = .next s) ∧
      (o.cause = 0 → t + 4000000 ≤ s.tb →
        ∃ u, exec (.readbackDisagree k minus) s = .next u ∧ FieldOnly s u ∧
          (u.fout k.val).cause = 10 ∧ SwitchesOpen u k.val))) ∧
  (∀ (s : State) (a : Nat), s.fld.accepted = some a → s.fld.silent = none →
    (s.lives .a = true ∨ s.lives .b = true) → s.pwr.osc.stopped = false →
    Tab.ok .start s.fld.outs = true →
    (s.tb ≤ a + s.silenceTicks → exec .silence s = .next s) ∧
    (a + s.silenceTicks < s.tb → ∃ u, exec .silence s = .next u ∧ FieldOnly s u ∧
      u.fld.silent = some s.tb ∧
      ∀ k, k < 64 → s.outHold k = false →
        ((s.fout k).phase = .load → (s.fout k).pulse ≠ .dark ∧ (s.fout k).pulse ≠ .lsDark ∧
          (s.fout k).cause = 0 ∧ (s.fout k).retest = none) → SwitchesOpen u k)) ∧
  (∀ (s : State) (k : Fin 64) (t : Nat), s.fld.silent = some t → s.outHold k.val = true →
    (s.fout k.val).silOpen = false → s.lives .a = true →
    t + ticksMs (10 * bf (s.ocfg k.val) 9 0) ≤ s.tb → (s.fout k.val).cause = 0 →
    Tab.ok .start s.fld.outs = true →
    (s.fout k.val).retest = none → (s.fout k.val).phase = .load → (s.fout k.val).pulse = .none →
    ∃ u, exec (.holdTime k) s = .next u ∧ FieldOnly s u ∧ (u.fout k.val).silOpen = true ∧
      SwitchesOpen u k.val ∧ (u.fout k.val).cause = 11) ∧
  (∀ (s : State) (k : Fin 64) (t : Nat), s.fld.seqA.st = .stopped t → t + 20000 ≤ s.tb →
    s.lives .b = true → s.fld.seqB.solo = false → Tab.ok .start s.fld.outs = true →
    ∃ u, exec (.gateHold k) s = .next u ∧ FieldOnly s u ∧ SwitchesOpen u k.val ∧
      (u.fout k.val).holdOver = true) ∧
  (∀ (s : State) (k : Fin 64) (r : Retest), s.lives .a = true → Tab.ok .start s.fld.outs = true →
    Tab.ok [] s.lgc.orst = true → (s.fout k.val).retest = some r → r.aborted = false →
    (s.fld.frame < r.frame + 3 → exec (.reTestEnd k) s = .next s) ∧
    (r.frame + 3 ≤ s.fld.frame → ∃ u, exec (.reTestEnd k) s = .next u ∧
      (u.fout k.val).retest = none ∧ (u.fout k.val).cause = r.bad ∧
      Tab.get [] u.lgc.orst k.val = [] ∧ ∀ j, j ≠ k.val → u.fout j = s.fout j))

/-- O54. Pulse frames and pulses follow the timebase; supplies, line measurements and current sums
are formed; a stopped sequencer holds its gates (02_terminals_and_phases.md (R41, R42), 03_inputs.md
(R72), 09_outputs.md (R221, R223, R225, R226)). -/
def Obligations.PulsesSuppliesAndSequencers : Prop :=
  (∀ s : State, s.fieldOn = true → s.fld.pulseCfg = s.fld.cfg →
    (s.tb / s.fld.cfg.period = s.fld.frame → exec .pulseFrame s = .next s) ∧
    (s.tb / s.fld.cfg.period ≠ s.fld.frame → ∃ u, exec .pulseFrame s = .next u ∧ FieldOnly s u ∧
      u.fld.frame = s.tb / s.fld.cfg.period ∧ u.fld.outs = s.fld.outs)) ∧
  (∀ (s : State) (k : Fin 64), s.lives .a = true → Tab.ok .start s.fld.outs = true →
    let c := s.fld.pulseCfg
    let o := s.fout k.val
    let at_ := fun pt => s.fld.frame * c.period + c.pointOff k.val pt
    let late := fun pt => if pt = .b30 ∨ pt = .e30 then 400 else 0
    (∀ pt, s.pwr.osc.stopped = false →
      (at_ pt + late pt ≤ s.tb → at_ pt ≤ o.lastPt → exec (.pulse k pt) s = .next s) ∧
      (s.tb < at_ pt + late pt → at_ pt < c.period ∨ at_ pt - c.period ≤ o.lastPt →
        exec (.pulse k pt) s = .next s)) ∧
    (o.lastPt < at_ .b → at_ .b ≤ s.tb → o.retest = none →
      ∃ u, exec (.pulse k .b) s = .next u ∧ FieldOnly s u ∧ ((u.fout k.val).cause = o.cause →
        (u.fout k.val).phase = o.phase ∧ (u.fout k.val).pulse = (match o.phase with
          | .load => if c.frameOf (at_ .b) % 2 = 0 then .dark
                     else if s.single k.val || s.sonly k.val then .none else .lsDark
          | .source => if s.canClose then .light else .missed
          | .idle => .none))) ∧
    (∀ pt, o.lastPt < at_ pt → at_ pt + 400 ≤ s.tb →
      ∃ u, exec (.pulse k pt) s = .next u ∧ FieldOnly s u ∧ (u.fout k.val).lastPt = at_ pt ∧
        (pt = .e → (u.fout k.val).pulse = .none))) ∧
  (∀ (s : State) (q : Side) (g : Fin 8) (mV : Int) (short : Bool), s.lives q = true →
    Tab.ok .start s.fld.groups = true → let v := s.grp q g.val
    (∀ t, v.lastAt = some t → s.tb < t + 2000 →
      exec (.groupSupply q g mV short) s = .next s) ∧
    ((∀ t, v.lastAt = some t → t + 2000 ≤ s.tb) →
      ∃ u, exec (.groupSupply q g mV short) s = .next u ∧ FieldOnly s u ∧
        (u.grp q g.val).volt = mV / 10 ∧ (u.grp q g.val).lastAt = some s.tb ∧
        (mV < -2000 → 2 ≤ v.runRev → (u.grp q g.val).st = .reversed) ∧
        (v.st = .normal → 20000 ≤ mV → s.fld.cfg.gthr = 0xC0A0 →
          (u.grp q g.val).st = .normal))) ∧
  (∀ (s : State) (k : Fin 64) (mV : Nat), s.lives .a = true → (s.fout k.val).phase = .idle →
    s.outLsense k.val = true → s.single k.val = false → s.fld.pulseCfg.slotOf s.tb ≠ k.val →
    let o := s.fout k.val
    (∀ t, o.lineA.lastAt = some t → s.tb < t + 2000 →
      exec (.lineSense .a k (.sense mV)) s = .next s) ∧
    ((∀ t, o.lineA.lastAt = some t → t + 2000 ≤ s.tb) →
      exec (.lineSense .a k (.sense mV)) s = .next (s.setFout k.val { o with lineA := { o.lineA with
        lastAt := some s.tb,
        hi := if 9900 < mV then min 2 (o.lineA.hi + 1) else 0,
        lo := if mV < 15 then min 2 (o.lineA.lo + 1) else 0 } }))) ∧
  (∀ (s : State) (g : Fin 8) (sum : Nat), s.lives .a = true →
    let v := Tab.get .start s.fld.sums g.val
    v.excess = decide (600 < sum) → exec (.oversum g sum) s = .next { s with fld := { s.fld with
      sums := Tab.set .start s.fld.sums g.val { v with sum := sum, since := none } } }) ∧
  (∀ (s : State) (q : Side), s.lives q = true →
    (∃ u, exec (.sequencerStop q false) s = .next u ∧ FieldOnly s u ∧
      (u.seq q).st = .stopped s.tb ∧ (u.seq q).got = none) ∧
    exec (.sequencerStop q true) s = .next (s.setSeq q { s.seq q with selfFault := true }) ∧
    (∀ t, (s.seq (otherSide q)).st = .stopped t → t + 2000 ≤ s.tb →
      exec (.peerDead q) s = .next (s.setSeq q { s.seq q with peerDead := true })))

/-- O55. Both links launch every 2,000 ticks what the matrix commands; a missing uplink frame is
silent at once; a trigger latches its mask OFF; downlink frames count (01_architecture.md (R14,
R19), 05_evaluation_engines.md (R125), 09_outputs.md (R224, R227, R233, R234, R235, R236, R237,
R426)). -/
def Obligations.LinkFramesAreLaunchedAndJudged : Prop :=
  (∀ s : State, s.tb % 2000 ≠ 0 →
    exec .uplinkLaunch s = .next s ∧ exec .downlinkFrame s = .next s) ∧
  (∀ s : State, s.ticking = true → s.tb % 2000 = 0 →
    (s.lgc.upAt ≠ some s.tb → (∀ q, (s.link q).due = none) → (∀ q, (s.seq q).selfFault = false) →
      Tab.ok .start s.fld.ins = true →
      ∃ u, exec .uplinkLaunch s = .next u ∧ u.lgc.upAt = some s.tb ∧
        u = { s with lgc := u.lgc, fld := { s.fld with trigA := 0, trigB := 0, ins := u.fld.ins } } ∧
        ∀ q, (u.link q).due = some s.tb ∧ (s.lives q = false → (u.link q).up = none) ∧
          (s.lives q = true → ∃ f, (u.link q).up = some f ∧ f.tick = s.tb ∧
            f.useq = s.tb / 2000 % 65536 ∧ f.bank = s.fld.bank ∧ f.dlast = s.fld.dlast ∧
            f.silent = s.fld.silent.isSome ∧ f.outs = (List.range 64).map (s.outRep q) ∧
            f.trig = (match q with | .a => s.fld.trigA | .b => s.fld.trigB) ∧
            ∀ n, n < 192 → s.inUse n = true → f.inv.getLsbD n = decide ((u.inp q n).cause ≠ 0) ∧
              f.rd.getLsbD n = ((u.inp q n).deb && decide ((u.inp q n).cause = 0)))) ∧
    (s.lgc.downAt ≠ some s.tb → s.pwr.off = false → 6 ≤ s.pwr.step → s.mx .a = true →
      s.mx .b = true → (∀ q, (s.link q).retired = false) → s.cfg.staged = none →
      ∃ u, exec .downlinkFrame s = .next u ∧ u.fld = s.fld ∧ u.lgc.downAt = some s.tb ∧
        u.lgc.cclr = 0 ∧ ∀ q, ∃ d, (u.link q).down = some d ∧ d.tb = s.tb ∧
          d.dseq = s.tb / 2000 % 65536 ∧ d.bank = s.lgc.bank ∧ d.solo = s.lgc.solo ∧
          d.img = s.image64 q ∧ d.cclr = s.lgc.cclr)) ∧
  (∀ (s : State) (l : Side) (f : Up) (bad : Bool), (s.link l).up = some f →
    (f.tick + 1000 < s.tb → exec (.uplinkFrame l bad) s = .next s) ∧
    (s.tb ≤ f.tick + 1000 → s.mx l = true → (s.link l).retired = false →
      (s.link l).st ≠ .faulty → UnitClean s (13 + 2 * sideNat l) →
      (s.unit (12 + 2 * sideNat l)).due = false →
      (∃ u, exec (.uplinkFrame l false) s = .next u ∧ (u.link l).up = none ∧
        (u.link l).due = none ∧ (u.link l).missRun = 0 ∧ (u.link l).last = some f ∧
        (u.link l).st = .valid) ∧
      ∃ u, exec (.uplinkFrame l true) s = .next u ∧ (u.link l).up = none ∧
        (u.link l).crcerr = min 0xFFFF ((s.link l).crcerr + 1) ∧
        (u.link l).due = (s.link l).due ∧ u.fld = s.fld ∧ u.sea = s.sea) ∧
    (s.tb ≤ f.tick + 1000 → s.mx l = true → (s.link l).retired = false →
      (s.link l).st ≠ .faulty → UnitClean s (13 + 2 * sideNat l) →
      (s.unit (12 + 2 * sideNat l)).due = false → s.lastUp (otherSide l) = none →
      Tab.ok .zero s.eng.masks = true → ∀ (t : Nat) (m : Image) (w : TrigImg), t < 32 →
      f.trig.getLsbD t = true → s.cfg.image = some m → m.trigs[t]? = some w →
      bf w.word 31 28 ≠ 2 → ∃ u, exec (.uplinkFrame l false) s = .next u ∧
        ∀ q k, s.mx q = true → k < 64 → (s.maskNow t).getLsbD k = true →
          { out := k, trig := t } ∈ u.trips q ∧
          (bitOf (m.ow k) 27 = true → u.matrix q k = false))) ∧
  (∀ (s : State) (m : Image) (q : Side) (k : Nat), s.cfg.image = some m → k < 64 →
    let w := m.ow k
    ((s.image64 q).getLsbD k = true ↔ 9 ≤ s.pwr.step ∧ bitOf w 31 = true ∧ bf w 27 24 ≠ 0 ∧
      (bitOf w 24 = true → s.latch false (bf (m.oa k) 31 26) (bf (m.oa k) 25 20) = true) ∧
      (bitOf w 25 = true → s.instOut false (bf (m.ob k) 25 16) (bf (m.ob k) 3 0) = true) ∧
      (bitOf w 26 = true → s.connBit false (bf (m.oa k) 16 9) (bf (m.oa k) 8 0) = true) ∧
      (bitOf w 27 = true → ∀ x ∈ s.trips q, x.out ≠ k))) ∧
  (∀ (s : State) (l : Side) (t : Nat), (s.link l).due = some t →
    (s.tb < t + 1000 → exec (.frameMissing l) s = .next s) ∧
    (t + 1000 ≤ s.tb → s.alive = true → ∃ u, exec (.frameMissing l) s = .next u ∧
      u.delivers l = false ∧ (u.link l).due = none ∧ (u.link l).st ≠ .valid)) ∧
  (∀ (s : State) (q : Side) (d : Down), (s.link q).down = some d →
    let s0 := s.setLink q { s.link q with down := none }
    exec (.downlinkAccept q true) s = .next s0 ∧
    (d.tb + 1000 < s.tb → exec (.downlinkAccept q false) s = .next s0) ∧
    (d.spoiled = true → exec (.downlinkAccept q false) s = .next s0) ∧
    (s.tb ≤ d.tb + 1000 → d.spoiled = false → s.lives q = true → ∃ u, exec (.downlinkAccept q false) s = .next u ∧
      u.fld.accepted = some s.tb ∧ u.fld.dlast = d.dseq ∧ (u.seq q).got = some (d.tb, d.img) ∧
      u.sea = s.sea ∧ u.eng = s.eng ∧ u.cfg = s.cfg)) ∧
  (∀ (s : State) (q : Side) (m : Image), s.cfg.staged = some m → s.lives q = true →
    s.mx q = true → ∃ u, exec (.configurationPacket q) s = .next u ∧ FieldOnly s u ∧
      u.fld.other = m.fieldCfg ∧ (u.seq q).loaded = true ∧ u.fld.cfg = s.fld.cfg ∧
      u.fld.outs = s.fld.outs) ∧
  (∀ (s : State) (c : Fin 4) (flip : List Byte),
    (nextBlock s.cnv.flyA ≠ some c.val → exec (.resultBlock .a c flip) s = .next s) ∧
    ∀ f rest, nextBlock s.cnv.flyA = some c.val → takeFlight c.val s.cnv.flyA = some (f, rest) →
      s.lives .a = true → s.mx .a = true → (s.link .a).st ≠ .faulty →
      (s.link .a).retired = false →
      (f.got s.tb flip = none → ∃ u, exec (.resultBlock .a c flip) s = .next u ∧
        u.cnv.flyA = rest ∧ u.cnv.chans = s.cnv.chans ∧ u.cnv.bufA = s.cnv.bufA ∧
        u.cnv.bufB = s.cnv.bufB ∧ u.fld = s.fld) ∧
      (∀ b e, f.got s.tb flip = some b → s.cnv.heldB.find? (fun h => h.of f) = none →
        b.entries = [e] → b.fire = false → s.memIn .a = true → Tab.ok .start s.cnv.chans = true →
        Tab.ok .start s.cnv.bufA = true →
        ∃ u, exec (.resultBlock .a c flip) s = .next u ∧ u.cnv.flyA = rest ∧ u.fld = s.fld ∧
          (u.chan e.ch).last = e.value ∧ (u.chan e.ch).lastAt = some e.tick ∧
          (u.chan e.ch).stale = false ∧ u.rbuf .a c.val = (s.rbuf .a c.val).write e ∧
          ∀ n, n ≠ e.ch → u.chan n = s.chan n) ∧
      ∀ b e, f.got s.tb flip = some b → s.cnv.heldB.find? (fun h => h.of f) = none →
        b.entries = [e] → b.fire = true → Tab.ok .start s.cnv.chans = true →
        ∃ u, exec (.resultBlock .a c flip) s = .next u ∧ u.cnv.flyA = rest ∧
          (u.chan e.ch).last = e.value ∧ (u.chan e.ch).wcf = true ∧ (u.chan e.ch).outL = true ∧
          ∀ n, n ≠ e.ch → u.chan n = s.chan n)

/-- O56. Conversions start by the pattern, by urgent requests or by a trigger; results are judged,
re-checked and sent; references and ages are checked (07_converters.md (R170, R172, R174, R176,
R177, R178, R179, R180, R182, R183), 09_outputs.md (R235, R236)). -/
def Obligations.ConvertersSampleAndCheck : Prop :=
  (∀ (s : State) (c k : Fin 4) (i : ConvImg) (t : Nat), s.convImg c.val = some i →
    s.fieldOn = true → convMode i = 1 → let v := s.conv c.val
    v.failed = false → v.retired = [] → v.heldBack = false → v.urgent = [] → v.release = false →
    (∀ x ∈ v.run, x.slice ≠ k.val) → v.startAt = some t → Tab.ok .start s.cnv.convs = true →
    (s.tb < t + nth [33, 33, 34] (v.phase % 3) 33 →
      exec (.conversionStart c k) s = .next s) ∧
    (t + nth [33, 33, 34] (v.phase % 3) 33 ≤ s.tb → ∃ u x,
      exec (.conversionStart c k) s = .next u ∧ u = { s with cnv := u.cnv } ∧
      (u.conv c.val).run = v.run ++ [x] ∧
      x.slice = k.val ∧ x.started = s.tb ∧ x.kind = .list v.next ∧
      x.ch = 8 * c.val + bf (nth i.list v.next 0) 2 0 ∧ (u.conv c.val).startAt = some s.tb ∧
      (u.conv c.val).next = (v.next + 1) % convLen i ∧
      ∀ j, j ≠ c.val → u.conv j = s.conv j)) ∧
  (∀ (s : State) (c k : Fin 4) (i : ConvImg), s.convImg c.val = some i →
    s.fieldOn = true → convMode i ≠ 0 → let v := s.conv c.val
    v.failed = false → v.retired.contains k.val = false → v.heldBack = false →
    Tab.ok .start s.cnv.convs = true →
    let triggered := convMode i = 2 ∧ bitOf (nth i.list v.next 0) 4 = true
    (∀ ch re l, v.urgent = (ch, re) :: l → (triggered → v.release = false) →
      let gone := v.abortable s.tb
      let left := v.run.filter fun x => decide (gone ≠ some x)
      let slot := (gone.map Conv.slice).getD k.val
      (s.tb < v.urgFrom ∨ v.startAt = some s.tb → exec (.conversionStart c k) s = .next s) ∧
      (v.urgFrom ≤ s.tb → v.startAt ≠ some s.tb → (∀ x ∈ left, x.slice ≠ slot) →
        (convMode i ≠ 2 ∨ left.length + 1 < v.slices) → ∃ u x,
          exec (.conversionStart c k) s = .next u ∧ u = { s with cnv := u.cnv } ∧
          (u.conv c.val).run = left ++ [x] ∧ x.slice = slot ∧ x.started = s.tb ∧
          x.ch = 8 * c.val + ch ∧ x.diag = false ∧
          x.kind = (if re = true then .recheck else .urgent) ∧ (u.conv c.val).urgent = l ∧
          (u.conv c.val).urgFrom = s.tb + pattern v.slices 0 ∧
          (u.conv c.val).recheck = (if re = true then (v.recheck + 1) % 256 else v.recheck) ∧
          (u.conv c.val).engine = (if re = true then v.engine else (v.engine + 1) % 65536) ∧
          ∀ y e, gone = some y → y.kind = .list e → (u.conv c.val).next = e % convLen i)) ∧
    (triggered →
      (v.release = false → v.urgent = [] → exec (.conversionStart c k) s = .next s) ∧
      (v.release = true → (∀ x ∈ v.run, x.slice ≠ k.val) → ∃ u x,
        exec (.conversionStart c k) s = .next u ∧ (u.conv c.val).run = v.run ++ [x] ∧
        x.kind = .list v.next ∧ x.started = s.tb ∧ (u.conv c.val).release = false ∧
        (u.conv c.val).urgent = v.urgent ∧
        (v.urgent ≠ [] → s.tb + 33 ≤ (u.conv c.val).urgFrom)))) ∧
  (∀ (s : State) (c : Fin 4) (k : Conv) (rest : List Conv) (x : Sample),
    (s.conv c.val).run = k :: rest → Tab.ok .start s.cnv.convs = true →
    Tab.ok .start s.cnv.chans = true →
    let i := s.chImg k.ch
    let raw := resultCode x i.range
    (s.tb < k.started + 10 → exec (.conversionResult c x) s = .next s) ∧
    (k.started + 10 ≤ s.tb → s.fieldOn = true → (s.conv c.val).failed = false →
      (x.coef.map coefOk).getD true = true → ∃ u, exec (.conversionResult c x) s = .next u ∧
        (u.conv c.val).run = rest ∧ (∀ n, n ≠ k.ch → u.chan n = s.chan n) ∧
        (k.diag = true → u.chan k.ch = { s.chan k.ch with ow := saturated x i.range ||
          (match (s.chan k.ch).ordinary with
            | some o => decide (i.owthr < (raw - o).natAbs)
            | none => false) }) ∧
        (k.diag = false →
          let v := (s.calAt k.ch (k.started + 10)).apply raw (saturated x i.range)
          (u.chan k.ch).ordinary = some raw ∧
          (i.confirm = false → (u.chan k.ch).outside =
            (if (s.chan k.ch).outside = true then !i.backIn v else !i.inside v)) ∧
          (i.confirm = false → (s.chan k.ch).outside = false → i.inside v = false →
            (s.conv c.val).form = [] → (s.conv c.val).waitA = false →
            (s.conv c.val).waitB = false → s.lives .a = true →
            ∃ f e, u.cnv.flyA = s.cnv.flyA ++ [f] ∧ f.conv = c.val ∧ f.blk.fire = true ∧
              f.blk.entries = [e] ∧ e.ch = k.ch ∧ e.value = v ∧ e.oob = true ∧
              e.tick = k.started + 10) ∧
          (i.confirm = true → (s.chan k.ch).outside = false → k.kind ≠ .recheck →
            (s.chan k.ch).unconf = false → i.inside v = false →
            (u.chan k.ch).unconf = true ∧ (u.chan k.ch).outside = false ∧
            (u.conv c.val).urgent = (s.conv c.val).urgent.filter (fun e => e.2) ++
              (k.ch % 8, true) :: (s.conv c.val).urgent.filter (fun e => !e.2)) ∧
          (i.confirm = true → (s.chan k.ch).outside = false → k.kind = .recheck →
            (s.chan k.ch).unconf = true →
            (u.chan k.ch).unconf = false ∧ (u.chan k.ch).outside = !i.inside v ∧
            (i.inside v = true →
              (u.conv c.val).unconf = ((s.conv c.val).unconf + 1) % 256)))) ∧
    (k.started + 10 ≤ s.tb → s.fieldOn = true → (s.conv c.val).failed = false →
      ∀ q, x.coef = some q → coefOk q = false → ∃ u, exec (.conversionResult c x) s = .next u ∧
        k.slice ∈ (u.conv c.val).retired ∧ u.cnv.chans = s.cnv.chans)) ∧
  (∀ (s : State) (c : Fin 4), s.fieldOn = true → let v := s.conv c.val
    let block : Flight := { conv := c.val, blk := blockOf (cutBlock 0 v.form).1, begun := false }
    let begun : List Flight → List Flight := begin_ c.val
    (∀ e l, v.form = e :: l →
      (s.tb < e.tick + 300 → exec (.blockClose c) s = .next s) ∧
      (e.tick + 300 ≤ s.tb → v.waitA = false → v.waitB = false →
        Tab.ok .start s.cnv.convs = true →
        ∃ u, exec (.blockClose c) s = .next u ∧ u = { s with cnv := u.cnv } ∧
          u.cnv.flyA = (if s.lives .a = true then s.cnv.flyA ++ [block] else s.cnv.flyA) ∧
          u.cnv.flyB = (if s.lives .b = true then s.cnv.flyB ++ [block] else s.cnv.flyB) ∧
          (u.conv c.val).form = (cutBlock 0 v.form).2 ∧ (u.conv c.val).run = v.run)) ∧
    ((s.mayBegin c.val .a v.waitA = false ∨ s.mayBegin c.val .b v.waitB = false →
        exec (.holdBackEnd c) s = .next s) ∧
      (s.mayBegin c.val .a v.waitA = true → s.mayBegin c.val .b v.waitB = true →
        (v.waitA = true ∨ v.waitB = true → v.heldBack = false →
          exec (.holdBackEnd c) s = .next (({ s with cnv := { s.cnv with
            flyA := begun s.cnv.flyA, flyB := begun s.cnv.flyB } } : State).setConv c.val
              { v with waitA := false, waitB := false, heldBack := false })) ∧
        (v.heldBack = true → Tab.ok .start s.cnv.convs = true →
          ∃ u, exec (.holdBackEnd c) s = .next u ∧ u = { s with cnv := u.cnv } ∧
            (v.form = [] → (u.conv c.val).heldBack = false ∧ (u.conv c.val).waitA = false ∧
              (u.conv c.val).waitB = false ∧ u.cnv.flyA = begun s.cnv.flyA) ∧
            (v.form ≠ [] → s.lives .a = true → u.cnv.flyA = begun s.cnv.flyA ++ [block] ∧
              (u.conv c.val).form = (cutBlock 0 v.form).2)))) ∧
    ((∀ t, v.refAt = some t → t + 200000 ≤ s.tb) → ∀ d,
      (d ≤ 20 → exec (.referenceCheck c d) s =
        .next (s.setConv c.val { v with refAt := some s.tb })) ∧
      (20 < d → v.failed = false → Tab.ok .start s.cnv.convs = true →
        ∃ u, exec (.referenceCheck c d) s = .next u ∧ (u.conv c.val).failed = true ∧
          (u.conv c.val).reffail = true ∧ (u.conv c.val).run = [] ∧
          ∀ j, j ≠ c.val → u.conv j = s.conv j))) ∧
  (∀ (s : State) (ch : Fin 32),
    ((s.chan ch.val).lastAt = none → exec (.stale ch) s =
      .next (s.setChan ch.val { s.chan ch.val with stale := true })) ∧
    (∀ t, (s.chan ch.val).lastAt = some t →
      (t + ticksUs (10 * (s.chImg ch.val).maxage) < s.tb → exec (.stale ch) s =
        .next (s.setChan ch.val { s.chan ch.val with stale := true })) ∧
      (s.tb ≤ t + ticksUs (10 * (s.chImg ch.val).maxage) → exec (.stale ch) s = .next s)))

/-! ### The Renig link -/

/-- O57. Ports greet every 1 ms, come up after two greetings with the own UID, go down after 3.5 ms
of silence; topology floods on, ages and renews the routes (17_fabric.md (R354, R355, R357, R358,
R359, R370)). -/
def Obligations.GreetingsAndTopology : Prop :=
  ∀ s : State, Tab.ok .start s.lnk.ports = true → (∀ p, p < 4 → UnitClean s (8 + p)) →
    (∀ p : Fin 4, s.portLive p.val = true → let v := s.port p.val
      (∀ t, v.sentAt = some t → s.tb < t + 200000 → exec (.hello p) s = .next s) ∧
      (s.ticking = true → (∀ t, v.sentAt = some t → t + 200000 ≤ s.tb) →
        let f := mkFrame 3 1 48 0x3FFF (s.portSrc p.val) s.eng.taint (s.helloBody p.val)
        (v.busyTo ≤ s.tb → ∃ u, exec (.hello p) s = .next u ∧
          u = { s with cvu := u.cvu, lnk := u.lnk, sent := s.sent ++ [.fabric p.val f] } ∧
          u.port p.val = { v with sentAt := some s.tb, busyTo := s.tb + 5 * (f.length + 4) } ∧
          ∀ q, q ≠ p.val → u.port q = s.port q) ∧
        (s.tb < v.busyTo → v.safeQ.length < 32 → exec (.hello p) s = .next (s.setPort p.val
          { v with sentAt := some s.tb, safeQ := v.safeQ ++ [{ frame := f, since := s.tb }] }))) ∧
      (∀ f, readFrame f = none → ∃ u, (exec (.helloReceived p f) s = .next u ∧
          exec (.lsaReceived p f) s = .next u ∧ exec (.sdata p f) s = .next u ∧
          exec (.cdata p f) s = .next u ∧ exec (.bdata p f) s = .next u) ∧
        u = { (s.setPort p.val { v with lcrc := satAdd 0xFFFF v.lcrc 1 }) with cvu := u.cvu }) ∧
      (∀ f x, readFrame f = some x → x.cls = 3 → x.kind = 1 → x.body.length = 36 →
        numAt x.body 16 8 = s.uid → numAt x.body 0 8 ∉ s.nv.expel → v.st = .down → 1 ≤ v.run →
        Port.delay { v with delays := (helloDelay (s.tb % 2 ^ 32) (numAt x.body 28 4)
          (numAt x.body 32 4) :: v.delays).take 16 } ≤ 200 →
        ∃ u, exec (.helloReceived p f) s = .next u ∧ (u.port p.val).st = .up ∧
          (u.port p.val).run = v.run + 1 ∧ (u.port p.val).helloAt = some s.tb ∧
          (u.port p.val).nuid = numAt x.body 0 8 ∧ u.lnk.lsaDue = true) ∧
      (∀ t, v.helloAt = some t → v.st = .up →
        (s.tb < t + 700000 → exec (.helloTimeout p) s = .next s) ∧
        (t + 700000 ≤ s.tb → ∃ u, exec (.helloTimeout p) s = .next u ∧
          (u.port p.val).st = .down ∧ (u.port p.val).timeouts = satAdd 0xFFFF v.timeouts 1)) ∧
      (∀ f x l, readFrame f = some x → x.cls = 1 → x.kind = 2 → readLsa x.body s.tb = some l →
        v.st = .up → s.portRole p.val = 1 → l.addr < 32768 → l.uid ≠ s.uid →
        l.uid ∉ s.nv.expel → (∀ g, s.fab = some g → l.addr / 256 = g.fabric) →
        (s.lnk.db.find? (fun y => y.uid == l.uid) = none →
          ∃ u, exec (.lsaReceived p f) s = .next u ∧ u.lnk.db = s.lnk.db ++ [l] ∧
            u.lnk.routeDue.isSome = true ∧
            (x.ttl ≤ 1 → u.sent = s.sent) ∧
            (s.ownAddr.isSome = true → 1 < x.ttl →
              let rest := (s.upPorts 1).filter fun q => q != p.val
              (∀ q ∈ rest, (s.port q).busyTo ≤ s.tb) → u.sent = s.sent ++ rest.map fun q =>
                Sent.fabric q (mkFrame 1 2 (x.ttl - 1) x.dst x.src x.taint x.body))) ∧
        (∀ o, s.lnk.db.find? (fun y => y.uid == l.uid) = some o → seqNewer l.seq o.seq = false →
          ∃ u, exec (.lsaReceived p f) s = .next u ∧ u = { s with cvu := u.cvu })) ∧
      (∀ f x l g, readFrame f = some x → x.cls = 1 → x.kind = 2 → readLsa x.body s.tb = some l →
        s.portRole p.val = 1 → l.uid ≠ s.uid → l.uid ∉ s.nv.expel → s.fab = some g →
        l.addr / 256 ≠ g.fabric →
        ∃ u, exec (.lsaReceived p f) s = .next u ∧ u = { (s.discard p.val 1) with cvu := u.cvu }) ∧
      (s.tb % 50000 ≠ 0 → exec (.safetyLoadWindow p) s = .next s) ∧
      (s.tb % 50000 = 0 → v.winAt ≠ s.tb → ∃ w, exec (.safetyLoadWindow p) s =
        .next (s.setPort p.val w) ∧ w = { v with
          highest := min 0xFFFF (max v.highest (v.safeBytes / 10)), safeBytes := 0, winAt := s.tb,
          safeover := if 3000 < v.safeBytes then satAdd 0xFF v.safeover 1 else v.safeover,
          loads := w.loads })) ∧
    (s.linkOn = true → s.ownAddr.isSome = true → s.lnk.lsaDue = true → s.role = 0 →
      (∀ p ∈ s.upPorts 1, (s.port p).busyTo ≤ s.tb) →
      let t := { s with lnk := { s.lnk with lsaSeq := (s.lnk.lsaSeq + 1) % 2 ^ 32,
                                            lsaAt := some s.tb, lsaDue := false } }
      ∃ u, exec .lsa s = .next u ∧ u.lnk = { t.lnk with ports := u.lnk.ports } ∧
        u.sent = s.sent ++ (s.upPorts 1).map fun p => Sent.fabric p
          (mkFrame 1 2 48 0x3FFF (s.portSrc p) s.eng.taint (t.selfLsa false).bytes)) ∧
    (∀ (uid : Long) (l : Lsa), s.linkOn = true → l ∈ s.lnk.db → l.uid = uid.toNat →
      l.lastAt + 700000000 ≤ s.tb → ∃ u, exec (.lsaAgeOut uid) s = .next u ∧ l ∉ u.lnk.db ∧
        (∀ x ∈ s.lnk.db, x.uid ≠ uid.toNat ∨ s.tb < x.lastAt + 700000000 → x ∈ u.lnk.db) ∧
        u.lnk.routeDue.isSome = true) ∧
    (s.lnk.routeDue = none → exec .routeRecompute s = .next s) ∧
    (∀ f, s.linkOn = true → s.lnk.routeDue.isSome = true → s.cfg.staged = none →
      s.fab = some f → Tab.ok .start s.lnk.prod = true → let t := s.judgePeers
      ∃ u, exec .routeRecompute s = .next u ∧ u.lnk.routeDue = none ∧
        ∀ k c, f.produced[k]? = some c → (Tab.get Prod.start u.lnk.prod k).routes =
          c.consumers.zipIdx.map fun x =>
            t.routesFor c.dual x.1.toNat (nth (Tab.get Prod.start s.lnk.prod k).routes x.2 []))

/-- O58. A produced connection is released at its period; a fresh copy is taken, the watchdog gives
the fail-safe value; control and bulk frames reach their address (17_fabric.md (R356, R359, R365,
R366, R368, R369, R370)). -/
def Obligations.ConnectionsCarryTheirValues : Prop :=
  (∀ (s : State) (k : Fin 320) (fb : FabricImg) (c : ProdImg) (src : Nat), s.fab = some fb →
    (∀ o, s.cfg.handover = some o → s.tb < o.at_) → s.ownAddr = some src → fb.produced[k.val]? = some c →
    let v := Tab.get Prod.start s.lnk.prod k.val
    (s.tb % (c.period * 50000) ≠ 0 → exec (.release k) s = .next s) ∧
    (s.tb % (c.period * 50000) = 0 → s.linkOn = true → s.ticking = true → 7 ≤ s.pwr.step →
      v.lastAt ≠ some s.tb → Tab.ok .start s.lnk.prod = true → Tab.ok .start s.lnk.ports = true →
      let alive := (v.alive + 1) % 65536
      (∃ u, exec (.release k) s = .next u ∧ Tab.get Prod.start u.lnk.prod k.val =
          { v with alive := alive, lastAt := some s.tb } ∧
        ∀ j, j ≠ k.val → Tab.get Prod.start u.lnk.prod j = Tab.get Prod.start s.lnk.prod j) ∧
      (∀ uid r leg p ports dst, c.control = false → c.consumers = [uid] → nth v.routes 0 [] = [r] →
        r.legs = [[leg], p :: ports] → s.addrFor uid.toNat = some dst → (s.port p).st = .up →
        (s.port p).busyTo ≤ s.tb → UnitClean s (8 + p) →
        let body := sdataHead r.rt leg 1 (p :: ports) 1 (decide (s.pwr.step < 9)) 0 ++
          [BitVec.ofNat 8 c.conn, BitVec.ofNat 8 c.plen] ++ be16 c.layout ++ be16 alive ++
          s.prodPayload c
        ∃ u, exec (.release k) s = .next u ∧ u.sent = s.sent ++ [.fabric p (mkFrame 0 1 48 dst src
          s.eng.taint (body ++ be32 (scrc dst src body)))]))) ∧
  (∀ (s : State) (p : Fin 4) (f : List Byte) (x : Frame), readFrame f = some x →
    s.portLive p.val = true → s.admits p.val x = true → Tab.ok .start s.lnk.ports = true →
    (∀ q, q < 4 → UnitClean s (8 + q)) →
    let b := x.body
    (x.cls = 0 → x.kind = 1 → 20 ≤ b.length →
      (some x.dst = s.ownAddr → byteAt b 1 % 32 ≤ byteAt b 0 % 32 →
        ∀ k c a, s.cfg.staged = none → s.consList false = [(k, c)] → c.control = false →
        c.conn = byteAt b 10 → some (x.src / 256 % 64) = s.fab.map FabricImg.fabric →
        s.uidAt x.src = some c.uid.toNat → c.uid.toNat ∉ s.nv.expel →
        (s.memberAt x.src = true ∨ ∀ l ∈ s.lnk.db, l.addr ≠ x.src) →
        byteAt b 11 = c.plen → numAt b 12 2 = c.layout → b.length = 20 + c.plen →
        numAt b (16 + c.plen) 4 = scrc x.dst x.src b →
        numAt b 8 2 + (s.port p.val).delay / 2 ≤ 1500 * byteAt b 6 →
        Tab.ok .start s.lnk.cons = true → let v := s.cons k
        v.st = .live → v.alive = some a → numAt b 14 2 ≠ a →
        (numAt b 14 2 + 65536 - a) % 65536 ≤ c.n → 1 ≤ (numAt b 14 2 + 65536 - a) % 65536 →
        byteAt b 7 < 128 → x.taint = false →
        ∃ u, exec (.sdata p f) s = .next u ∧ (u.cons k).st = .live ∧
          (u.cons k).val = bytesAt b 16 c.plen ∧ (u.cons k).alive = some (numAt b 14 2) ∧
          (u.cons k).lastAt = some s.tb ∧ ∀ j, j ≠ k → u.cons j = s.cons j) ∧
      (byteAt b 0 % 32 < byteAt b 1 % 32 → byteAt b 1 % 32 ≤ 16 → 1 < x.ttl →
        let ports := (List.range (byteAt b 1 % 32)).map (pathPort (numAt b 2 4))
        let next := nth ports (byteAt b 0 % 32) 0
        (s.port next).st = .up → (s.port next).busyTo ≤ s.tb →
        ∃ u, exec (.sdata p f) s = .next u ∧ u.lnk.cons = s.lnk.cons ∧
          u.sent = s.sent ++ [.fabric next (mkFrame 0 1 (x.ttl - 1) x.dst x.src x.taint
            (sdataHead (decide (128 ≤ byteAt b 0)) (byteAt b 0 / 32 % 4) (byteAt b 0 % 32 + 1) ports
              (byteAt b 6 + 1) (decide (128 ≤ byteAt b 7))
              (numAt b 8 2 + (s.port p.val).delay / 2) ++ b.drop 10))])) ∧
    (x.cls = 1 → x.kind = 0x10 → b.length = 4 + byteAt b 3 → 1 ≤ byteAt b 3 → byteAt b 3 ≤ 100 →
      (1000 < numAt b 0 2 → ∃ u, exec (.cdata p f) s = .next u ∧ u = { (s.setPort p.val
        { s.port p.val with aged := satAdd 0xFFFF (s.port p.val).aged 1 }) with cvu := u.cvu }) ∧
      (numAt b 0 2 ≤ 1000 → some x.dst = s.ownAddr → Tab.ok Ctl.none s.lnk.control = true →
        s.cfg.staged = none →
        ∃ u, exec (.cdata p f) s = .next u ∧ ∀ e ∈ s.consList false, e.2.control = true →
          e.2.conn = byteAt b 2 → s.ctlAddr e.2.uid.toNat = some x.src → e.2.plen = byteAt b 3 →
          (∀ n, s.holder x.src = some n → s.feeds n e.2 = true) →
          (Tab.get Ctl.none u.lnk.control e.1).val = bytesAt b 4 (byteAt b 3) ∧
          (Tab.get Ctl.none u.lnk.control e.1).valAt = s.tb)) ∧
    (x.cls = 2 → x.kind = 0x20 → b.length = 4 + byteAt b 2 → 1 ≤ byteAt b 2 → byteAt b 2 ≤ 112 →
      (some x.dst = s.ownAddr → ∃ u, exec (.bdata p f) s = .next u ∧ u = { s with
        cvu := u.cvu, lnk := { s.lnk with
          bulk := s.lnk.bulk ++ [(numAt b 0 2, bytesAt b 4 (byteAt b 2))] } }) ∧
      (some x.dst ≠ s.ownAddr → some (x.dst / 256 % 64) ≠ s.fab.map FabricImg.fabric →
        ∃ u, exec (.bdata p f) s = .next u ∧ u = { (s.setPort p.val
          { s.port p.val with lost := (s.port p.val).lost + 1,
                              bdrop := satAdd 0xFFFF (s.port p.val).bdrop 1 }) with
            cvu := u.cvu }))) ∧
  (∀ (s : State) (k : Fin 320) (c : ConsImg) (t : Nat), s.alive = true → s.cfg.staged = none →
    s.consImg false k.val = some c → c.control = false → Tab.ok .start s.lnk.cons = true →
    let v := s.cons k.val
    v.lastAt = some t → v.st ≠ .wait → v.st ≠ .failsafe →
    (s.tb ≤ t + c.n * c.period * 50000 → exec (.watchdog k) s = .next s) ∧
    (t + c.n * c.period * 50000 < s.tb → ∃ u, exec (.watchdog k) s = .next u ∧
      (u.cons k.val).st = .failsafe ∧ (u.cons k.val).val = c.failsafe ∧
      (u.cons k.val).fsentries = satAdd 255 v.fsentries 1 ∧
      ∀ j, j ≠ k.val → u.cons j = s.cons j))

/-- O59. A frame leaves a free port at once, waits in the queue of its class for a busy one, or is
counted where that is full; the queues go by class (17_fabric.md (R353, R367, R370)). -/
def Obligations.PortQueuesAreServedByClass : Prop :=
  (∀ (s : State) (p : Nat) (f : List Byte), Tab.ok .start s.lnk.ports = true →
    let v := s.port p
    let w : Waiting := { frame := f, since := s.tb }
    (v.busyTo ≤ s.tb → UnitClean s (8 + p) → (s.emit p f).sent = s.sent ++ [.fabric p f] ∧
      (s.emit p f).port p = { v with
        busyTo := s.tb + 5 * (f.length + 4)
        safeBytes := if byteAt f 0 / 64 = 0 then v.safeBytes + f.length + 4 else v.safeBytes } ∧
      ∀ q, q ≠ p → (s.emit p f).port q = s.port q) ∧
    (s.tb < v.busyTo →
      (byteAt f 0 / 64 = 1 → s.emit p f = s.setPort p
        (if v.ctrlQ.length < 256 then { v with ctrlQ := v.ctrlQ ++ [w] }
         else { v with cfull := satAdd 0xFFFF v.cfull 1 })) ∧
      (byteAt f 0 / 64 = 2 → s.emit p f = s.setPort p
        (if v.bulkQ.length < 64 then { v with bulkQ := v.bulkQ ++ [w] }
         else if some (numAt f 4 2) = s.ownAddr then { v with refused := satAdd 0xFFFF v.refused 1 }
         else { v with bdrop := satAdd 0xFFFF v.bdrop 1 })) ∧
      (byteAt f 0 / 64 = 0 ∨ byteAt f 0 / 64 = 3 → s.emit p f = s.setPort p
        (if v.safeQ.length < 32 then { v with safeQ := v.safeQ ++ [w] }
         else { v with safedrop := satAdd 0xFF v.safedrop 1 })))) ∧
  (∀ (s : State) (p : Nat), Tab.ok .start s.lnk.ports = true →
    let v := s.port p
    let u := s.servePort p
    (s.tb < v.busyTo → u = s) ∧
    (v.safeQ = [] → v.ctrlQ = [] → v.bulkQ = [] → u = s) ∧
    (v.busyTo ≤ s.tb → UnitClean s (8 + p) → (∀ c ∈ v.ctrlQ, c.age s.tb ≤ 1000) →
      (∀ w ws, v.safeQ = w :: ws → u.sent = s.sent ++ [.fabric p (s.departing p w)] ∧
        (u.port p).safeQ = ws ∧ (u.port p).ctrlQ = v.ctrlQ ∧ (u.port p).bulkQ = v.bulkQ) ∧
      (∀ c cs b bs, v.safeQ = [] → v.ctrlQ = c :: cs → v.bulkQ = b :: bs →
        (v.ctrlShare ≤ 3 * v.bulkShare → u.sent = s.sent ++ [.fabric p (s.departing p c)] ∧
          (u.port p).ctrlQ = cs ∧ (u.port p).bulkQ = b :: bs ∧
          (u.port p).ctrlShare = v.ctrlShare + c.frame.length + 4) ∧
        (3 * v.bulkShare < v.ctrlShare → u.sent = s.sent ++ [.fabric p (s.departing p b)] ∧
          (u.port p).ctrlQ = c :: cs ∧ (u.port p).bulkQ = bs ∧
          (u.port p).bulkShare = v.bulkShare + b.frame.length + 4))) ∧
    ∀ q, q ≠ p → u.port q = s.port q) ∧
  (∀ (s : State) (p : Nat) (w : Waiting) (x : Frame), readFrame w.frame = some x → x.cls = 0 →
    10 ≤ x.body.length →
    let acc := min 0xFFFF (numAt x.body 8 2 + (s.tb - w.since) / 2)
    let b := x.body.take 8 ++ be16 acc ++ x.body.drop 10
    readFrame (s.departing p w) = some { x with body := b }) ∧
  (∀ s : State, s.pending = [] → s.ticking = true → s.linkOn = true → s.tmr.timers = [] →
    s.pwr.off = false → s.por.boxes = [] →
    step s = .next ((List.range 4).foldl State.servePort { s with tb := s.tb + 1 }))

/-! ### The host and the outputs -/

/-- O60. No mailbox command and no register write by the porch, PWR_DOMCTL apart, turns an output
command ON (01_architecture.md (R19, R21), 16_porch_and_mailboxes.md (R335), 17_fabric.md (R362)).
-/
def Obligations.HostSetsNoOutput : Prop :=
  ∀ (s t : State) (c : Instr), Canonical s →
    ((requestOf c).isSome = true ∨ ∃ a v, c = .registerWrite .porch a v ∧ a ≠ 0x10014) →
    (∀ h b, c = .writeRegs h b → ∀ i, numAt b (4 + 8 * i) 4 ≠ 0x10014) →
    (∀ k r, k < 64 → (s.irm k).room = some r → r ∉ s.freeRooms ∧ r ∉ s.stagedRooms) →
    exec c s = .next t → ∀ (q : Side) (k : Nat), t.matrix q k = true →
      s.matrix q k = true ∨ ∃ h b m, c = .peerExpel h b ∧ s.cfg.image = some m ∧
        bitOf (m.ow k) 26 = true
end

