-- ==== Sys2Proof/Laws/Kept.lean ====
section
/-! SUPPORT. What every operation leaves as it was: the queue of waiting commands, the timebase and the
rows of the fuse array. Only the tick, the loss of the CELLAR domain and the blow of a fuse touch any of
the three; their own lemmas stand at the end. -/

namespace Sys2Proof.Machine

/-- Queue, timebase and fuse array of a state. -/
def State.kept (s : State) : List Instr × Nat × Tab FuseRow := (s.pending, s.tb, s.nv.rows)

@[simp] theorem kept_mk (p t f se fl nv pw fu rc tm cv fi lg cn sea en sv cf po ln) :
    (State.mk p t f se fl nv pw fu rc tm cv fi lg cn sea en sv cf po ln).kept = (p, t, nv.rows) := rfl

@[simp] theorem kept_eta (s : State) : (s.pending, s.tb, s.nv.rows) = s.kept := rfl

theorem kept_eq {s t : State} (h : t.kept = s.kept) :
    t.pending = s.pending ∧ t.tb = s.tb ∧ t.nv.rows = s.nv.rows :=
  ⟨congrArg Prod.fst h, congrArg (fun x => x.2.1) h, congrArg (fun x => x.2.2) h⟩

@[simp] theorem kept_ite (c : Prop) [Decidable c] (a b : State) :
    (if c then a else b).kept = if c then a.kept else b.kept := by split <;> rfl

@[simp] theorem ite_fst {α β : Type} (c : Prop) [Decidable c] (a b : α × β) :
    (if c then a else b).1 = if c then a.1 else b.1 := by split <;> rfl

@[simp] theorem foldl_kept {α : Type} (f : State → α → State) (h : ∀ a x, (f a x).kept = a.kept)
    (l : List α) (s : State) : (l.foldl f s).kept = s.kept := by
  induction l generalizing s with
  | nil => rfl
  | cons x l ih => rw [List.foldl_cons, ih, h]

@[simp] theorem foldl_fst_kept {α β : Type} (f : State × β → α → State × β)
    (h : ∀ a x, (f a x).1.kept = a.1.kept) (l : List α) (s : State × β) :
    (l.foldl f s).1.kept = s.1.kept := by
  induction l generalizing s with
  | nil => rfl
  | cons x l ih => rw [List.foldl_cons, ih, h]

@[simp] theorem Nv.point_rows (n : Nv) (k : Nat) : (n.point k).rows = n.rows := rfl


/-! ### Ops -/

@[simp] theorem State.setDom_kept (s : State) (d : Nat) (v : Domain) :
    (State.setDom s d v).kept = s.kept := by simp [State.setDom]

@[simp] theorem State.setUnit_kept (s : State) (u : Nat) (c : Cvu) :
    (State.setUnit s u c).kept = s.kept := by simp [State.setUnit]

@[simp] theorem State.recUnit_kept (s : State) (bytes : List Byte) :
    (State.recUnit s bytes).kept = s.kept := by simp [State.recUnit]

@[simp] theorem State.recCheck_kept (s : State) (bytes : List Byte) :
    (State.recCheck s bytes).1.kept = s.kept := by simp [State.recCheck]

@[simp] theorem State.enter_kept (s : State) (code sev : Nat) (payload : List Byte) (staged :
    Bool) (tick : Nat) :
    (State.enter s code sev payload staged tick).kept = s.kept := by
  unfold State.enter
  dsimp only
  (repeat' split) <;> simp

@[simp] theorem State.flushIf_kept (s : State) (b : Bool) :
    (State.flushIf s b).kept = s.kept := by simp [State.flushIf]

@[simp] theorem State.recordOnce_kept (s : State) (code sev : Nat) (payload : List Byte) (staged :
    Bool) (tick : Option Nat) :
    (State.recordOnce s code sev payload staged tick).kept = s.kept := by
  simp [State.recordOnce]

@[simp] theorem State.recFail_kept (s : State) (why : RecFail) :
    (State.recFail s why).kept = s.kept := by simp [State.recFail]

@[simp] theorem State.recFaults_kept (n : Nat) (c : Cvu) (s : State) :
    (State.recFaults n c s).kept = s.kept := by
  induction n generalizing c s with
  | zero => rfl
  | succ n ih =>
    unfold State.recFaults
    dsimp only
    split
    · rfl
    · rw [ih]
      split <;> simp

@[simp] theorem State.record_kept (s : State) (code sev : Nat) (payload : List Byte) (staged :
    Bool) (tick : Option Nat) :
    (State.record s code sev payload staged tick).kept = s.kept := by simp [State.record]

@[simp] theorem State.takeFree_kept (s : State) :
    (State.takeFree s).kept = s.kept := by simp [State.takeFree]

@[simp] theorem State.noteFault_kept (s : State) (u : Nat) (was : Cvu) :
    (State.noteFault s u was).kept = s.kept := by simp [State.noteFault]

@[simp] theorem State.runUnit_kept (s : State) (u : Nat) (f : Cvu → Cvu) :
    (State.runUnit s u f).kept = s.kept := by simp [State.runUnit]

@[simp] theorem State.checkWith_kept (s : State) (u : Nat) (poly : BitVec 2) (bytes : List Byte)
    (crc : Nat) :
    (State.checkWith s u poly bytes crc).1.kept = s.kept := by simp [State.checkWith]

@[simp] theorem State.checkFree_kept (s : State) (u : Nat) :
    (State.checkFree s u).kept = s.kept := by simp [State.checkFree]

@[simp] theorem State.failUnit_kept (s : State) (u : Nat) :
    (State.failUnit s u).kept = s.kept := by simp [State.failUnit]

@[simp] theorem State.charged_kept (s : State) (u : Nat) :
    (State.charged s u).kept = s.kept := by simp [State.charged]

@[simp] theorem State.fuseKick_kept (s : State) :
    (State.fuseKick s).kept = s.kept := by simp [State.fuseKick]

@[simp] theorem State.setShadow_kept (s : State) (w b : Nat) :
    (State.setShadow s w b).kept = s.kept := by simp [State.setShadow]

@[simp] theorem State.addBlow_kept (s : State) (x : Blow) :
    (State.addBlow s x).kept = s.kept := by simp [State.addBlow]

@[simp] theorem State.blow_kept (s : State) (w b : Nat) :
    (State.blow s w b).kept = s.kept := by simp [State.blow]

@[simp] theorem State.retireRoomBit_kept (s : State) (r : Nat) :
    (State.retireRoomBit s r).kept = s.kept := by simp [State.retireRoomBit]

@[simp] theorem State.retireBit_kept (s : State) (b : Nat) :
    (State.retireBit s b).kept = s.kept := by simp [State.retireBit]

@[simp] theorem State.advanceCounter_kept (s : State) (base words top : Nat) :
    (State.advanceCounter s base words top).kept = s.kept := by simp [State.advanceCounter]

@[simp] theorem State.finish_kept (s : State) (op status : Nat) (body : List Byte) :
    (State.finish s op status body).kept = s.kept := by simp [State.finish]

@[simp] theorem State.noteFlag_kept (s : State) (k : Nat) :
    (State.noteFlag s k).kept = s.kept := by simp [State.noteFlag]


/-! ### FieldOps -/

@[simp] theorem State.setSeq_kept (s : State) (q : Side) (v : Seq) :
    (State.setSeq s q v).kept = s.kept := by
  unfold State.setSeq
  (repeat' split) <;> simp

@[simp] theorem State.setTerm_kept (s : State) (q : Side) (t : Nat) (v : Term) :
    (State.setTerm s q t v).kept = s.kept := by simp [State.setTerm]

@[simp] theorem State.setInp_kept (s : State) (q : Side) (n : Nat) (v : SeqIn) :
    (State.setInp s q n v).kept = s.kept := by simp [State.setInp]

@[simp] theorem State.setFcnt_kept (s : State) (q : Side) (m : Nat) (v : SeqCnt) :
    (State.setFcnt s q m v).kept = s.kept := by simp [State.setFcnt]

@[simp] theorem State.setGrp_kept (s : State) (q : Side) (g : Nat) (v : SeqGroup) :
    (State.setGrp s q g v).kept = s.kept := by simp [State.setGrp]

@[simp] theorem State.setFout_kept (s : State) (k : Nat) (v : FOut) :
    (State.setFout s k v).kept = s.kept := by simp [State.setFout]

@[simp] theorem State.updFout_kept (s : State) (k : Nat) (f : FOut → FOut) :
    (State.updFout s k f).kept = s.kept := by simp [State.updFout]


/-! ### Inputs -/

@[simp] theorem State.fireTrigs_kept (s : State) (q : Side) (p : TrigImg → Bool) :
    (State.fireTrigs s q p).kept = s.kept := by
  unfold State.fireTrigs
  (repeat' split) <;> simp

@[simp] theorem State.putDeb_kept (s : State) (q : Side) (n : Nat) (v : Bool) :
    (State.putDeb s q n v).kept = s.kept := by simp [State.putDeb]

@[simp] theorem State.judge_kept (s : State) (q : Side) (n : Nat) (v : Bool) :
    (State.judge s q n v).kept = s.kept := by simp [State.judge]

@[simp] theorem State.setCause_kept (s : State) (q : Side) (n c : Nat) :
    (State.setCause s q n c).kept = s.kept := by simp [State.setCause]

@[simp] theorem State.refreshInp_kept (s : State) (q : Side) (n : Nat) :
    (State.refreshInp s q n).kept = s.kept := by
  unfold State.refreshInp
  (repeat' split) <;> simp

@[simp] theorem State.refreshInputs_kept (s : State) (p : Nat → Bool) :
    (State.refreshInputs s p).kept = s.kept := by simp [State.refreshInputs]

@[simp] theorem State.holdInputs_kept (s : State) (k : Nat) (on : Bool) :
    (State.holdInputs s k on).kept = s.kept := by simp [State.holdInputs]

@[simp] theorem State.patternBad_kept (s : State) (q : Side) (n code slot : Nat) :
    (State.patternBad s q n code slot).kept = s.kept := by simp [State.patternBad]

@[simp] theorem State.judgeLoad_kept (s : State) (q : Side) (n k : Nat) (lev : Bool) (at_ : Nat) :
    (State.judgeLoad s q n k lev at_).kept = s.kept := by simp [State.judgeLoad]

@[simp] theorem State.judgeSource_kept (s : State) (q : Side) (n k : Nat) (lev : Bool) (at_ : Nat)
    :
    (State.judgeSource s q n k lev at_).kept = s.kept := by
  unfold State.judgeSource
  dsimp only
  (repeat' split) <;> simp

@[simp] theorem State.judgeEdge_kept (s : State) (q : Side) (n : Nat) (lev : Bool) (at_ before :
    Nat) :
    (State.judgeEdge s q n lev at_ before).kept = s.kept := by
  unfold State.judgeEdge
  dsimp only
  (repeat' split) <;> simp

@[simp] theorem State.putCnt_kept (s : State) (q : Side) (m : Nat) (c : SeqCnt) :
    (State.putCnt s q m c).kept = s.kept := by simp [State.putCnt]

@[simp] theorem State.countQuad_kept (s : State) (q : Side) (m : Nat) (onB lev : Bool) (at_ : Nat)
    :
    (State.countQuad s q m onB lev at_).kept = s.kept := by simp [State.countQuad]

@[simp] theorem State.countEdge_kept (s : State) (q : Side) (m : Nat) (lev : Bool) (at_ : Nat) :
    (State.countEdge s q m lev at_).kept = s.kept := by
  unfold State.countEdge
  (repeat' split) <;> simp

@[simp] theorem State.pointInput_kept (s : State) (q : Side) (n k : Nat) (pt : PulsePoint) (x :
    Nat) (pulsed : Bool) :
    (State.pointInput s q n k pt x pulsed).kept = s.kept := by
  unfold State.pointInput
  (repeat' split) <;> simp

@[simp] theorem State.pointInputs_kept (s : State) (k : Nat) (pt : PulsePoint) (x : Nat) (pulsed :
    Bool) :
    (State.pointInputs s k pt x pulsed).kept = s.kept := by simp [State.pointInputs]

@[simp] theorem State.frameInput_kept (s : State) (q : Side) (n : Nat) :
    (State.frameInput s q n).kept = s.kept := by
  unfold State.frameInput
  (repeat' split) <;> simp

@[simp] theorem State.standing_kept (s : State) (q : Side) (n : Nat) :
    (State.standing s q n).kept = s.kept := by
  unfold State.standing
  (repeat' split) <;> simp

@[simp] theorem State.standingInputs_kept (s : State) (q : Side) :
    (State.standingInputs s q).kept = s.kept := by simp [State.standingInputs]


/-! ### Outputs -/

@[simp] theorem State.setPhase_kept (s : State) (k : Nat) (p : Phase) :
    (State.setPhase s k p).kept = s.kept := by
  unfold State.setPhase
  dsimp only
  (repeat' split) <;> simp

@[simp] theorem State.refreshOut_kept (s : State) (k : Nat) :
    (State.refreshOut s k).kept = s.kept := by simp [State.refreshOut]

@[simp] theorem State.refreshOuts_kept (s : State) :
    (State.refreshOuts s).kept = s.kept := by simp [State.refreshOuts]

@[simp] theorem State.faultOut_kept (s : State) (k cause slot : Nat) :
    (State.faultOut s k cause slot).kept = s.kept := by
  unfold State.faultOut
  dsimp only
  (repeat' split) <;> simp

@[simp] theorem State.foreign_kept (s : State) (k j : Nat) :
    (State.foreign s k j).kept = s.kept := by simp [State.foreign]

@[simp] theorem State.silenceOpen_kept (s : State) (k : Nat) :
    (State.silenceOpen s k).kept = s.kept := by simp [State.silenceOpen]

@[simp] theorem State.stampDiffer_kept (s : State) (k : Nat) :
    (State.stampDiffer s k).kept = s.kept := by simp [State.stampDiffer]

@[simp] theorem State.readEdge_kept (s : State) (q : Side) (k : Nat) (minus : Bool) (at_ before :
    Nat) :
    (State.readEdge s q k minus at_ before).kept = s.kept := by simp [State.readEdge]

@[simp] theorem State.steadyAll_kept (s : State) (x : Nat) :
    (State.steadyAll s x).kept = s.kept := by simp [State.steadyAll]

@[simp] theorem State.measureLine_kept (s : State) (q : Side) (k : Nat) (m : LineMeas) :
    (State.measureLine s q k m).kept = s.kept := by
  unfold State.measureLine
  (repeat' split) <;> simp

@[simp] theorem State.setSensorSwitch_kept (s : State) (g : Nat) (isOpen : Bool) :
    (State.setSensorSwitch s g isOpen).kept = s.kept := by simp [State.setSensorSwitch]

@[simp] theorem State.groupEffects_kept (s : State) (g : Nat) (was : GroupSt) :
    (State.groupEffects s g was).kept = s.kept := by simp [State.groupEffects]

@[simp] theorem State.refreshField_kept (s : State) :
    (State.refreshField s).kept = s.kept := by simp [State.refreshField]

@[simp] theorem State.stopSeq_kept (s : State) (q : Side) :
    (State.stopSeq s q).kept = s.kept := by simp [State.stopSeq]

@[simp] theorem State.unsource_kept (s : State) (q : Side) (n : Nat) :
    (State.unsource s q n).kept = s.kept := by simp [State.unsource]

@[simp] theorem State.reframed_kept (s : State) (old f : Nat) :
    (State.reframed s old f).kept = s.kept := by simp [State.reframed]

@[simp] theorem State.pulseBegin_kept (s : State) (k f : Nat) :
    (State.pulseBegin s k f).kept = s.kept := by simp [State.pulseBegin]

@[simp] theorem State.pulseEnd_kept (s : State) (k : Nat) :
    (State.pulseEnd s k).kept = s.kept := by simp [State.pulseEnd]

@[simp] theorem State.pulsePoint_kept (s : State) (k : Nat) (pt : PulsePoint) (x : Nat) :
    (State.pulsePoint s k pt x).kept = s.kept := by
  unfold State.pulsePoint
  (repeat' split) <;> simp


/-! ### Timers -/

@[simp] theorem State.setTimer_kept (s : State) (n : Nat) (t : Timer) :
    (State.setTimer s n t).kept = s.kept := by simp [State.setTimer]

@[simp] theorem State.updTimer_kept (s : State) (n : Nat) (f : Timer → Timer) :
    (State.updTimer s n f).kept = s.kept := by simp [State.updTimer]

@[simp] theorem State.capture_kept (s : State) (n : Nat) :
    (State.capture s n).kept = s.kept := by simp [State.capture]

@[simp] theorem State.captureFrom_kept (s : State) (kind : Nat) (arg : Nat → Bool) (edge : Nat →
    Bool) (who : Timer → Bool) :
    (State.captureFrom s kind arg edge who).kept = s.kept := by simp [State.captureFrom]

@[simp] theorem State.endStop_kept (s : State) (n : Nat) :
    (State.endStop s n).kept = s.kept := by simp [State.endStop]

@[simp] theorem State.releaseTimer_kept (s : State) (n : Nat) :
    (State.releaseTimer s n).kept = s.kept := by simp [State.releaseTimer]

@[simp] theorem State.onChain_kept (s : State) (n : Nat) (f : Timer → Timer) :
    (State.onChain s n f).kept = s.kept := by simp [State.onChain]

@[simp] theorem State.tmrPop_kept (s : State) (w : Agent) (n : Nat) :
    (State.tmrPop s w n).kept = s.kept := by simp [State.tmrPop]

@[simp] theorem State.tmrCapsw_kept (s : State) (w : Agent) (n : Nat) :
    (State.tmrCapsw s w n).kept = s.kept := by simp [State.tmrCapsw]

@[simp] theorem State.tmrStop_kept (s : State) (w : Agent) (n : Nat) :
    (State.tmrStop s w n).kept = s.kept := by simp [State.tmrStop]

@[simp] theorem State.tmrArm_kept (s : State) (w : Agent) (n : Nat) :
    (State.tmrArm s w n).kept = s.kept := by simp [State.tmrArm]

@[simp] theorem State.startOne_kept (s : State) (n : Nat) :
    (State.startOne s n).kept = s.kept := by simp [State.startOne]

@[simp] theorem State.tmrStart_kept (s : State) (w : Agent) (n : Nat) :
    (State.tmrStart s w n).kept = s.kept := by simp [State.tmrStart]

@[simp] theorem State.tmrGo_kept (s : State) (w : Agent) (lo hi : Word) :
    (State.tmrGo s w lo hi).kept = s.kept := by simp [State.tmrGo]

@[simp] theorem State.setReader_kept (s : State) (r : Nat) (v : TmrReader) :
    (State.setReader s r v).kept = s.kept := by simp [State.setReader]

@[simp] theorem State.tbRead_kept (s : State) (w : Agent) :
    (State.tbRead s w).kept = s.kept := by
  unfold State.tbRead
  (repeat' split) <;> simp

@[simp] theorem State.tmrSnap_kept (s : State) (w : Agent) (lo hi : Word) :
    (State.tmrSnap s w lo hi).kept = s.kept := by
  unfold State.tmrSnap
  (repeat' split) <;> simp

@[simp] theorem State.periodWrite_kept (s : State) (w : Agent) (n : Nat) (v : Word) :
    (State.periodWrite s w n v).kept = s.kept := by simp [State.periodWrite]

@[simp] theorem State.compareWrite_kept (s : State) (w : Agent) (n : Nat) (one : Bool) (v : Word)
    :
    (State.compareWrite s w n one v).kept = s.kept := by simp [State.compareWrite]

@[simp] theorem State.statWrite_kept (s : State) (w : Agent) (n : Nat) (v : Word) :
    (State.statWrite s w n v).kept = s.kept := by simp [State.statWrite]

@[simp] theorem State.cnvTrigger_kept (s : State) (c : Nat) :
    (State.cnvTrigger s c).kept = s.kept := by simp [State.cnvTrigger]

@[simp] theorem State.triggerAll_kept (s : State) (src : Nat) (sel : ConvImg → Bool) :
    (State.triggerAll s src sel).kept = s.kept := by simp [State.triggerAll]

@[simp] theorem State.count1_kept (s : State) (n : Nat) (l : Nat) :
    (State.count1 s n l).kept = s.kept := by
  induction l generalizing s n with
  | zero => rfl
  | succ l ih =>
    unfold State.count1
    (repeat' (first | (simp [ih]; done) | split)) <;> simp_all

@[simp] theorem State.takeEnd_kept (s : State) (n : Nat) :
    (State.takeEnd s n).kept = s.kept := by simp [State.takeEnd]

@[simp] theorem State.takeTerr_kept (s : State) (n : Nat) :
    (State.takeTerr s n).kept = s.kept := by simp [State.takeTerr]

@[simp] theorem State.takeCompare_kept (s : State) (n : Nat) (one : Bool) :
    (State.takeCompare s n one).kept = s.kept := by simp [State.takeCompare]

@[simp] theorem State.takeDue_kept (s : State) (n : Nat) :
    (State.takeDue s n).kept = s.kept := by simp [State.takeDue]

@[simp] theorem State.takeDues_kept (s : State) :
    (State.takeDues s).kept = s.kept := by simp [State.takeDues]

@[simp] theorem State.stepTimer_kept (s : State) (n : Nat) :
    (State.stepTimer s n).kept = s.kept := by simp [State.stepTimer]

@[simp] theorem State.startLatch_kept (s : State) (st : Bool) (room latch : Nat) (rise : Bool) :
    (State.startLatch s st room latch rise).kept = s.kept := by simp [State.startLatch]

@[simp] theorem State.dropTimers_kept (s : State) (st : Bool) (i : Nat) :
    (State.dropTimers s st i).kept = s.kept := by simp [State.dropTimers]

@[simp] theorem State.idleTimers_kept (s : State) (e : Nat) :
    (State.idleTimers s e).kept = s.kept := by simp [State.idleTimers]


/-! ### Reads -/

@[simp] theorem State.setInst_kept (s : State) (st : Bool) (i : Nat) (v : Option Inst) :
    (State.setInst s st i v).kept = s.kept := by simp [State.setInst]

@[simp] theorem State.setRoom_kept (s : State) (r : Nat) (v : Room) :
    (State.setRoom s r v).kept = s.kept := by simp [State.setRoom]

@[simp] theorem State.setIrm_kept (s : State) (key : Nat) (v : IRoom) :
    (State.setIrm s key v).kept = s.kept := by simp [State.setIrm]

@[simp] theorem State.latchTrips_kept (s : State) (t : Nat) (m : Long) :
    (State.latchTrips s t m).kept = s.kept := by simp [State.latchTrips]

@[simp] theorem State.fire_kept (s : State) (t : Nat) :
    (State.fire s t).kept = s.kept := by simp [State.fire]

@[simp] theorem State.seeDiffer_kept (s : State) :
    (State.seeDiffer s).kept = s.kept := by simp [State.seeDiffer]


/-! ### LinkOps -/

@[simp] theorem State.setLink_kept (s : State) (l : Side) (v : Link) :
    (State.setLink s l v).kept = s.kept := by
  unfold State.setLink
  (repeat' split) <;> simp

@[simp] theorem State.linkRecord_kept (s : State) (l : Side) (code : Nat) :
    (State.linkRecord s l code).kept = s.kept := by simp [State.linkRecord]

@[simp] theorem State.judgeFaulty_kept (s : State) (l : Side) :
    (State.judgeFaulty s l).kept = s.kept := by simp [State.judgeFaulty]

@[simp] theorem State.countLink_kept (s : State) (l : Side) (crc : Bool) :
    (State.countLink s l crc).kept = s.kept := by
  unfold State.countLink
  dsimp only
  (repeat' split) <;> simp

@[simp] theorem State.judgeDead_kept (s : State) (q : Side) :
    (State.judgeDead s q).kept = s.kept := by simp [State.judgeDead]

@[simp] theorem State.formInput_kept (s : State) (n : Nat) :
    (State.formInput s n).kept = s.kept := by simp [State.formInput]

@[simp] theorem State.formInputs_kept (s : State) :
    (State.formInputs s).kept = s.kept := by simp [State.formInputs]

@[simp] theorem State.keepFormed_kept (s : State) :
    (State.keepFormed s).kept = s.kept := by simp [State.keepFormed]

@[simp] theorem State.counterRecord_kept (s : State) (m : Nat) :
    (State.counterRecord s m).kept = s.kept := by simp [State.counterRecord]

@[simp] theorem State.leaveTrigs_kept (s : State) (l : Side) (num : Nat) (v : Word) :
    (State.leaveTrigs s l num v).kept = s.kept := by
  unfold State.leaveTrigs
  (repeat' split) <;> simp

@[simp] theorem State.formCnt_kept (s : State) (l : Side) (tick : Nat) (both : Bool) (r : CntRep)
    :
    (State.formCnt s l tick both r).kept = s.kept := by simp [State.formCnt]

@[simp] theorem State.formOut_kept (s : State) (l : Side) (k : Nat) (r : OutRep) :
    (State.formOut s l k r).kept = s.kept := by simp [State.formOut]

@[simp] theorem State.formGroup_kept (s : State) (g : Nat) (r : GroupRep) :
    (State.formGroup s g r).kept = s.kept := by simp [State.formGroup]

@[simp] theorem State.missLink_kept (s : State) (l : Side) :
    (State.missLink s l).kept = s.kept := by simp [State.missLink]

@[simp] theorem State.reportTrig_kept (s : State) (l : Side) (t : Nat) :
    (s.reportTrig l t).2.kept = s.kept := by
  unfold State.reportTrig
  dsimp only
  (repeat' split) <;> simp

@[simp] theorem State.takeUp_kept (s : State) (l : Side) (f : Up) :
    (State.takeUp s l f).kept = s.kept := by
  simp only [State.takeUp, State.judgeDead_kept]
  rw [foldl_kept]
  · simp
  · intro a x
    (repeat' split) <;> simp

@[simp] theorem State.goodUp_kept (s : State) (l : Side) (f : Up) :
    (State.goodUp s l f).kept = s.kept := by simp [State.goodUp]

@[simp] theorem State.chargeLink_kept (s : State) (l : Side) :
    (State.chargeLink s l).kept = s.kept := by simp [State.chargeLink]

@[simp] theorem State.upCheck_kept (s : State) (l : Side) (f : Up) (bad : Bool) :
    (State.upCheck s l f bad).1.kept = s.kept := by simp [State.upCheck]

@[simp] theorem State.clearCounter_kept (s : State) (m : Nat) :
    (State.clearCounter s m).kept = s.kept := by simp [State.clearCounter]

@[simp] theorem State.unflag_kept (s : State) (f : FlagClear) :
    (State.unflag s f).kept = s.kept := by simp [State.unflag]

@[simp] theorem State.restartList_kept (s : State) (c : Nat) :
    (State.restartList s c).kept = s.kept := by simp [State.restartList]

@[simp] theorem State.changeBank_kept (s : State) (b : Bool) :
    (State.changeBank s b).kept = s.kept := by simp [State.changeBank]

@[simp] theorem State.endOutReset_kept (s : State) (k status : Nat) :
    (State.endOutReset s k status).kept = s.kept := by simp [State.endOutReset]

@[simp] theorem State.startRetest_kept (s : State) (k : Nat) :
    (State.startRetest s k).kept = s.kept := by simp [State.startRetest]

@[simp] theorem State.downCommands_kept (s : State) (d : Down) :
    (State.downCommands s d).kept = s.kept := by
  simp [State.downCommands]
  try intro _
  rw [foldl_kept]
  · simp
  · intro a x
    (repeat' split) <;> simp

@[simp] theorem State.endHolds_kept (s old : State) :
    (State.endHolds s old).kept = s.kept := by simp [State.endHolds]

@[simp] theorem State.takeSolo_kept (s : State) (d : Down) :
    (State.takeSolo s d).kept = s.kept := by simp [State.takeSolo]

@[simp] theorem State.applyImage_kept (s : State) :
    (State.applyImage s).kept = s.kept := by simp [State.applyImage]

@[simp] theorem State.endSilence_kept (s : State) (d : Down) :
    (State.endSilence s d).kept = s.kept := by
  unfold State.endSilence
  (repeat' split) <;> simp

@[simp] theorem State.linkDiffer_kept (s : State) :
    (State.linkDiffer s).kept = s.kept := by
  simp only [State.linkDiffer]
  rw [foldl_kept]
  intro a x
  (repeat' split) <;> simp

@[simp] theorem State.goodDown_kept (s : State) (q : Side) (d : Down) :
    (State.goodDown s q d).kept = s.kept := by simp [State.goodDown]


/-! ### PorchOps -/

@[simp] theorem State.setProc_kept (s : State) (q : Side) (v : Proc) :
    (State.setProc s q v).kept = s.kept := by
  unfold State.setProc
  (repeat' split) <;> simp

@[simp] theorem State.setSession_kept (s : State) (k : Nat) (v : Option Session) :
    (State.setSession s k v).kept = s.kept := by simp [State.setSession]

@[simp] theorem State.post_kept (s : State) (x : Sent) :
    (State.post s x).kept = s.kept := by simp [State.post]

@[simp] theorem State.response_kept (s : State) (h : Hdr) (opcode status : Nat) (body : List Byte)
    :
    (State.response s h opcode status body).1.kept = s.kept := by simp [State.response]

@[simp] theorem State.sendBoxes_kept (s : State) :
    (State.sendBoxes s).kept = s.kept := by simp [State.sendBoxes]

@[simp] theorem State.respond_kept (s : State) (h : Hdr) (opcode status : Nat) (body : List Byte)
    :
    (State.respond s h opcode status body).kept = s.kept := by simp [State.respond]

@[simp] theorem State.respondBare_kept (s : State) (h : Hdr) (opcode status : Nat) (body : List
    Byte) :
    (State.respondBare s h opcode status body).kept = s.kept := by simp [State.respondBare]

@[simp] theorem State.touch_kept (s : State) (k : Nat) :
    (State.touch s k).kept = s.kept := by
  unfold State.touch
  (repeat' split) <;> simp

/-! A request is judged, and its command's own rules may touch nothing of the three. -/

@[simp] theorem State.serve_kept (s : State) (h : Hdr) (k : Kind) (shaped : Bool) (op : Nat)
    (eff : State → Nat → Answer) (he : ∀ t o, (eff t o).1.kept = t.kept) :
    (s.serve h k shaped op eff).kept = s.kept := by
  unfold State.serve
  dsimp only
  (repeat' split) <;> simp [he]

@[simp] theorem State.inSession_kept (s : State) (h : Hdr) (k : Kind) (shaped : Bool)
    (eff : State → Nat → Answer) (he : ∀ t o, (eff t o).1.kept = t.kept) :
    (s.inSession h k shaped eff).kept = s.kept := by
  unfold State.inSession
  dsimp only
  (repeat' split) <;> simp [he, State.heard]

@[simp] theorem State.request_kept (s : State) (h : Hdr) (k : Kind) (shaped : Bool)
    (eff : State → Nat → Answer) (he : ∀ t o, (eff t o).1.kept = t.kept) :
    (s.request h k shaped eff).kept = s.kept := by
  unfold State.request
  (repeat' split) <;> simp [he]

@[simp] theorem State.heard_kept (s : State) (k : Nat) (own : Bool) :
    (State.heard s k own).kept = s.kept := by simp [State.heard]


/-! ### ConvOps -/

@[simp] theorem State.setConv_kept (s : State) (c : Nat) (v : Cnv1) :
    (State.setConv s c v).kept = s.kept := by simp [State.setConv]

@[simp] theorem State.setChan_kept (s : State) (n : Nat) (v : Chan) :
    (State.setChan s n v).kept = s.kept := by simp [State.setChan]

@[simp] theorem State.sendBlock_kept (s : State) (c : Nat) (b : Block) (rest : List Entry) :
    (State.sendBlock s c b rest).kept = s.kept := by simp [State.sendBlock]

@[simp] theorem State.closeBlock_kept (s : State) (c : Nat) :
    (State.closeBlock s c).kept = s.kept := by
  unfold State.closeBlock
  dsimp only
  (repeat' split) <;> simp

@[simp] theorem State.addEntry_kept (s : State) (c : Nat) (e : Entry) :
    (State.addEntry s c e).kept = s.kept := by simp [State.addEntry]

@[simp] theorem State.scResult_kept (s : State) (n : Nat) (v : Int) :
    (State.scResult s n v).kept = s.kept := by
  unfold State.scResult
  (repeat' split) <;> simp

@[simp] theorem State.loadRec_kept (s : State) (u n : Nat) (r : CalRec) (bad : Bool) :
    (State.loadRec s u n r bad).kept = s.kept := by simp [State.loadRec]

@[simp] theorem State.loadCal_kept (s : State) (bad : List Nat) :
    (State.loadCal s bad).kept = s.kept := by simp [State.loadCal]

@[simp] theorem State.retireSlice_kept (s : State) (c k : Nat) :
    (State.retireSlice s c k).kept = s.kept := by simp [State.retireSlice]

@[simp] theorem State.diagResult_kept (s : State) (c n : Nat) (x : Sample) :
    (State.diagResult s c n x).kept = s.kept := by simp [State.diagResult]

@[simp] theorem State.dataResult_kept (s : State) (c n : Nat) (k : Conv) (x : Sample) :
    (State.dataResult s c n k x).kept = s.kept := by simp [State.dataResult]

@[simp] theorem State.setRbuf_kept (s : State) (h : Side) (c : Nat) (v : RBuf) :
    (State.setRbuf s h c v).kept = s.kept := by
  unfold State.setRbuf
  (repeat' split) <;> simp

@[simp] theorem State.feedStreams_kept (s : State) (c : Nat) (e : Entry) :
    (State.feedStreams s c e).kept = s.kept := by simp [State.feedStreams]

@[simp] theorem State.takeEntry_kept (s : State) (c : Nat) (e : Entry) (fire : Bool) :
    (State.takeEntry s c e fire).kept = s.kept := by
  simp [State.takeEntry]
  try intro _
  rw [foldl_kept]
  · simp
  · intro a x
    (repeat' split) <;> simp

@[simp] theorem State.takeBlock_kept (s : State) (c : Nat) (b : Block) :
    (State.takeBlock s c b).kept = s.kept := by simp [State.takeBlock]


/-! ### Converters -/

@[simp] theorem State.landed_kept (s : State) (l : Side) (c : Nat) (rest : List Flight) :
    (State.landed s l c rest).kept = s.kept := by
  unfold State.landed
  (repeat' split) <;> simp

@[simp] theorem State.dropHeld_kept (s : State) (l : Side) (f : Flight) :
    (State.dropHeld s l f).kept = s.kept := by
  unfold State.dropHeld
  (repeat' split) <;> simp

@[simp] theorem State.holdBlock_kept (s : State) (l : Side) (f : Flight) (got : Block) :
    (State.holdBlock s l f got).kept = s.kept := by
  unfold State.holdBlock
  (repeat' split) <;> simp

@[simp] theorem State.arrive_kept (s : State) (l : Side) (f : Flight) (flip : List Byte) :
    (State.arrive s l f flip).kept = s.kept := by
  unfold State.arrive
  (repeat' split) <;> simp

@[simp] theorem State.cnvGo_kept (s : State) (v : BitVec 4) :
    (State.cnvGo s v).kept = s.kept := by simp [State.cnvGo]

@[simp] theorem State.cnvSnap_kept (s : State) (v : BitVec 4) :
    (State.cnvSnap s v).kept = s.kept := by simp [State.cnvSnap]


/-! ### Calibration -/

@[simp] theorem State.setCal_kept (s : State) (k : Option Cal) :
    (State.setCal s k).kept = s.kept := by simp [State.setCal]

@[simp] theorem State.calZero_kept (s : State) (session chan op : Nat) :
    (State.calZero s session chan op).1.kept = s.kept := by simp [State.calZero]

@[simp] theorem State.calFull_kept (s : State) (session chan : Nat) (v : Int) (op : Nat) :
    (State.calFull s session chan v op).1.kept = s.kept := by
  unfold State.calFull
  (repeat' split) <;> simp

@[simp] theorem State.calCommit_kept (s : State) (session chan : Nat) :
    (State.calCommit s session chan).1.kept = s.kept := by
  unfold State.calCommit
  (repeat' split) <;> simp

@[simp] theorem State.calDiscard_kept (s : State) (session chan : Nat) :
    (State.calDiscard s session chan).1.kept = s.kept := by simp [State.calDiscard]


/-! ### StageOps -/

@[simp] theorem State.setSlot_kept (s : State) (k : Nat) (v : Slot) :
    (State.setSlot s k v).kept = s.kept := by simp [State.setSlot]

@[simp] theorem State.setSlotSt_kept (s : State) (k : Nat) (st : SlotSt) :
    (State.setSlotSt s k st).kept = s.kept := by simp [State.setSlotSt]

@[simp] theorem State.restartClock_kept (s : State) :
    (State.restartClock s).kept = s.kept := by simp [State.restartClock]

@[simp] theorem State.roomToTest_kept (s : State) (r : Nat) (afterFail : Bool) :
    (State.roomToTest s r afterFail).kept = s.kept := by simp [State.roomToTest]

@[simp] theorem State.dropStagedResets_kept (s : State) :
    (State.dropStagedResets s).kept = s.kept := by
  simp only [State.dropStagedResets]
  rw [foldl_kept]
  intro a x
  (repeat' split) <;> simp

@[simp] theorem State.endStage_kept (s : State) (why : StageEnd) :
    (State.endStage s why).kept = s.kept := by
  unfold State.endStage
  (repeat' split) <;> simp


/-! ### RecorderOps -/

@[simp] theorem State.clearedSince_kept (s old : State) :
    (State.clearedSince s old).1.kept = s.kept := by
  unfold State.clearedSince
  (repeat' split) <;> simp

@[simp] theorem State.recClear_kept (s : State) (session : Nat) (ip : Nat) :
    (State.recClear s session ip).1.kept = s.kept := by
  unfold State.recClear
  (repeat' split) <;> simp

@[simp] theorem State.countRead_kept (s : State) (rs : List Rec) :
    (State.countRead s rs).kept = s.kept := by simp [State.countRead]

@[simp] theorem State.storeRecs_kept (s : State) (n : Nat) :
    (State.storeRecs s n).kept = s.kept := by simp [State.storeRecs]

@[simp] theorem State.writeStore_kept (s : State) :
    (State.writeStore s).kept = s.kept := by simp [State.writeStore]

@[simp] theorem State.persistSeconds_kept (s : State) :
    (State.persistSeconds s).kept = s.kept := by simp [State.persistSeconds]

@[simp] theorem State.persistAtFail_kept (s : State) :
    (State.persistAtFail s).kept = s.kept := by simp [State.persistAtFail]


/-! ### EngineOps -/

@[simp] theorem State.setEngine_kept (s : State) (e : Nat) (v : Engine) :
    (State.setEngine s e v).kept = s.kept := by simp [State.setEngine]

@[simp] theorem State.setCmp_kept (s : State) (q : Side) (v : CmpSt) :
    (State.setCmp s q v).kept = s.kept := by
  unfold State.setCmp
  (repeat' split) <;> simp

@[simp] theorem State.setEngSt_kept (s : State) (e : Nat) (st : EngSt) :
    (State.setEngSt s e st).kept = s.kept := by simp [State.setEngSt]

@[simp] theorem State.logicRecord_kept (s : State) (st : Bool) (i : InstImg) (old new : FnSt) :
    (State.logicRecord s st i old new).kept = s.kept := by simp [State.logicRecord]

@[simp] theorem State.toSafe_kept (s : State) (st : Bool) (i : InstImg) :
    (State.toSafe s st i).kept = s.kept := by
  unfold State.toSafe
  (repeat' split) <;> simp

@[simp] theorem State.dropResets_kept (s : State) (v : Inst) :
    (State.dropResets s v).kept = s.kept := by simp [State.dropResets]

@[simp] theorem State.shedInst_kept (s : State) (key : Nat) :
    (State.shedInst s key).kept = s.kept := by
  unfold State.shedInst
  dsimp only
  (repeat' split) <;> simp

@[simp] theorem State.placeInst_kept (s : State) (key e : Nat) :
    (State.placeInst s key e).kept = s.kept := by
  unfold State.placeInst
  dsimp only
  (repeat' split) <;> simp

@[simp] theorem State.shedRecord_kept (s : State) (before : Word) :
    (State.shedRecord s before).kept = s.kept := by simp [State.shedRecord]

@[simp] theorem State.evict_kept (s : State) (e : Nat) :
    (State.evict s e).kept = s.kept := by
  simp only [State.evict, State.seeDiffer_kept, State.shedRecord_kept]
  rw [foldl_kept]
  intro a x
  (repeat' split) <;> simp

@[simp] theorem State.applyPlan_kept (s : State) (p : Plan) :
    (State.applyPlan s p).kept = s.kept := by simp [State.applyPlan]

@[simp] theorem State.replace_kept (s : State) :
    (State.replace s).kept = s.kept := by simp [State.replace]

@[simp] theorem State.startTest_kept (s : State) (e : Nat) (why : TestWhy) :
    (State.startTest s e why).kept = s.kept := by simp [State.startTest]

@[simp] theorem State.joinOne_kept (s : State) (need : Bool) :
    (State.joinOne s need).kept = s.kept := by
  unfold State.joinOne
  (repeat' split) <;> simp

@[simp] theorem State.autoJoin_kept (s : State) :
    (State.autoJoin s).kept = s.kept := by
  unfold State.autoJoin
  simp

@[simp] theorem State.redistribute_kept (s : State) :
    (State.redistribute s).kept = s.kept := by simp [State.redistribute]

@[simp] theorem State.settleEngine_kept (s : State) (e : Nat) :
    (State.settleEngine s e).kept = s.kept := by
  unfold State.settleEngine
  dsimp only
  (repeat' split) <;> simp

@[simp] theorem State.settle_kept (s : State) :
    (State.settle s).kept = s.kept := by simp [State.settle]

@[simp] theorem State.noJudge_kept (s : State) :
    (State.noJudge s).kept = s.kept := by
  simp [State.noJudge]
  intro _
  rw [foldl_kept]
  intro a x
  (repeat' split) <;> simp

@[simp] theorem State.retireCmp_kept (s : State) (q : Side) :
    (State.retireCmp s q).kept = s.kept := by simp [State.retireCmp]

@[simp] theorem State.chargeCmp_kept (s : State) (q : Side) :
    (State.chargeCmp s q).kept = s.kept := by
  unfold State.chargeCmp
  (repeat' split) <;> simp

@[simp] theorem State.retireEngine_kept (s : State) (e : Nat) :
    (State.retireEngine s e).kept = s.kept := by simp [State.retireEngine]

@[simp] theorem State.announce_kept (s : State) :
    (State.announce s).kept = s.kept := by simp [State.announce]

@[simp] theorem State.taintRecord_kept (s : State) (e event : Nat) :
    (State.taintRecord s e event).kept = s.kept := by simp [State.taintRecord]

@[simp] theorem State.joinTaint_kept (s : State) (e : Nat) :
    (State.joinTaint s e).kept = s.kept := by simp [State.joinTaint]

@[simp] theorem takeP2_kept (e : Nat) (acc : State × Nat × Nat) (i : InstImg) :
    (takeP2 e acc i).1.kept = acc.1.kept := by
  unfold takeP2
  (repeat' split) <;> simp

@[simp] theorem State.startP2_kept (s : State) (e : Nat) :
    (State.startP2 s e).kept = s.kept := by
  unfold State.startP2
  split <;> simp


/-! ### Snapshots -/

@[simp] theorem State.clearFlags_kept (s : State) (f : FlagClear) :
    (State.clearFlags s f).kept = s.kept := by simp [State.clearFlags]


/-! ### SeaOps -/

@[simp] theorem State.roomRecord_kept (s : State) (r key event site : Nat) :
    (State.roomRecord s r key event site).kept = s.kept := by simp [State.roomRecord]

@[simp] theorem State.latchEdges_kept (s old : State) (k : Nat) :
    (State.latchEdges s old k).kept = s.kept := by
  unfold State.latchEdges
  (repeat' split) <;> simp

@[simp] theorem State.dropRoom_kept (s : State) (r : Nat) :
    (State.dropRoom s r).kept = s.kept := by simp [State.dropRoom]

@[simp] theorem State.markLatches_kept (s : State) (key : Nat) :
    (State.markLatches s key).kept = s.kept := by
  unfold State.markLatches
  (repeat' split) <;> simp

@[simp] theorem State.dropMirror_kept (s : State) (key : Nat) (failed : Bool) :
    (State.dropMirror s key failed).kept = s.kept := by
  unfold State.dropMirror
  dsimp only
  (repeat' split) <;> simp

@[simp] theorem State.startRewrite_kept (s : State) (key : Nat) :
    (State.startRewrite s key).kept = s.kept := by
  unfold State.startRewrite
  dsimp only
  (repeat' split) <;> simp

@[simp] theorem State.startMirror_kept (s : State) (key : Nat) :
    (State.startMirror s key).kept = s.kept := by
  unfold State.startMirror
  dsimp only
  (repeat' split) <;> simp

@[simp] theorem State.serveSea_kept (s : State) :
    (State.serveSea s).kept = s.kept := by simp [State.serveSea]

@[simp] theorem State.failImage_kept (s0 : State) (key : Nat) :
    (State.failImage s0 key).kept = s0.kept := by
  unfold State.failImage
  dsimp only
  (repeat' split) <;> simp

@[simp] theorem State.failRoom_kept (s : State) (r site : Nat) :
    (State.failRoom s r site).kept = s.kept := by
  unfold State.failRoom
  dsimp only
  (repeat' split) <;> simp

@[simp] theorem State.disagreeRoom_kept (s : State) (r site : Nat) :
    (State.disagreeRoom s r site).kept = s.kept := by simp [State.disagreeRoom]

@[simp] theorem State.compareMirror_kept (s : State) (key : Nat) :
    (State.compareMirror s key).kept = s.kept := by
  unfold State.compareMirror
  dsimp only
  (repeat' split) <;> simp

@[simp] theorem State.commitRoom_kept (s : State) (r key part : Nat) (m : RoomImg) :
    (State.commitRoom s r key part m).kept = s.kept := by
  unfold State.commitRoom
  dsimp only
  (repeat' split) <;> simp


/-! ### Validate -/

@[simp] theorem State.sectCrcs_kept (s : State) (l : List Sect) :
    (State.sectCrcs s l).1.kept = s.kept := by
  induction l generalizing s with
  | nil => rfl
  | cons x l ih =>
    unfold State.sectCrcs
    (repeat' (first | (simp [ih]; done) | split)) <;> simp_all

@[simp] theorem State.imageCrc_kept (s : State) (bs : List Byte) (len : Nat) (l : List Sect) :
    (State.imageCrc s bs len l).1.kept = s.kept := by simp [State.imageCrc]

@[simp] theorem State.verdict_kept (s : State) (bs : List Byte) (len : Nat) :
    (State.verdict s bs len).1.kept = s.kept := by
  unfold State.verdict
  (repeat' split) <;> simp


/-! ### FabricOps -/

@[simp] theorem State.setPort_kept (s : State) (p : Nat) (v : Port) :
    (State.setPort s p v).kept = s.kept := by simp [State.setPort]

@[simp] theorem State.portRecord_kept (s : State) (p old new : Nat) :
    (State.portRecord s p old new).kept = s.kept := by simp [State.portRecord]

@[simp] theorem State.routesDue_kept (s : State) :
    (State.routesDue s).kept = s.kept := by simp [State.routesDue]

@[simp] theorem State.discard_kept (s : State) (p cls : Nat) :
    (State.discard s p cls).kept = s.kept := by simp [State.discard]

@[simp] theorem State.departed_kept (s : State) (v : Port) :
    (State.departed s v).kept = s.kept := by simp [State.departed]

@[simp] theorem State.portTo_kept (s : State) (p : Nat) (st : PortSt) :
    (State.portTo s p st).kept = s.kept := by simp [State.portTo]

@[simp] theorem State.chargePort_kept (s : State) (p : Nat) :
    (State.chargePort s p).kept = s.kept := by simp [State.chargePort]

@[simp] theorem State.transmit_kept (s : State) (p : Nat) (f : List Byte) :
    (State.transmit s p f).kept = s.kept := by simp [State.transmit]

@[simp] theorem State.enqueue_kept (s : State) (p : Nat) (f : List Byte) :
    (State.enqueue s p f).kept = s.kept := by
  unfold State.enqueue
  (repeat' split) <;> simp

@[simp] theorem State.emit_kept (s : State) (p : Nat) (f : List Byte) :
    (State.emit s p f).kept = s.kept := by simp [State.emit]

@[simp] theorem State.malformed_kept (s : State) (p : Nat) :
    (State.malformed s p).kept = s.kept := by simp [State.malformed]

@[simp] theorem State.takeFrame_kept (s : State) (p : Nat) (f : List Byte) (cls kind : Nat) :
    (State.takeFrame s p f cls kind).1.kept = s.kept := by
  unfold State.takeFrame
  (repeat' split) <;> simp

@[simp] theorem State.keepClaim_kept (s : State) (uid : Nat) (addr : Option Nat) :
    (State.keepClaim s uid addr).kept = s.kept := by
  unfold State.keepClaim
  (repeat' split) <;> simp

@[simp] theorem State.setCons_kept (s : State) (key : Nat) (v : Cons) :
    (State.setCons s key v).kept = s.kept := by simp [State.setCons]

@[simp] theorem State.consTo_kept (s : State) (st : Bool) (k : Nat) (c : ConsImg) (old new : Cons)
    :
    (State.consTo s st k c old new).kept = s.kept := by simp [State.consTo]

@[simp] theorem State.failCons_kept (s : State) (st : Bool) (k : Nat) (c : ConsImg) :
    (State.failCons s st k c).kept = s.kept := by simp [State.failCons]

@[simp] theorem State.startCons_kept (s : State) (st : Bool) (k : Nat) (c : ConsImg) :
    (State.startCons s st k c).kept = s.kept := by simp [State.startCons]

@[simp] theorem State.overCons_kept (s : State) (f : State → Bool → Nat → ConsImg → State)
    (h : ∀ a st k c, (f a st k c).kept = a.kept) : (s.overCons f).kept = s.kept := by
  simp [State.overCons, h]

@[simp] theorem State.expelCons_kept (s t : State) (u : Nat) :
    (State.expelCons s t u).kept = s.kept := by simp [State.expelCons]

@[simp] theorem State.consume_kept (s : State) (st : Bool) (k : Nat) (c : ConsImg) (x : Frame)
    (good : Bool) :
    (State.consume s st k c x good).kept = s.kept := by simp [State.consume]

@[simp] theorem State.deliver_kept (s : State) (p : Nat) (x : Frame) :
    (State.deliver s p x).kept = s.kept := by simp [State.deliver]

@[simp] theorem State.judgeRoof_kept (s : State) :
    (State.judgeRoof s).kept = s.kept := by simp [State.judgeRoof]

@[simp] theorem State.judgePeers_kept (s : State) :
    (State.judgePeers s).kept = s.kept := by simp [State.judgePeers]

@[simp] theorem State.recompute_kept (s : State) :
    (State.recompute s).kept = s.kept := by
  unfold State.recompute
  (repeat' split) <;> simp

@[simp] theorem State.switchFabric_kept (s : State) (old new : Option FabricImg) :
    (State.switchFabric s old new).kept = s.kept := by simp [State.switchFabric]

@[simp] theorem State.linkStart_kept (s : State) :
    (State.linkStart s).kept = s.kept := by simp [State.linkStart]

@[simp] theorem State.linkLoss_kept (s : State) :
    (State.linkLoss s).kept = s.kept := by simp [State.linkLoss]


/-! ### Engines -/

@[simp] theorem State.holdOrSafe_kept (s : State) (st : Bool) (i : InstImg) (t : Nat) (record :
    Bool) :
    (State.holdOrSafe s st i t record).kept = s.kept := by
  unfold State.holdOrSafe
  (repeat' split) <;> simp

@[simp] theorem State.windowRecord_kept (s : State) (st : Bool) (i : InstImg) (w : Window) (cause
    : Nat) :
    (State.windowRecord s st i w cause).kept = s.kept := by simp [State.windowRecord]

@[simp] theorem State.suspectEngine_kept (s : State) (e : Nat) (c : Charge) :
    (State.suspectEngine s e c).kept = s.kept := by
  unfold State.suspectEngine
  dsimp only
  (repeat' split) <;> simp

@[simp] theorem State.loseWindow_kept (s : State) (st : Bool) (i : InstImg) (w : Window) (cause :
    Nat) :
    (State.loseWindow s st i w cause).kept = s.kept := by
  unfold State.loseWindow
  (repeat' split) <;> simp

@[simp] theorem State.failWindow_kept (s : State) (st : Bool) (i : InstImg) (w : Window) (cause :
    Nat) (c : Charge) :
    (State.failWindow s st i w cause c).kept = s.kept := by simp [State.failWindow]

@[simp] theorem State.countLost_kept (s : State) (st : Bool) (i : InstImg) (w : Window) :
    (State.countLost s st i w).kept = s.kept := by simp [State.countLost]

@[simp] theorem State.loseEngines_kept (s : State) (lost : List Nat) :
    (State.loseEngines s lost).kept = s.kept := by
  simp only [State.loseEngines]
  rw [foldl_kept]
  intro a x
  (repeat' split) <;> simp

@[simp] theorem State.beginWindow_kept (s : State) (staged : Bool) (i : Nat) :
    (State.beginWindow s staged i).kept = s.kept := by
  unfold State.beginWindow
  (repeat' split) <;> simp

@[simp] theorem State.skewTest_kept (s : State) (q : Side) (c : CmpStuck) (same : Bool) :
    (State.skewTest s q c same).kept = s.kept := by simp [State.skewTest]

@[simp] theorem State.judgePair_kept (s : State) (e sa sb : Nat) (valid : Bool) (ca cb : CmpStuck) :
    (s.judgePair e sa sb valid ca cb).s.kept = s.kept := by
  unfold State.judgePair
  dsimp only
  (repeat' split) <;> simp

@[simp] theorem State.publish_kept (s : State) (st : Bool) (m : Image) (i : InstImg) (f : FnSt) :
    (State.publish s st m i f).kept = s.kept := by
  simp only [State.publish]
  rw [foldl_kept]
  intro a x
  (repeat' split) <;> simp

@[simp] theorem State.releaseTrips_kept (s : State) (m : Image) (i : InstImg) (f : FnSt) :
    (State.releaseTrips s m i f).kept = s.kept := by
  simp [State.releaseTrips]
  try intro _
  rw [foldl_kept]
  · simp
  · intro a x
    (repeat' split) <;> simp

@[simp] theorem State.noteRecords_kept (s : State) (st : Bool) (i : InstImg) (f : FnSt) :
    (State.noteRecords s st i f).kept = s.kept := by
  simp only [State.noteRecords]
  rw [foldl_kept]
  intro a x
  (repeat' split) <;> simp

@[simp] theorem State.endResets_kept (s : State) (w : Window) (took : Bool) :
    (State.endResets s w took).kept = s.kept := by simp [State.endResets]

@[simp] theorem State.commitWindow_kept (s : State) (st : Bool) (m : Image) (i : InstImg) (v :
    Inst) (w : Window) (p : PassA) (fault : PassFault) :
    (State.commitWindow s st m i v w p fault).kept = s.kept := by simp [State.commitWindow]

@[simp] theorem State.passUnit_kept (s : State) (e : Nat) (bytes : List Byte) :
    (State.passUnit s e bytes).1.kept = s.kept := by simp [State.passUnit]

@[simp] theorem State.askUrgent_kept (s : State) (st : Bool) (m : Image) (e : Nat) (ask : List
    (Fin 32)) :
    (State.askUrgent s st m e ask).kept = s.kept := by simp [State.askUrgent]

@[simp] theorem State.fromParameters_kept (s : State) (st : Bool) (i : InstImg) :
    (State.fromParameters s st i).kept = s.kept := by
  unfold State.fromParameters
  (repeat' split) <;> simp

@[simp] theorem State.charge_kept (s : State) (e : Nat) (c : Charge) :
    (State.charge s e c).kept = s.kept := by
  unfold State.charge
  (repeat' split) <;> simp

@[simp] theorem State.setSpeed_kept (s : State) (q : Side) (v : Nat) :
    (State.setSpeed s q v).kept = s.kept := by
  unfold State.setSpeed
  dsimp only
  (repeat' split) <;> simp


/-! ### Placement -/

@[simp] theorem State.putRoom_kept (s : State) (key r : Nat) (m : RoomImg) (mirror : Bool) :
    (State.putRoom s key r m mirror).kept = s.kept := by simp [State.putRoom]

@[simp] theorem State.putImageRoom_kept (s : State) (st : Bool) (x : RoomImg × Option Nat) :
    (State.putImageRoom s st x).kept = s.kept := by
  unfold State.putImageRoom
  (repeat' split) <;> simp

@[simp] theorem State.putImageMirror_kept (s : State) (st : Bool) (x : (RoomImg × Nat) × Option
    Nat) :
    (State.putImageMirror s st x).kept = s.kept := by
  unfold State.putImageMirror
  (repeat' split) <;> simp

@[simp] theorem State.putPlan_kept (s : State) (st : Bool) (p : RoomPlan) :
    (State.putPlan s st p).kept = s.kept := by simp [State.putPlan]

@[simp] theorem State.putInsts_kept (s : State) (m : Image) (st : Bool) :
    (State.putInsts s m st).kept = s.kept := by simp [State.putInsts]

@[simp] theorem State.shadowTimers_kept (s : State) (old new : List TimerImg) :
    (State.shadowTimers s old new).kept = s.kept := by
  simp only [State.shadowTimers]
  rw [foldl_kept]
  intro a x
  (repeat' split) <;> simp

@[simp] theorem State.switchTimers_kept (s : State) (old new : List TimerImg) :
    (State.switchTimers s old new).kept = s.kept := by
  simp only [State.switchTimers]
  rw [foldl_kept, State.takeDues_kept]
  intro a x
  (repeat' split) <;> simp

@[simp] theorem State.startTimers_kept (s : State) (l : List TimerImg) :
    (State.startTimers s l).kept = s.kept := by simp [State.startTimers]

@[simp] theorem State.usePorch_kept (s : State) (m : Option Image) :
    (State.usePorch s m).kept = s.kept := by simp [State.usePorch]

@[simp] theorem State.abandonLoad_kept (s : State) (who : Nat → Bool) :
    (State.abandonLoad s who).kept = s.kept := by
  unfold State.abandonLoad
  (repeat' split) <;> simp

@[simp] theorem State.abandonFw_kept (s : State) :
    (State.abandonFw s).kept = s.kept := by
  unfold State.abandonFw
  (repeat' split) <;> simp

@[simp] theorem State.loseRun_kept (s : State) :
    (State.loseRun s).kept = s.kept := by simp [State.loseRun]


/-! ### ImageCmds -/

@[simp] theorem State.imageBegin_kept (s : State) (session len : Nat) :
    (State.imageBegin s session len).1.kept = s.kept := by simp [State.imageBegin]

@[simp] theorem State.imageChunk_kept (s : State) (session off : Nat) (data : List Byte) :
    (State.imageChunk s session off data).1.kept = s.kept := by
  unfold State.imageChunk
  dsimp only
  (repeat' split) <;> simp

@[simp] theorem State.imageEnd_kept (s : State) (session : Nat) :
    (State.imageEnd s session).1.kept = s.kept := by
  unfold State.imageEnd
  (repeat' split) <;> simp

@[simp] theorem State.imageAbandon_kept (s : State) (session : Nat) :
    (State.imageAbandon s session).1.kept = s.kept := by simp [State.imageAbandon]

@[simp] theorem State.imageValidate_kept (s : State) (k op : Nat) :
    (State.imageValidate s k op).1.kept = s.kept := by simp [State.imageValidate]

@[simp] theorem State.imageStage_kept (s : State) (k op : Nat) :
    (State.imageStage s k op).1.kept = s.kept := by
  unfold State.imageStage
  (repeat' split) <;> simp

@[simp] theorem State.imageHandover_kept (s : State) (force : Bool) (op : Nat) :
    (State.imageHandover s force op).1.kept = s.kept := by simp [State.imageHandover]

@[simp] theorem State.switchInsts_kept (s : State) :
    (State.switchInsts s).kept = s.kept := by
  simp [State.switchInsts]
  rw [foldl_kept]
  intro a x
  (repeat' split) <;> simp

@[simp] theorem State.carryAs_kept (s : State) (key : Nat) (r : Option Nat) (st : RoomSt) :
    (State.carryAs s key r st).kept = s.kept := by
  unfold State.carryAs
  split <;> simp

@[simp] theorem State.switchRooms_kept (s : State) :
    (State.switchRooms s).kept = s.kept := by simp [State.switchRooms]

@[simp] theorem State.handoverRecord_kept (s : State) (old new status : Nat) (force : Bool) :
    (State.handoverRecord s old new status force).kept = s.kept := by
  simp [State.handoverRecord]

@[simp] theorem State.peerList_kept (s : State) (uid list event : Nat) :
    (State.peerList s uid list event).kept = s.kept := by simp [State.peerList]

@[simp] theorem State.clearLists_kept (s : State) :
    (State.clearLists s).kept = s.kept := by simp [State.clearLists]

@[simp] theorem State.handoverSwitch_kept (s : State) (new : Image) (o : Handover) :
    (State.handoverSwitch s new o).kept = s.kept := by simp [State.handoverSwitch]

@[simp] theorem State.handoverDue_kept (s : State) :
    (State.handoverDue s).kept = s.kept := by
  unfold State.handoverDue
  (repeat' split) <;> simp

@[simp] theorem State.detachEngine_kept (s : State) (event : Nat) :
    (State.detachEngine s event).kept = s.kept := by
  unfold State.detachEngine
  (repeat' split) <;> simp


/-! ### Services -/

@[simp] theorem State.serviceRecord_kept (s : State) (f : Nat) (old new : FnShow) :
    (State.serviceRecord s f old new).kept = s.kept := by simp [State.serviceRecord]

@[simp] theorem State.showFn_kept (s : State) (f : Nat) (new : FnShow) :
    (State.showFn s f new).kept = s.kept := by simp [State.showFn]

@[simp] theorem State.recomputeServices_kept (s : State) :
    (State.recomputeServices s).kept = s.kept := by simp [State.recomputeServices]


/-! ### FunctionTable -/

@[simp] theorem State.functionQuery_kept (s : State) (st : Bool) (f : Nat) :
    (State.functionQuery s st f).1.kept = s.kept := by
  unfold State.functionQuery
  (repeat' split) <;> simp


/-! ### EngineCmds -/

@[simp] theorem State.resetInst_kept (s : State) (st : Bool) (i op : Nat) :
    (State.resetInst s st i op).1.kept = s.kept := by
  unfold State.resetInst
  (repeat' split) <;> simp

@[simp] theorem State.resetOutput_kept (s : State) (k op : Nat) :
    (State.resetOutput s k op).1.kept = s.kept := by simp [State.resetOutput]

@[simp] theorem State.functionReset_kept (s : State) (st : Bool) (kind n op : Nat) :
    (State.functionReset s st kind n op).1.kept = s.kept := by
  unfold State.functionReset
  (repeat' split) <;> simp

@[simp] theorem State.resetRequest_kept (s : State) (h : Hdr) (body : List Byte) :
    (State.resetRequest s h body).kept = s.kept := by simp [State.resetRequest]

@[simp] theorem State.engineSplit_kept (s : State) (e op : Nat) :
    (State.engineSplit s e op).1.kept = s.kept := by simp [State.engineSplit]

@[simp] theorem State.engineJoin_kept (s : State) (e op : Nat) :
    (State.engineJoin s e op).1.kept = s.kept := by simp [State.engineJoin]

@[simp] theorem State.debugAttach_kept (s : State) (e op : Nat) :
    (State.debugAttach s e op).1.kept = s.kept := by simp [State.debugAttach]

@[simp] theorem State.runs_kept (s : State) (e : Nat) :
    (State.runs s e).kept = s.kept := by simp [State.runs]

@[simp] theorem State.settleMemory_kept (s : State) (e : Nat) :
    (State.settleMemory s e).kept = s.kept := by simp [State.settleMemory]

@[simp] theorem State.debugOp_kept (s : State) (e op space addr len : Nat) (data : List Byte) :
    (State.debugOp s e op space addr len data).1.kept = s.kept := by
  unfold State.debugOp
  (repeat' split) <;> simp

@[simp] theorem State.debugRequest_kept (s : State) (h : Hdr) (body : List Byte) :
    (State.debugRequest s h body).kept = s.kept := by simp [State.debugRequest]

@[simp] theorem State.debugDetach_kept (s : State) (e : Nat) :
    (State.debugDetach s e).1.kept = s.kept := by simp [State.debugDetach]


/-! ### Fuses -/

@[simp] theorem State.fuseScan_kept (s : State) :
    (State.fuseScan s).kept = s.kept := by simp [State.fuseScan]

@[simp] theorem State.reread_kept (s : State) (w : Nat) :
    (State.reread s w).kept = s.kept := by simp [State.reread]

@[simp] theorem State.advanceEnds_kept (s : State) :
    (State.advanceEnds s).kept = s.kept := by
  simp only [State.advanceEnds]
  rw [foldl_kept]
  intro a x
  (repeat' split) <;> simp


/-! ### RecFuseCmds -/

@[simp] theorem State.recAnswer_kept (s : State) (q count : Nat) :
    (State.recAnswer s q count).1.kept = s.kept := by simp [State.recAnswer]

@[simp] theorem State.addSteps_kept (s : State) (base v target : Nat) :
    (State.addSteps s base v target).kept = s.kept := by simp [State.addSteps]

@[simp] theorem State.fuseAdvance_kept (s : State) (counter target op : Nat) :
    (State.fuseAdvance s counter target op).1.kept = s.kept := by simp [State.fuseAdvance]


/-! ### Sessions -/

@[simp] theorem State.closeSession_kept (s : State) (k : Nat) :
    (State.closeSession s k).kept = s.kept := by simp [State.closeSession]

@[simp] theorem State.challenge_kept (s : State) (h : Hdr) :
    (State.challenge s h).1.kept = s.kept := by
  unfold State.challenge
  (repeat' split) <;> simp

@[simp] theorem State.sessionRecord_kept (s : State) (event : Nat) (o : Origin) :
    (State.sessionRecord s event o).kept = s.kept := by simp [State.sessionRecord]

@[simp] theorem State.failMac_kept (s : State) (k : Nat) (o : Origin) :
    (State.failMac s k o).kept = s.kept := by simp [State.failMac]

@[simp] theorem State.answerChallenge_kept (s : State) (h : Hdr) (k : Nat) (mac : List Byte) :
    (State.answerChallenge s h k mac).1.kept = s.kept := by
  unfold State.answerChallenge
  (repeat' split) <;> simp

@[simp] theorem State.sessionOpen_kept (s : State) (h : Hdr) (body : List Byte) :
    (State.sessionOpen s h body).1.kept = s.kept := by simp [State.sessionOpen]

@[simp] theorem State.setStream_kept (s : State) (k : Nat) (v : Option Stream) :
    (State.setStream s k v).kept = s.kept := by simp [State.setStream]

@[simp] theorem State.streamOpen_kept (s : State) (h : Hdr) (body : List Byte) :
    (State.streamOpen s h body).1.kept = s.kept := by
  unfold State.streamOpen
  dsimp only
  (repeat' split) <;> simp

@[simp] theorem State.streamClose_kept (s : State) (k : Nat) :
    (State.streamClose s k).1.kept = s.kept := by simp [State.streamClose]


/-! ### Sea -/

@[simp] theorem State.addExpiry_kept (s : State) (r n : Nat) :
    (State.addExpiry s r n).kept = s.kept := by simp [State.addExpiry]

@[simp] theorem State.endHold_kept (s : State) (key : Nat) :
    (State.endHold s key).kept = s.kept := by
  unfold State.endHold
  dsimp only
  (repeat' split) <;> simp

@[simp] theorem State.offIfRetired_kept (s : State) (d : Nat) :
    (State.offIfRetired s d).kept = s.kept := by simp [State.offIfRetired]

@[simp] theorem State.retireRoom_kept (s : State) (r : Nat) :
    (State.retireRoom s r).kept = s.kept := by simp [State.retireRoom]

@[simp] theorem State.repairRoom_kept (s : State) (r n : Nat) :
    (State.repairRoom s r n).kept = s.kept := by simp [State.repairRoom]

@[simp] theorem State.setDelay_kept (s : State) (q : Side) (v : Nat) :
    (State.setDelay s q v).kept = s.kept := by
  unfold State.setDelay
  dsimp only
  (repeat' split) <;> simp


/-! ### Domains -/

@[simp] theorem State.domRecord_kept (s : State) (d old new why : Nat) :
    (State.domRecord s d old new why).kept = s.kept := by simp [State.domRecord]

@[simp] theorem State.domTo_kept (s : State) (d : Nat) (st : DomSt) (why : Nat) :
    (State.domTo s d st why).kept = s.kept := by simp [State.domTo]

@[simp] theorem State.setOsc_kept (s : State) (q : Side) (v : OscSt) :
    (State.setOsc s q v).kept = s.kept := by
  unfold State.setOsc
  (repeat' split) <;> simp

@[simp] theorem State.oscRecord_kept (s : State) (event : Nat) :
    (State.oscRecord s event).kept = s.kept := by simp [State.oscRecord]

@[simp] theorem State.stopTime_kept (s : State) :
    (State.stopTime s).kept = s.kept := by simp [State.stopTime]

@[simp] theorem State.abandonDown_kept (s : State) (q : Side) :
    (State.abandonDown s q).kept = s.kept := by simp [State.abandonDown]

@[simp] theorem State.loseOsc_kept (s : State) (q : Side) (new : OscSt) :
    (State.loseOsc s q new).kept = s.kept := by simp [State.loseOsc]

@[simp] theorem State.cutRooms_kept (s : State) (q : Side) (key : Nat) :
    (State.cutRooms s q key).kept = s.kept := by simp [State.cutRooms]

@[simp] theorem State.noteLoss_kept (s : State) (r : Nat) :
    (State.noteLoss s r).kept = s.kept := by
  unfold State.noteLoss
  (repeat' split) <;> simp

@[simp] theorem State.loseSea_kept (s : State) (q : Side) :
    (State.loseSea s q).kept = s.kept := by
  simp [State.loseSea]
  try intro _
  rw [foldl_kept]
  · simp
  · intro a x
    (repeat' split) <;> simp

@[simp] theorem State.startSea_kept (s : State) (q : Side) (bad : List Nat) (fixed : List (Nat ×
    Nat)) :
    (State.startSea s q bad fixed).kept = s.kept := by
  simp only [State.startSea, State.serveSea_kept, State.offIfRetired_kept]
  rw [foldl_kept]
  intro a x
  (repeat' split) <;> simp

@[simp] theorem State.endEngineOps_kept (s : State) (e : Nat) :
    (State.endEngineOps s e).kept = s.kept := by
  unfold State.endEngineOps
  dsimp only
  (repeat' split) <;> simp

@[simp] theorem State.loseEng_kept (s : State) (q : Side) :
    (State.loseEng s q).kept = s.kept := by
  unfold State.loseEng
  (repeat' split) <;> simp

@[simp] theorem State.failUnits_kept (s : State) (us : List Nat) (o : StartOutcome) :
    (State.failUnits s us o).kept = s.kept := by simp [State.failUnits]

@[simp] theorem State.startEng_kept (s : State) (q : Side) (o : StartOutcome) :
    (State.startEng s q o).kept = s.kept := by
  unfold State.startEng
  (repeat' split) <;> simp

@[simp] theorem State.loseField_kept (s : State) :
    (State.loseField s).kept = s.kept := by simp [State.loseField]

@[simp] theorem State.startField_kept (s : State) (cause : Nat) (o : StartOutcome) :
    (State.startField s cause o).kept = s.kept := by simp [State.startField]

@[simp] theorem State.freshUnits_kept (s : State) (d : Nat) :
    (State.freshUnits s d).kept = s.kept := by simp [State.freshUnits]

@[simp] theorem State.losePorch_kept (s : State) :
    (State.losePorch s).kept = s.kept := by simp [State.losePorch]

@[simp] theorem State.loseDomain_kept (s : State) (d : Nat) (st : DomSt) :
    (State.loseDomain s d st).kept = s.kept := by
  unfold State.loseDomain
  (repeat' split) <;> simp

@[simp] theorem State.startPorch_kept (s : State) (bad : List Side) (loader : Bool) :
    (State.startPorch s bad loader).kept = s.kept := by simp [State.startPorch]

@[simp] theorem State.startLink_kept (s : State) (q : Side) (o : StartOutcome) :
    (State.startLink s q o).kept = s.kept := by simp [State.startLink]

@[simp] theorem State.returnDomain_kept (s : State) (d : Nat) (o : StartOutcome) :
    (State.returnDomain s d o).kept = s.kept := by
  unfold State.returnDomain
  (repeat' split) <;> simp


/-! ### Startup -/

@[simp] theorem State.fuseSense_kept (s : State) (plost : Bool) :
    (State.fuseSense s plost).kept = s.kept := by simp [State.fuseSense]

@[simp] theorem State.startable_kept (s : State) :
    (State.startable s).1.kept = s.kept := by
  unfold State.startable
  dsimp only
  (repeat' split) <;> simp

@[simp] theorem State.placeImage_kept (s : State) (m : Image) :
    (State.placeImage s m).kept = s.kept := by simp [State.placeImage]

@[simp] theorem State.startImage_kept (s0 : State) :
    (State.startImage s0).kept = s0.kept := by
  unfold State.startImage
  (repeat' split) <;> simp

@[simp] theorem State.powerUp_kept (s : State) (d : Nat) (bad : List Nat) :
    (State.powerUp s d bad).kept = s.kept := by simp [State.powerUp]

@[simp] theorem State.toStep_kept (s : State) (n : Nat) :
    (State.toStep s n).kept = s.kept := by simp [State.toStep]

@[simp] theorem State.withResult_kept (s : State) (r : Nat) :
    (State.withResult s r).kept = s.kept := by simp [State.withResult]

@[simp] theorem State.measureStore_kept (s : State) (o : StartOutcome) :
    (State.measureStore s o).kept = s.kept := by simp [State.measureStore]

@[simp] theorem State.endStart_kept (s : State) :
    (State.endStart s).kept = s.kept := by simp [State.endStart]

@[simp] theorem State.step1_kept (s : State) (o : StartOutcome) :
    (State.step1 s o).kept = s.kept := by simp [State.step1]

@[simp] theorem State.step3_kept (s : State) (o : StartOutcome) :
    (State.step3 s o).kept = s.kept := by simp [State.step3]

@[simp] theorem State.step4_kept (s : State) (o : StartOutcome) :
    (State.step4 s o).kept = s.kept := by
  unfold State.step4
  dsimp only
  (repeat' split) <;> simp

@[simp] theorem State.openLink_kept (s : State) (o : StartOutcome) :
    (State.openLink s o).kept = s.kept := by simp [State.openLink]

@[simp] theorem State.step6_kept (s : State) (o : StartOutcome) :
    (State.step6 s o).kept = s.kept := by simp [State.step6]


/-! ### Firmware -/

@[simp] theorem State.loseProc_kept (s : State) (q : Side) :
    (State.loseProc s q).kept = s.kept := by simp [State.loseProc]

@[simp] theorem State.dropPorchWork_kept (s : State) :
    (State.dropPorchWork s).kept = s.kept := by simp [State.dropPorchWork]

@[simp] theorem State.takeOver_kept (s : State) (q : Side) (cause keep : Nat) (mirror : Bool) :
    (State.takeOver s q cause keep mirror).kept = s.kept := by simp [State.takeOver]

@[simp] theorem State.endSwitch_kept (s : State) (status : Nat) :
    (State.endSwitch s status).kept = s.kept := by
  unfold State.endSwitch
  (repeat' split) <;> simp

@[simp] theorem State.porchOut_kept (s : State) (cause : Nat) :
    (State.porchOut s cause).kept = s.kept := by simp [State.porchOut]

@[simp] theorem State.loseActive_kept (s : State) (cause : Nat) :
    (State.loseActive s cause).kept = s.kept := by
  unfold State.loseActive
  dsimp only
  (repeat' split) <;> simp

@[simp] theorem State.setBankPtr_kept (s : State) (q : Side) (b : Nat) :
    (State.setBankPtr s q b).kept = s.kept := by
  unfold State.setBankPtr
  (repeat' split) <;> simp

@[simp] theorem State.putSpare_kept (s : State) (q : Side) (v : FwBank) :
    (State.putSpare s q v).kept = s.kept := by simp [State.putSpare]

@[simp] theorem State.fwBegin_kept (s : State) (len : Nat) :
    (State.fwBegin s len).1.kept = s.kept := by simp [State.fwBegin]

@[simp] theorem State.fwChunk_kept (s : State) (off : Nat) (data : List Byte) :
    (State.fwChunk s off data).1.kept = s.kept := by
  unfold State.fwChunk
  (repeat' split) <;> simp

@[simp] theorem State.fwEnd_kept (s : State) (op : Nat) :
    (State.fwEnd s op).1.kept = s.kept := by
  unfold State.fwEnd
  (repeat' split) <;> simp

@[simp] theorem State.fwRecord_kept (s : State) (q : Side) (version : Word) (rollback status :
    Nat) :
    (State.fwRecord s q version rollback status).kept = s.kept := by simp [State.fwRecord]

@[simp] theorem State.fwSwitch_kept (s : State) (op : Nat) :
    (State.fwSwitch s op).1.kept = s.kept := by
  unfold State.fwSwitch
  (repeat' split) <;> simp

@[simp] theorem State.switchRestart_kept (s : State) (f : FwLoad) (v : Word) (r : Nat) (second :
    Bool) (q : Side) (ok : Bool) :
    (State.switchRestart s f v r second q ok).kept = s.kept := by simp [State.switchRestart]

@[simp] theorem State.rejoin_kept (s : State) (q : Side) :
    (State.rejoin s q).kept = s.kept := by simp [State.rejoin]


/-! ### CheckUnits -/

@[simp] theorem State.chargeUnit_kept (s : State) (u : Nat) :
    (State.chargeUnit s u).kept = s.kept := by simp [State.chargeUnit]

@[simp] theorem State.chargeUnits_kept (s : State) :
    (State.chargeUnits s).kept = s.kept := by simp [State.chargeUnits]

@[simp] theorem State.initUnit_kept (s : State) (u : Nat) :
    (State.initUnit s u).kept = s.kept := by simp [State.initUnit]

@[simp] theorem State.upsetUnit_kept (s : State) (u n : Nat) :
    (State.upsetUnit s u n).kept = s.kept := by simp [State.upsetUnit]

@[simp] theorem State.writeUnit_kept (s : State) (u o : Nat) (v : Word) :
    (State.writeUnit s u o v).kept = s.kept := by
  unfold State.writeUnit
  (repeat' split) <;> simp

@[simp] theorem State.writeCvu_kept (s : State) (w : Agent) (host : Bool) (o : Nat) (v : Word) :
    (State.writeCvu s w host o v).kept = s.kept := by simp [State.writeCvu]


/-! ### Fabric -/

@[simp] theorem State.greet_kept (s : State) (p : Nat) (b : List Byte) :
    (State.greet s p b).kept = s.kept := by simp [State.greet]

@[simp] theorem State.sendLsa_kept (s : State) (role : Nat) (l : Lsa) :
    (State.sendLsa s role l).kept = s.kept := by simp [State.sendLsa]

@[simp] theorem State.acceptLsa_kept (s : State) (p : Nat) (x : Frame) (l : Lsa) :
    (State.acceptLsa s p x l).kept = s.kept := by simp [State.acceptLsa]

@[simp] theorem State.leave_kept (s : State) (p : Nat) (f : List Byte) :
    (State.leave s p f).kept = s.kept := by simp [State.leave]

@[simp] theorem State.copyOn_kept (s : State) (c : ProdImg) (src dst alive : Nat) (payload : List
    Byte) (r : Route) :
    (State.copyOn s c src dst alive payload r).kept = s.kept := by
  unfold State.copyOn
  (repeat' split) <;> simp

@[simp] theorem State.sendOne_kept (s : State) (c : ProdImg) (src alive : Nat) (payload : List
    Byte) (uid : Nat) (routes : List Route) :
    (State.sendOne s c src alive payload uid routes).kept = s.kept := by
  unfold State.sendOne
  (repeat' split) <;> simp

@[simp] theorem State.release_kept (s : State) (k : Nat) :
    (State.release s k).kept = s.kept := by
  unfold State.release
  (repeat' split) <;> simp

@[simp] theorem State.sendOn_kept (s : State) (p : Nat) (x : Frame) (head : List Byte) (port :
    Nat) :
    (State.sendOn s p x head port).kept = s.kept := by simp [State.sendOn]

@[simp] theorem State.passCopy_kept (s : State) (p : Nat) (x : Frame) :
    (State.passCopy s p x).kept = s.kept := by
  unfold State.passCopy
  dsimp only
  (repeat' split) <;> simp

@[simp] theorem State.watch_kept (s : State) (st : Bool) (k : Nat) :
    (State.watch s st k).kept = s.kept := by
  unfold State.watch
  dsimp only
  (repeat' split) <;> simp

@[simp] theorem State.setControl_kept (s : State) (key : Nat) (c : ConsImg) (v : List Byte) :
    (State.setControl s key c v).kept = s.kept := by simp [State.setControl]

@[simp] theorem State.takeControl_kept (s : State) (p : Nat) (x : Frame) :
    (State.takeControl s p x).kept = s.kept := by simp [State.takeControl]

@[simp] theorem State.hopOn_kept (s : State) (p : Nat) (x : Frame) :
    (State.hopOn s p x).kept = s.kept := by
  unfold State.hopOn
  (repeat' split) <;> simp

@[simp] theorem State.postBulk_kept (s : State) (p : Nat) (x : Frame) :
    (State.postBulk s p x).kept = s.kept := by
  unfold State.postBulk
  (repeat' split) <;> simp

@[simp] theorem State.servePort_kept (s : State) (p : Nat) :
    (State.servePort s p).kept = s.kept := by
  unfold State.servePort
  dsimp only
  (repeat' split) <;> simp

@[simp] theorem State.servePorts_kept (s : State) :
    (State.servePorts s).kept = s.kept := by simp [State.servePorts]

@[simp] theorem State.peerAccept_kept (s : State) (uid : Nat) :
    (State.peerAccept s uid).1.kept = s.kept := by simp [State.peerAccept]

@[simp] theorem State.peerExpel_kept (s : State) (uid : Nat) :
    (State.peerExpel s uid).1.kept = s.kept := by simp [State.peerExpel]


/-! ### Links -/

@[simp] theorem State.launchUp_kept (s : State) (q : Side) :
    (State.launchUp s q).kept = s.kept := by
  unfold State.launchUp
  (repeat' split) <;> simp

@[simp] theorem State.launchDown_kept (s : State) (l : Side) :
    (State.launchDown s l).kept = s.kept := by simp [State.launchDown]

@[simp] theorem State.counterClear_kept (s : State) (p : Nat) (v : Word) :
    (State.counterClear s p v).kept = s.kept := by simp [State.counterClear]


/-! ### Power -/

@[simp] theorem State.setSupply_kept (s : State) (q : Side) (v : Supply) :
    (State.setSupply s q v).kept = s.kept := by
  unfold State.setSupply
  (repeat' split) <;> simp

@[simp] theorem State.newSupply_kept (s : State) (q : Side) (v : Supply) :
    (State.newSupply s q v).kept = s.kept := by simp [State.newSupply]

@[simp] theorem State.beginFail_kept (s : State) :
    (State.beginFail s).kept = s.kept := by simp [State.beginFail]

@[simp] theorem State.endFail_kept (s : State) :
    (State.endFail s).kept = s.kept := by simp [State.endFail]

@[simp] theorem State.darkLogic_kept (s : State) :
    (State.darkLogic s).kept = s.kept := by simp [State.darkLogic]

@[simp] theorem State.domsOff_kept (s : State) (ds : List Nat) :
    (State.domsOff s ds).kept = s.kept := by simp [State.domsOff]

@[simp] theorem State.switchOff_kept (s : State) :
    (State.switchOff s).kept = s.kept := by simp [State.switchOff]

@[simp] theorem State.fieldDown_kept (s : State) :
    (State.fieldDown s).kept = s.kept := by simp [State.fieldDown]

@[simp] theorem State.cellarDown_kept (s : State) :
    (State.cellarDown s).kept = s.kept := by simp [State.cellarDown]

@[simp] theorem State.cellarFault_kept (s : State) :
    (State.cellarFault s).kept = s.kept := by simp [State.cellarFault]

@[simp] theorem State.domCtl_kept (s : State) (d : Nat) (on : Bool) :
    (State.domCtl s d on).1.kept = s.kept := by simp [State.domCtl]


/-! ### ReadRegs -/

@[simp] theorem State.afterRead_kept (s : State) (w : Agent) (a : Nat) :
    (State.afterRead s w a).kept = s.kept := by simp [State.afterRead]


/-! ### WriteRegs -/

@[simp] theorem State.ctlWrite_kept (s : State) (w : Agent) (n : Nat) (v : Word) :
    (State.ctlWrite s w n v).kept = s.kept := by simp [State.ctlWrite]

@[simp] theorem State.writeTimer_kept (s : State) (w : Agent) (n o : Nat) (v : Word) :
    (State.writeTimer s w n o v).kept = s.kept := by
  unfold State.writeTimer
  (repeat' split) <;> simp

@[simp] theorem State.writeTmr_kept (s : State) (w : Agent) (o : Nat) (v : Word) :
    (State.writeTmr s w o v).kept = s.kept := by
  unfold State.writeTmr
  (repeat' split) <;> simp

@[simp] theorem State.cstatWrite_kept (s : State) (w : Agent) (m : Nat) (v : Word) :
    (State.cstatWrite s w m v).kept = s.kept := by simp [State.cstatWrite]

@[simp] theorem State.cclrWrite_kept (s : State) (w : Agent) (p : Nat) (v : Word) :
    (State.cclrWrite s w p v).kept = s.kept := by simp [State.cclrWrite]

@[simp] theorem State.writeFld_kept (s : State) (w : Agent) (o : Nat) (v : Word) :
    (State.writeFld s w o v).kept = s.kept := by
  unfold State.writeFld
  (repeat' split) <;> simp

@[simp] theorem State.cnvStatWrite_kept (s : State) (c : Nat) (v : Word) :
    (State.cnvStatWrite s c v).kept = s.kept := by simp [State.cnvStatWrite]

@[simp] theorem State.chstWrite_kept (s : State) (w : Agent) (n : Nat) (v : Word) :
    (State.chstWrite s w n v).kept = s.kept := by simp [State.chstWrite]

@[simp] theorem State.writeCnv_kept (s : State) (w : Agent) (o : Nat) (v : Word) :
    (State.writeCnv s w o v).kept = s.kept := by
  unfold State.writeCnv
  (repeat' split) <;> simp

@[simp] theorem State.writeReg_kept (s : State) (w : Agent) (host : Bool) (a : Nat) (v : Word) :
    (State.writeReg s w host a v).1.kept = s.kept := by
  unfold State.writeReg
  (repeat' split) <;> simp

@[simp] theorem State.readList_kept (s : State) (loader : Bool) (l : List Nat) :
    (State.readList s loader l).1.kept = s.kept := by
  induction l generalizing s with
  | nil => rfl
  | cons a l ih => simp only [State.readList]; rw [ih]; split <;> simp

@[simp] theorem State.writeRegsList_kept (s : State) (l : List (Nat × Word)) :
    (State.writeRegsList s l).1.kept = s.kept := by
  induction l generalizing s with
  | nil => rfl
  | cons a l ih => simp only [State.writeRegsList]; split <;> simp [ih]

@[simp] theorem State.readRegs_kept (s : State) (h : Hdr) (body : List Byte) :
    (State.readRegs s h body).1.kept = s.kept := by
  unfold State.readRegs
  (repeat' split) <;> simp

@[simp] theorem State.writeRegs_kept (s : State) (h : Hdr) (body : List Byte) :
    (State.writeRegs s h body).1.kept = s.kept := by
  unfold State.writeRegs
  (repeat' split) <;> simp


/-! ### MailboxFrame -/

@[simp] theorem State.dropFrame_kept (s : State) :
    (State.dropFrame s).kept = s.kept := by simp [State.dropFrame]

@[simp] theorem State.seePrp_kept (s : State) (w : Wire) :
    (State.seePrp s w).kept = s.kept := by
  unfold State.seePrp
  (repeat' split) <;> simp

@[simp] theorem State.holding_kept (s : State) (b : Bool) (f : State → State)
    (hf : ∀ t, (f t).kept = t.kept) : (s.holding b f).kept = s.kept := by
  simp [State.holding, hf]


/-! ### Tick -/

@[simp] theorem State.fieldBound_kept (s : State) :
    (State.fieldBound s).kept = s.kept := by simp [State.fieldBound]

@[simp] theorem State.serveBoxes_kept (s : State) :
    (State.serveBoxes s).kept = s.kept := by simp [State.serveBoxes]

/-! ### The operations that touch one of the three -/

theorem foldl_pending {α : Type} (f : State → α → State) (h : ∀ a x, (f a x).pending = a.pending)
    (l : List α) (s : State) : (l.foldl f s).pending = s.pending := by
  induction l generalizing s with
  | nil => rfl
  | cons x l ih => rw [List.foldl_cons, ih, h]

/-- A blown bit joins its row; nothing else of the array changes. -/
theorem State.burn_spec (s : State) (w b : Nat) :
    (s.burn w b).pending = s.pending ∧ (s.burn w b).tb = s.tb ∧
    (s.burn w b).nv.rows =
      Tab.upd .blank s.nv.rows w (fun r => r.or (.whole (BitVec.ofNat 32 (1 <<< b)))) := by
  have h := kept_eq (State.reread_kept
    (let rows := Tab.upd .blank s.nv.rows w (fun r => r.or (.whole (BitVec.ofNat 32 (1 <<< b))))
     { s with nv := { s.nv with rows := rows } }) w)
  exact ⟨h.1, h.2.1, h.2.2⟩

/-- Rows of the array with bits added: `l` lists the rows and what they gain. -/
def addRows (l : List (Nat × FuseRow)) (t : Tab FuseRow) : Tab FuseRow :=
  l.foldl (fun acc e => Tab.upd .blank acc e.1 (fun r => r.or e.2)) t

theorem addRows_append (l m : List (Nat × FuseRow)) (t : Tab FuseRow) :
    addRows (l ++ m) t = addRows m (addRows l t) := by simp [addRows]

/-- The copy of a row adds its content to one spare row. -/
theorem State.copyRow_spec (s : State) (w b i : Nat) (e : Word) :
    (s.copyRow w b i e).pending = s.pending ∧ (s.copyRow w b i e).tb = s.tb ∧
    ∃ l, (s.copyRow w b i e).nv.rows = addRows l s.nv.rows := by
  unfold State.copyRow
  dsimp only
  rw [(kept_eq (State.reread_kept _ _)).1, (kept_eq (State.reread_kept _ _)).2.1,
    (kept_eq (State.reread_kept _ _)).2.2]
  exact ⟨rfl, rfl, [(128 + i, .whole ((s.nv.rowRead w).bits ||| BitVec.ofNat 32 (1 <<< b)))], rfl⟩

/-- A row that stays in place gains the bit that failed. -/
theorem State.leaveRow_spec (s : State) (w b : Nat) :
    (s.leaveRow w b).pending = s.pending ∧ (s.leaveRow w b).tb = s.tb ∧
    ∃ l, (s.leaveRow w b).nv.rows = addRows l s.nv.rows := by
  unfold State.leaveRow
  dsimp only
  rw [(kept_eq (State.record_kept _ _ _ _ _ _)).1, (kept_eq (State.record_kept _ _ _ _ _ _)).2.1,
    (kept_eq (State.record_kept _ _ _ _ _ _)).2.2, (kept_eq (State.reread_kept _ _)).1,
    (kept_eq (State.reread_kept _ _)).2.1, (kept_eq (State.reread_kept _ _)).2.2]
  exact ⟨rfl, rfl, [(w, { FuseRow.blank with aStrict := BitVec.ofNat 32 (1 <<< b) })], rfl⟩

/-- A redirection adds copies to spare rows, or the bit that failed to the row itself. -/
theorem State.redirectTo_spec (w b : Nat) (l : List Nat) (s : State) :
    (s.redirectTo w b l).pending = s.pending ∧ (s.redirectTo w b l).tb = s.tb ∧
    ∃ m, (s.redirectTo w b l).nv.rows = addRows m s.nv.rows := by
  induction l generalizing s with
  | nil => exact State.leaveRow_spec s w b
  | cons i l ih =>
    obtain ⟨h1, h2, m, h3⟩ := State.copyRow_spec s w b i (entryFor w)
    unfold State.redirectTo
    dsimp only
    split
    · rw [(kept_eq (State.record_kept _ _ _ _ _ _)).1, (kept_eq (State.record_kept _ _ _ _ _ _)).2.1,
        (kept_eq (State.record_kept _ _ _ _ _ _)).2.2]
      exact ⟨h1, h2, m, h3⟩
    · obtain ⟨k1, k2, n, k3⟩ := ih (s.copyRow w b i (entryFor w))
      exact ⟨k1.trans h1, k2.trans h2, m ++ n, by rw [k3, h3, addRows_append]⟩

theorem State.cutRow_spec (s : State) (w b : Nat) (e : BitVec 15) :
    (s.cutRow w b e).pending = s.pending ∧ (s.cutRow w b e).tb = s.tb ∧
    ∃ m, (s.cutRow w b e).nv.rows = addRows m s.nv.rows := by
  unfold State.cutRow
  split
  · exact ⟨rfl, rfl, [], rfl⟩
  · exact State.copyRow_spec s w b _ _

/-- Power-on clears the timebase; queue and fuse array stay. -/
theorem State.coldStart_spec (s : State) :
    s.coldStart.pending = s.pending ∧ s.coldStart.nv.rows = s.nv.rows := by
  simp [State.coldStart, State.coldNv]

theorem State.cellarUp_spec (s : State) :
    s.cellarUp.pending = s.pending ∧ s.cellarUp.nv.rows = s.nv.rows := by
  simp [State.cellarUp]

theorem State.judgeSupplies_spec (s : State) :
    s.judgeSupplies.pending = s.pending ∧ s.judgeSupplies.nv.rows = s.nv.rows := by
  unfold State.judgeSupplies
  dsimp only
  have e := fun t : State => kept_eq (State.endFail_kept t)
  have b := fun t : State => kept_eq (State.beginFail_kept t)
  (repeat' split) <;> simp [State.coldStart_spec, e, b]

/-- One tick: TB advances by one, queue and fuse array stay. -/
theorem State.tmrTick_spec (s : State) :
    s.tmrTick.pending = s.pending ∧ s.tmrTick.tb = s.tb + 1 ∧ s.tmrTick.nv.rows = s.nv.rows := by
  have h1 := kept_eq (State.takeDues_kept s)
  have h2 := fun t : State => kept_eq (foldl_kept State.stepTimer (fun a x => State.stepTimer_kept a x)
    (s.takeDues.tmr.timers.map Prod.fst) t)
  unfold State.tmrTick
  simp [h1, h2]

theorem State.tick_spec (s : State) :
    s.tick.pending = s.pending ∧ s.tick.tb = (if s.ticking then s.tb + 1 else s.tb) ∧
    s.tick.nv.rows = s.nv.rows := by
  unfold State.tick
  have h := kept_eq (State.servePorts_kept s.tmrTick)
  have f := fun t : State => kept_eq (State.fieldBound_kept t)
  have b := fun t : State => kept_eq (State.serveBoxes_kept t)
  (repeat' split) <;> simp [h, f, b, State.tmrTick_spec]

end Sys2Proof.Machine
end

