-- ==== Sys2Proof/Laws/ExecKept.lean ====
section
/-! SUPPORT. What every command leaves as it was: the queue, the timebase and the fuse array, but for
the commands that the lemmas at the end name. -/

namespace Sys2Proof.Machine

@[simp] theorem nextState_next (t s : State) : nextState (.next t) s = t := rfl

theorem nextState_of {o : Host.Outcome State Fault Refusal} {t : State} (h : o = .next t) (s : State) :
    nextState o s = t := by rw [h]; rfl


/-! ### Inputs -/

@[simp] theorem execDebounce_kept (q : Side) (n : Fin 192) (s : State) :
    (nextState (execDebounce q n s) s).kept = s.kept := by simp [execDebounce]

@[simp] theorem execOffPulse_kept (q : Side) (n : Fin 192) (s : State) :
    (nextState (execOffPulse q n s) s).kept = s.kept := by simp [execOffPulse]

@[simp] theorem execGateTime_kept (q : Side) (m : Fin 128) (s : State) :
    (nextState (execGateTime q m s) s).kept = s.kept := by simp [execGateTime]

@[simp] theorem execPeriodTimeout_kept (q : Side) (m : Fin 128) (s : State) :
    (nextState (execPeriodTimeout q m s) s).kept = s.kept := by simp [execPeriodTimeout]


/-! ### Outputs -/

@[simp] theorem execInputChange_kept (t : Fin 256) (mV : Int) (s : State) :
    (nextState (execInputChange t mV s) s).kept = s.kept := by simp [execInputChange]

@[simp] theorem execGlitchFilter_kept (q : Side) (t : Fin 256) (s : State) :
    (nextState (execGlitchFilter q t s) s).kept = s.kept := by simp [execGlitchFilter]

@[simp] theorem execPulseFrame_kept (s : State) :
    (nextState (execPulseFrame s) s).kept = s.kept := by simp [execPulseFrame]

@[simp] theorem execPulse_kept (k : Fin 64) (pt : PulsePoint) (s : State) :
    (nextState (execPulse k pt s) s).kept = s.kept := by simp [execPulse]

@[simp] theorem execOverload_kept (k : Fin 64) (low : Bool) (s : State) :
    (nextState (execOverload k low s) s).kept = s.kept := by simp [execOverload]

@[simp] theorem execThermalShutdown_kept (k : Fin 64) (low : Bool) (s : State) :
    (nextState (execThermalShutdown k low s) s).kept = s.kept := by simp [execThermalShutdown]

@[simp] theorem execReadbackDisagree_kept (k : Fin 64) (minus : Bool) (s : State) :
    (nextState (execReadbackDisagree k minus s) s).kept = s.kept := by
  simp only [execReadbackDisagree, nextState_next]
  (repeat' split) <;> simp

@[simp] theorem execLineSense_kept (q : Side) (k : Fin 64) (m : LineMeas) (s : State) :
    (nextState (execLineSense q k m s) s).kept = s.kept := by simp [execLineSense]

@[simp] theorem execGroupSupply_kept (q : Side) (g : Fin 8) (mV : Int) (short : Bool) (s : State)
    :
    (nextState (execGroupSupply q g mV short s) s).kept = s.kept := by simp [execGroupSupply]

@[simp] theorem execOversum_kept (g : Fin 8) (sum : Nat) (s : State) :
    (nextState (execOversum g sum s) s).kept = s.kept := by simp [execOversum]

@[simp] theorem execSequencerStop_kept (q : Side) (selfFault : Bool) (s : State) :
    (nextState (execSequencerStop q selfFault s) s).kept = s.kept := by simp [execSequencerStop]

@[simp] theorem execPeerDead_kept (q : Side) (s : State) :
    (nextState (execPeerDead q s) s).kept = s.kept := by simp [execPeerDead]

@[simp] theorem execGateHold_kept (k : Fin 64) (s : State) :
    (nextState (execGateHold k s) s).kept = s.kept := by simp [execGateHold]

@[simp] theorem execSilence_kept (s : State) :
    (nextState (execSilence s) s).kept = s.kept := by
  simp only [execSilence, nextState_next]
  (repeat' split) <;> simp

@[simp] theorem execHoldTime_kept (k : Fin 64) (s : State) :
    (nextState (execHoldTime k s) s).kept = s.kept := by
  simp only [execHoldTime, nextState_next]
  (repeat' split) <;> simp


/-! ### Timers -/

@[simp] theorem execTbRead_kept (w : Agent) (s : State) :
    (nextState (execTbRead w s) s).kept = s.kept := by simp [execTbRead]

@[simp] theorem execTmrGo_kept (w : Agent) (lo hi : Word) (s : State) :
    (nextState (execTmrGo w lo hi s) s).kept = s.kept := by simp [execTmrGo]

@[simp] theorem execTmrSnap_kept (w : Agent) (lo hi : Word) (s : State) :
    (nextState (execTmrSnap w lo hi s) s).kept = s.kept := by simp [execTmrSnap]

@[simp] theorem execPop_kept (w : Agent) (n : Fin 64) (s : State) :
    (nextState (execPop w n s) s).kept = s.kept := by simp [execPop]

@[simp] theorem execCapsw_kept (w : Agent) (n : Fin 64) (s : State) :
    (nextState (execCapsw w n s) s).kept = s.kept := by simp [execCapsw]

@[simp] theorem execStop_kept (w : Agent) (n : Fin 64) (s : State) :
    (nextState (execStop w n s) s).kept = s.kept := by simp [execStop]

@[simp] theorem execArm_kept (w : Agent) (n : Fin 64) (s : State) :
    (nextState (execArm w n s) s).kept = s.kept := by simp [execArm]

@[simp] theorem execStart_kept (w : Agent) (n : Fin 64) (s : State) :
    (nextState (execStart w n s) s).kept = s.kept := by simp [execStart]

@[simp] theorem execPeriodWrite_kept (w : Agent) (n : Fin 64) (v : Word) (s : State) :
    (nextState (execPeriodWrite w n v s) s).kept = s.kept := by simp [execPeriodWrite]

@[simp] theorem execCompareWrite_kept (w : Agent) (n : Fin 64) (one : Bool) (v : Word) (s : State)
    :
    (nextState (execCompareWrite w n one v s) s).kept = s.kept := by simp [execCompareWrite]

@[simp] theorem execEndEvent_kept (n : Fin 64) (differ : Bool) (s : State) :
    (nextState (execEndEvent n differ s) s).kept = s.kept := by simp [execEndEvent]

@[simp] theorem execCompare_kept (n : Fin 64) (one : Bool) (s : State) :
    (nextState (execCompare n one s) s).kept = s.kept := by simp [execCompare]


/-! ### Converters -/

@[simp] theorem execConversionStart_kept (c : Fin 4) (slice : Fin 4) (s : State) :
    (nextState (execConversionStart c slice s) s).kept = s.kept := by
  simp only [execConversionStart, nextState_next]
  (repeat' split) <;> simp

@[simp] theorem execConversionResult_kept (c : Fin 4) (x : Sample) (s : State) :
    (nextState (execConversionResult c x s) s).kept = s.kept := by
  simp only [execConversionResult, nextState_next]
  (repeat' split) <;> simp

@[simp] theorem execBlockClose_kept (c : Fin 4) (s : State) :
    (nextState (execBlockClose c s) s).kept = s.kept := by
  simp only [execBlockClose, nextState_next]
  (repeat' split) <;> simp

@[simp] theorem execHoldBackEnd_kept (c : Fin 4) (s : State) :
    (nextState (execHoldBackEnd c s) s).kept = s.kept := by simp [execHoldBackEnd]

@[simp] theorem execReferenceCheck_kept (c : Fin 4) (diff : Nat) (s : State) :
    (nextState (execReferenceCheck c diff s) s).kept = s.kept := by simp [execReferenceCheck]

@[simp] theorem execStale_kept (ch : Fin 32) (s : State) :
    (nextState (execStale ch s) s).kept = s.kept := by simp [execStale]

@[simp] theorem execResultBlock_kept (l : Side) (c : Fin 4) (flip : List Byte) (s : State) :
    (nextState (execResultBlock l c flip s) s).kept = s.kept := by
  simp only [execResultBlock, nextState_next]
  (repeat' split) <;> simp

@[simp] theorem execCnvGo_kept (w0 : Agent) (v : BitVec 4) (s : State) :
    (nextState (execCnvGo w0 v s) s).kept = s.kept := by simp [execCnvGo]

@[simp] theorem execCnvSnap_kept (w0 : Agent) (v : BitVec 4) (s : State) :
    (nextState (execCnvSnap w0 v s) s).kept = s.kept := by simp [execCnvSnap]


/-! ### Calibration -/

@[simp] theorem execCalZero_kept (h : Hdr) (body : List Byte) (s : State) :
    (nextState (execCalZero h body s) s).kept = s.kept := by simp [execCalZero]

@[simp] theorem execCalFull_kept (h : Hdr) (body : List Byte) (s : State) :
    (nextState (execCalFull h body s) s).kept = s.kept := by simp [execCalFull]

@[simp] theorem execCalCommit_kept (h : Hdr) (body : List Byte) (s : State) :
    (nextState (execCalCommit h body s) s).kept = s.kept := by simp [execCalCommit]

@[simp] theorem execCalDiscard_kept (h : Hdr) (body : List Byte) (s : State) :
    (nextState (execCalDiscard h body s) s).kept = s.kept := by simp [execCalDiscard]

@[simp] theorem execCalAverageEnd_kept (s : State) :
    (nextState (execCalAverageEnd s) s).kept = s.kept := by
  simp only [execCalAverageEnd, nextState_next]
  (repeat' split) <;> simp

@[simp] theorem execCalibrationTimeout_kept (s : State) :
    (nextState (execCalibrationTimeout s) s).kept = s.kept := by
  simp only [execCalibrationTimeout, nextState_next]
  (repeat' split) <;> simp


/-! ### RecorderOps -/

@[simp] theorem execFlushEnd_kept (o : FlushOutcome) (s : State) :
    (nextState (execFlushEnd o s) s).kept = s.kept := by simp [execFlushEnd]

@[simp] theorem execFlushInterval_kept (s : State) :
    (nextState (execFlushInterval s) s).kept = s.kept := by simp [execFlushInterval]


/-! ### Validate -/

@[simp] theorem execValidationDone_kept (s : State) :
    (nextState (execValidationDone s) s).kept = s.kept := by
  simp only [execValidationDone, nextState_next]
  (repeat' split) <;> simp


/-! ### Engines -/

@[simp] theorem execCommit_kept (staged : Bool) (i : Fin 1024) (wA : List (Word × Word)) (wB :
    List (Word × PassB)) (ask : List (Fin 32)) (fault : PassFault) (stuckA stuckB : CmpStuck) (s :
    State) :
    (nextState (execCommit staged i wA wB ask fault stuckA stuckB s) s).kept = s.kept := by
  simp only [execCommit, nextState_next]
  (repeat' (first | (simp; done) | split))

@[simp] theorem execOverrun_kept (staged : Bool) (i : Fin 1024) (s : State) :
    (nextState (execOverrun staged i s) s).kept = s.kept := by
  simp only [execOverrun, nextState_next]
  (repeat' split) <;> simp

@[simp] theorem execHoldDeadline_kept (staged : Bool) (i : Fin 1024) (s : State) :
    (nextState (execHoldDeadline staged i s) s).kept = s.kept := by
  simp only [execHoldDeadline, nextState_next]
  (repeat' split) <;> simp

@[simp] theorem execRunAhead_kept (staged : Bool) (a : Ahead) (s : State) :
    (nextState (execRunAhead staged a s) s).kept = s.kept := by
  simp only [execRunAhead, nextState_next]
  (repeat' split) <;> simp

@[simp] theorem execMigration_kept (staged : Bool) (i : Fin 1024) (crcOk : Bool) (s : State) :
    (nextState (execMigration staged i crcOk s) s).kept = s.kept := by
  simp only [execMigration, nextState_next]
  (repeat' split) <;> simp

@[simp] theorem execSelfTestEnd_kept (e : Fin 8) (r : SelfTest) (s : State) :
    (nextState (execSelfTestEnd e r s) s).kept = s.kept := by
  simp only [execSelfTestEnd, nextState_next]
  (repeat' split) <;> simp

@[simp] theorem execDrainEnd_kept (e : Fin 8) (s : State) :
    (nextState (execDrainEnd e s) s).kept = s.kept := by simp [execDrainEnd]


/-! ### ImageCmds -/

@[simp] theorem execImageBegin_kept (h : Hdr) (body : List Byte) (s : State) :
    (nextState (execImageBegin h body s) s).kept = s.kept := by simp [execImageBegin]

@[simp] theorem execImageChunk_kept (h : Hdr) (body : List Byte) (s : State) :
    (nextState (execImageChunk h body s) s).kept = s.kept := by simp [execImageChunk]

@[simp] theorem execImageEnd_kept (h : Hdr) (body : List Byte) (s : State) :
    (nextState (execImageEnd h body s) s).kept = s.kept := by simp [execImageEnd]

@[simp] theorem execImageAbandon_kept (h : Hdr) (body : List Byte) (s : State) :
    (nextState (execImageAbandon h body s) s).kept = s.kept := by simp [execImageAbandon]

@[simp] theorem execLoadTimeout_kept (s : State) :
    (nextState (execLoadTimeout s) s).kept = s.kept := by
  simp only [execLoadTimeout, nextState_next]
  (repeat' split) <;> simp

@[simp] theorem execImageValidate_kept (h : Hdr) (body : List Byte) (s : State) :
    (nextState (execImageValidate h body s) s).kept = s.kept := by simp [execImageValidate]

@[simp] theorem execImageStage_kept (h : Hdr) (body : List Byte) (s : State) :
    (nextState (execImageStage h body s) s).kept = s.kept := by simp [execImageStage]

@[simp] theorem execReady_kept (s : State) :
    (nextState (execReady s) s).kept = s.kept := by simp [execReady]

@[simp] theorem execImageHandover_kept (h : Hdr) (body : List Byte) (s : State) :
    (nextState (execImageHandover h body s) s).kept = s.kept := by simp [execImageHandover]

@[simp] theorem execHandoverCommit_kept (s : State) :
    (nextState (execHandoverCommit s) s).kept = s.kept := by
  simp only [execHandoverCommit, nextState_next]
  (repeat' split) <;> simp

@[simp] theorem execSealChange_kept (code : Byte) (s : State) :
    (nextState (execSealChange code s) s).kept = s.kept := by simp [execSealChange]

@[simp] theorem execCover_kept (c : CoverSwitch) (s : State) :
    (nextState (execCover c s) s).kept = s.kept := by
  simp only [execCover, nextState_next]
  (repeat' split) <;> simp


/-! ### FunctionTable -/

@[simp] theorem execFunctionQuery_kept (h : Hdr) (body : List Byte) (s : State) :
    (nextState (execFunctionQuery h body s) s).kept = s.kept := by simp [execFunctionQuery]


/-! ### EngineCmds -/

@[simp] theorem execFunctionReset_kept (h : Hdr) (body : List Byte) (s : State) :
    (nextState (execFunctionReset h body s) s).kept = s.kept := by simp [execFunctionReset]

@[simp] theorem execOutputReset_kept (h : Hdr) (k : Fin 64) (s : State) :
    (nextState (execOutputReset h k s) s).kept = s.kept := by simp [execOutputReset]

@[simp] theorem execEngineSplit_kept (h : Hdr) (body : List Byte) (s : State) :
    (nextState (execEngineSplit h body s) s).kept = s.kept := by simp [execEngineSplit]

@[simp] theorem execEngineJoin_kept (h : Hdr) (body : List Byte) (s : State) :
    (nextState (execEngineJoin h body s) s).kept = s.kept := by simp [execEngineJoin]

@[simp] theorem execDebugAttach_kept (h : Hdr) (body : List Byte) (s : State) :
    (nextState (execDebugAttach h body s) s).kept = s.kept := by simp [execDebugAttach]

@[simp] theorem execHalt_kept (h : Hdr) (e : Fin 8) (s : State) :
    (nextState (execHalt h e s) s).kept = s.kept := by simp [execHalt]

@[simp] theorem execResume_kept (h : Hdr) (e : Fin 8) (s : State) :
    (nextState (execResume h e s) s).kept = s.kept := by simp [execResume]

@[simp] theorem execDebugStep_kept (h : Hdr) (e : Fin 8) (s : State) :
    (nextState (execDebugStep h e s) s).kept = s.kept := by simp [execDebugStep]

@[simp] theorem execDebugRead_kept (h : Hdr) (e : Fin 8) (space : DebugSpace) (addr : Word) (len :
    Half) (s : State) :
    (nextState (execDebugRead h e space addr len s) s).kept = s.kept := by simp [execDebugRead]

@[simp] theorem execDebugWrite_kept (h : Hdr) (e : Fin 8) (space : DebugSpace) (addr : Word) (data
    : List Byte) (s : State) :
    (nextState (execDebugWrite h e space addr data s) s).kept = s.kept := by
  simp [execDebugWrite]

@[simp] theorem execBreakSet_kept (h : Hdr) (e : Fin 8) (addr : Word) (set : Half) (s : State) :
    (nextState (execBreakSet h e addr set s) s).kept = s.kept := by simp [execBreakSet]

@[simp] theorem execDebugDetach_kept (h : Hdr) (body : List Byte) (s : State) :
    (nextState (execDebugDetach h body s) s).kept = s.kept := by simp [execDebugDetach]

@[simp] theorem execBreakpoint_kept (e : Fin 8) (s : State) :
    (nextState (execBreakpoint e s) s).kept = s.kept := by simp [execBreakpoint]


/-! ### Fuses -/

@[simp] theorem execProgrammingWindow_kept (mV : Nat) (temp : Int) (s : State) :
    (nextState (execProgrammingWindow mV temp s) s).kept = s.kept := by
  simp [execProgrammingWindow]


/-! ### RecFuseCmds -/

@[simp] theorem execRecInfo_kept (h : Hdr) (body : List Byte) (s : State) :
    (nextState (execRecInfo h body s) s).kept = s.kept := by simp [execRecInfo]

@[simp] theorem execRecRead_kept (h : Hdr) (body : List Byte) (s : State) :
    (nextState (execRecRead h body s) s).kept = s.kept := by simp [execRecRead]

@[simp] theorem execRecClear_kept (h : Hdr) (body : List Byte) (s : State) :
    (nextState (execRecClear h body s) s).kept = s.kept := by simp [execRecClear]

@[simp] theorem execFuseRead_kept (h : Hdr) (body : List Byte) (s : State) :
    (nextState (execFuseRead h body s) s).kept = s.kept := by simp [execFuseRead]

@[simp] theorem execFuseAdvance_kept (h : Hdr) (body : List Byte) (s : State) :
    (nextState (execFuseAdvance h body s) s).kept = s.kept := by simp [execFuseAdvance]


/-! ### Sessions -/

@[simp] theorem execSessionOpen_kept (h : Hdr) (body : List Byte) (s : State) :
    (nextState (execSessionOpen h body s) s).kept = s.kept := by simp [execSessionOpen]

@[simp] theorem execSessionClose_kept (h : Hdr) (body : List Byte) (s : State) :
    (nextState (execSessionClose h body s) s).kept = s.kept := by simp [execSessionClose]

@[simp] theorem execSessionTimeout_kept (k : Fin 8) (s : State) :
    (nextState (execSessionTimeout k s) s).kept = s.kept := by
  simp only [execSessionTimeout, nextState_next]
  (repeat' split) <;> simp

@[simp] theorem execChallengeTimeout_kept (k : Fin 8) (s : State) :
    (nextState (execChallengeTimeout k s) s).kept = s.kept := by
  simp only [execChallengeTimeout, nextState_next]
  (repeat' split) <;> simp

@[simp] theorem execLockOutEnd_kept (s : State) :
    (nextState (execLockOutEnd s) s).kept = s.kept := by
  simp only [execLockOutEnd, nextState_next]
  (repeat' split) <;> simp

@[simp] theorem execStreamOpen_kept (h : Hdr) (body : List Byte) (s : State) :
    (nextState (execStreamOpen h body s) s).kept = s.kept := by simp [execStreamOpen]

@[simp] theorem execStreamClose_kept (h : Hdr) (body : List Byte) (s : State) :
    (nextState (execStreamClose h body s) s).kept = s.kept := by simp [execStreamClose]

@[simp] theorem execStreamPacket_kept (k : Fin 4) (s : State) :
    (nextState (execStreamPacket k s) s).kept = s.kept := by
  simp only [execStreamPacket, nextState_next]
  (repeat' split) <;> simp


/-! ### Sea -/

@[simp] theorem execEvaluation_kept (p : Fin 64) (bad : List Nat) (s : State) :
    (nextState (execEvaluation p bad s) s).kept = s.kept := by
  simp only [execEvaluation, nextState_next]
  (repeat' split) <;> simp

@[simp] theorem execRefresh_kept (p : Fin 64) (s : State) :
    (nextState (execRefresh p s) s).kept = s.kept := by
  simp only [execRefresh, nextState_next]
  (repeat' split) <;> simp

@[simp] theorem execEvaluationTimeout_kept (p : Fin 64) (s : State) :
    (nextState (execEvaluationTimeout p s) s).kept = s.kept := by
  simp only [execEvaluationTimeout, nextState_next]
  (repeat' split) <;> simp

@[simp] theorem execDelayExpiry_kept (p : Fin 64) (site : Nat) (s : State) :
    (nextState (execDelayExpiry p site s) s).kept = s.kept := by
  simp only [execDelayExpiry, nextState_next]
  (repeat' split) <;> simp

@[simp] theorem execLongDelayExpiry_kept (p : Fin 64) (u : Fin 8) (s : State) :
    (nextState (execLongDelayExpiry p u s) s).kept = s.kept := by
  simp only [execLongDelayExpiry, nextState_next]
  (repeat' split) <;> simp

@[simp] theorem execSagRideThrough_kept (p : Fin 64) (port : Nat) (s : State) :
    (nextState (execSagRideThrough p port s) s).kept = s.kept := by
  simp only [execSagRideThrough, nextState_next]
  (repeat' split) <;> simp

@[simp] theorem execMirrorBuild_kept (p : Fin 64) (s : State) :
    (nextState (execMirrorBuild p s) s).kept = s.kept := by
  simp only [execMirrorBuild, nextState_next]
  (repeat' split) <;> simp

@[simp] theorem execRewrite_kept (p : Fin 64) (s : State) :
    (nextState (execRewrite p s) s).kept = s.kept := by
  simp only [execRewrite, nextState_next]
  (repeat' split) <;> simp

@[simp] theorem execHoldAllowance_kept (r : Fin 64) (s : State) :
    (nextState (execHoldAllowance r s) s).kept = s.kept := by simp [execHoldAllowance]

@[simp] theorem execRoomSelfTest_kept (p : Fin 64) (s : State) :
    (nextState (execRoomSelfTest p s) s).kept = s.kept := by simp [execRoomSelfTest]

@[simp] theorem execRoomSelfTestEnd_kept (p : Fin 64) (o : RoomTest) (s : State) :
    (nextState (execRoomSelfTestEnd p o s) s).kept = s.kept := by
  simp only [execRoomSelfTestEnd, nextState_next]
  (repeat' split) <;> simp

@[simp] theorem execSpeedMonitor_kept (sea eng : List Nat) (s : State) :
    (nextState (execSpeedMonitor sea eng s) s).kept = s.kept := by
  simp only [execSpeedMonitor, nextState_next]
  (repeat' split) <;> simp


/-! ### Startup -/

@[simp] theorem execWindowStart_kept (staged : Bool) (i : Fin 1024) (s : State) :
    (nextState (execWindowStart staged i s) s).kept = s.kept := by
  simp only [execWindowStart, nextState_next]
  (repeat' split) <;> simp


/-! ### Firmware -/

@[simp] theorem execSwitchover_kept (p : ProcStop) (s : State) :
    (nextState (execSwitchover p s) s).kept = s.kept := by
  simp only [execSwitchover, nextState_next]
  (repeat' split) <;> simp

@[simp] theorem execFirmwareBegin_kept (h : Hdr) (body : List Byte) (s : State) :
    (nextState (execFirmwareBegin h body s) s).kept = s.kept := by simp [execFirmwareBegin]

@[simp] theorem execFirmwareChunk_kept (h : Hdr) (body : List Byte) (s : State) :
    (nextState (execFirmwareChunk h body s) s).kept = s.kept := by simp [execFirmwareChunk]

@[simp] theorem execFirmwareEnd_kept (h : Hdr) (body : List Byte) (s : State) :
    (nextState (execFirmwareEnd h body s) s).kept = s.kept := by simp [execFirmwareEnd]

@[simp] theorem execFirmwareCheckEnd_kept (s : State) :
    (nextState (execFirmwareCheckEnd s) s).kept = s.kept := by
  simp only [execFirmwareCheckEnd, nextState_next]
  (repeat' split) <;> simp

@[simp] theorem execFirmwareSwitch_kept (h : Hdr) (body : List Byte) (s : State) :
    (nextState (execFirmwareSwitch h body s) s).kept = s.kept := by simp [execFirmwareSwitch]


/-! ### CheckUnits -/

@[simp] theorem execCvuInit_kept (u : Fin 19) (s : State) :
    (nextState (execCvuInit u s) s).kept = s.kept := by simp [execCvuInit]

@[simp] theorem execCvuData_kept (u : Fin 19) (width : Fin 3) (v : Word) (differ : CopyFault) (s :
    State) :
    (nextState (execCvuData u width v differ s) s).kept = s.kept := by
  simp only [execCvuData, nextState_next]
  (repeat' split) <;> simp

@[simp] theorem execCvuExpect_kept (u : Fin 19) (v : Word) (s : State) :
    (nextState (execCvuExpect u v s) s).kept = s.kept := by simp [execCvuExpect]

@[simp] theorem execStateRecompute_kept (s : State) :
    (nextState (execStateRecompute s) s).kept = s.kept := by simp [execStateRecompute]


/-! ### Fabric -/

@[simp] theorem execHello_kept (p : Fin 4) (s : State) :
    (nextState (execHello p s) s).kept = s.kept := by simp [execHello]

@[simp] theorem execHelloReceived_kept (p : Fin 4) (f : List Byte) (s : State) :
    (nextState (execHelloReceived p f s) s).kept = s.kept := by
  have hk := State.takeFrame_kept s p f 3 1
  simp only [execHelloReceived, nextState_next]
  (repeat' split) <;> simp_all

@[simp] theorem execHelloTimeout_kept (p : Fin 4) (s : State) :
    (nextState (execHelloTimeout p s) s).kept = s.kept := by
  simp only [execHelloTimeout, nextState_next]
  (repeat' split) <;> simp

@[simp] theorem execLsa_kept (s : State) :
    (nextState (execLsa s) s).kept = s.kept := by simp [execLsa]

@[simp] theorem execLsaReceived_kept (p : Fin 4) (f : List Byte) (s : State) :
    (nextState (execLsaReceived p f s) s).kept = s.kept := by
  have hk := State.takeFrame_kept s p f 1 2
  simp only [execLsaReceived, nextState_next]
  (repeat' split) <;> simp_all

@[simp] theorem execLsaAgeOut_kept (uid : Long) (s : State) :
    (nextState (execLsaAgeOut uid s) s).kept = s.kept := by simp [execLsaAgeOut]

@[simp] theorem execRouteRecompute_kept (s : State) :
    (nextState (execRouteRecompute s) s).kept = s.kept := by simp [execRouteRecompute]

@[simp] theorem execRelease_kept (k : Fin 320) (s : State) :
    (nextState (execRelease k s) s).kept = s.kept := by
  simp only [execRelease, nextState_next]
  (repeat' (first | (simp; done) | split))

@[simp] theorem execSdata_kept (p : Fin 4) (f : List Byte) (s : State) :
    (nextState (execSdata p f s) s).kept = s.kept := by
  have hk := State.takeFrame_kept s p f 0 1
  simp only [execSdata, nextState_next]
  (repeat' split) <;> simp_all

@[simp] theorem execWatchdog_kept (k : Fin 320) (s : State) :
    (nextState (execWatchdog k s) s).kept = s.kept := by simp [execWatchdog]

@[simp] theorem execCdata_kept (p : Fin 4) (f : List Byte) (s : State) :
    (nextState (execCdata p f s) s).kept = s.kept := by
  have hk := State.takeFrame_kept s p f 1 16
  simp only [execCdata, nextState_next]
  (repeat' split) <;> simp_all

@[simp] theorem execBdata_kept (p : Fin 4) (f : List Byte) (s : State) :
    (nextState (execBdata p f s) s).kept = s.kept := by
  have hk := State.takeFrame_kept s p f 2 32
  simp only [execBdata, nextState_next]
  (repeat' split) <;> simp_all

@[simp] theorem execSafetyLoadWindow_kept (p : Fin 4) (s : State) :
    (nextState (execSafetyLoadWindow p s) s).kept = s.kept := by simp [execSafetyLoadWindow]

@[simp] theorem execFabricMap_kept (h : Hdr) (body : List Byte) (s : State) :
    (nextState (execFabricMap h body s) s).kept = s.kept := by simp [execFabricMap]

@[simp] theorem execPeerAccept_kept (h : Hdr) (body : List Byte) (s : State) :
    (nextState (execPeerAccept h body s) s).kept = s.kept := by simp [execPeerAccept]

@[simp] theorem execPeerExpel_kept (h : Hdr) (body : List Byte) (s : State) :
    (nextState (execPeerExpel h body s) s).kept = s.kept := by simp [execPeerExpel]


/-! ### Links -/

@[simp] theorem execUplinkLaunch_kept (s : State) :
    (nextState (execUplinkLaunch s) s).kept = s.kept := by simp [execUplinkLaunch]

@[simp] theorem execUplinkFrame_kept (l : Side) (bad : Bool) (s : State) :
    (nextState (execUplinkFrame l bad s) s).kept = s.kept := by
  simp only [execUplinkFrame, nextState_next]
  (repeat' split) <;> simp

@[simp] theorem execFrameMissing_kept (l : Side) (s : State) :
    (nextState (execFrameMissing l s) s).kept = s.kept := by
  simp only [execFrameMissing, nextState_next]
  (repeat' split) <;> simp

@[simp] theorem execDownlinkFrame_kept (s : State) :
    (nextState (execDownlinkFrame s) s).kept = s.kept := by simp [execDownlinkFrame]

@[simp] theorem execDownlinkAccept_kept (q : Side) (bad : Bool) (s : State) :
    (nextState (execDownlinkAccept q bad s) s).kept = s.kept := by
  simp only [execDownlinkAccept, nextState_next]
  (repeat' split) <;> simp

@[simp] theorem execConfigurationPacket_kept (q : Side) (s : State) :
    (nextState (execConfigurationPacket q s) s).kept = s.kept := by
  simp only [execConfigurationPacket, nextState_next]
  (repeat' split) <;> simp

@[simp] theorem execDisagree_kept (n : Fin 192) (s : State) :
    (nextState (execDisagree n s) s).kept = s.kept := by
  simp only [execDisagree, nextState_next]
  (repeat' split) <;> simp

@[simp] theorem execAgreement_kept (n : Fin 192) (s : State) :
    (nextState (execAgreement n s) s).kept = s.kept := by
  simp only [execAgreement, nextState_next]
  (repeat' split) <;> simp

@[simp] theorem execReTestEnd_kept (k : Fin 64) (s : State) :
    (nextState (execReTestEnd k s) s).kept = s.kept := by
  simp only [execReTestEnd, nextState_next]
  (repeat' split) <;> simp

@[simp] theorem execCounterClear_kept (p : Fin 4) (v : Word) (s : State) :
    (nextState (execCounterClear p v s) s).kept = s.kept := by simp [execCounterClear]


/-! ### Power -/

@[simp] theorem execSwitchOff_kept (s : State) :
    (nextState (execSwitchOff s) s).kept = s.kept := by
  simp only [execSwitchOff, nextState_next]
  (repeat' split) <;> simp

@[simp] theorem execFieldFall_kept (s : State) :
    (nextState (execFieldFall s) s).kept = s.kept := by simp [execFieldFall]

@[simp] theorem execCellarFall_kept (s : State) :
    (nextState (execCellarFall s) s).kept = s.kept := by simp [execCellarFall]

@[simp] theorem execHoldupMeasurement_kept (ms : Nat) (s : State) :
    (nextState (execHoldupMeasurement ms s) s).kept = s.kept := by simp [execHoldupMeasurement]

@[simp] theorem execCharged_kept (s : State) :
    (nextState (execCharged s) s).kept = s.kept := by simp [execCharged]

@[simp] theorem execOperatingSecond_kept (s : State) :
    (nextState (execOperatingSecond s) s).kept = s.kept := by simp [execOperatingSecond]

@[simp] theorem execDomainPowerDown_kept (d : BitVec 3) (s : State) :
    (nextState (execDomainPowerDown d s) s).kept = s.kept := by simp [execDomainPowerDown]

@[simp] theorem execDomainPowerUp_kept (d : BitVec 3) (s : State) :
    (nextState (execDomainPowerUp d s) s).kept = s.kept := by simp [execDomainPowerUp]

@[simp] theorem execDomainDownEnd_kept (d : Fin 8) (s : State) :
    (nextState (execDomainDownEnd d s) s).kept = s.kept := by simp [execDomainDownEnd]

@[simp] theorem execDomainUpEnd_kept (d : Fin 8) (o : StartOutcome) (s : State) :
    (nextState (execDomainUpEnd d o s) s).kept = s.kept := by simp [execDomainUpEnd]

@[simp] theorem execDomainFault_kept (d : Fin 8) (s : State) :
    (nextState (execDomainFault d s) s).kept = s.kept := by
  simp only [execDomainFault, nextState_next]
  (repeat' split) <;> simp

@[simp] theorem execDomainRetry_kept (d : Fin 8) (s : State) :
    (nextState (execDomainRetry d s) s).kept = s.kept := by
  simp only [execDomainRetry, nextState_next]
  (repeat' split) <;> simp

@[simp] theorem execLossOfSignal_kept (q : Side) (s : State) :
    (nextState (execLossOfSignal q s) s).kept = s.kept := by simp [execLossOfSignal]

@[simp] theorem execRelock_kept (s : State) :
    (nextState (execRelock s) s).kept = s.kept := by
  simp only [execRelock, nextState_next]
  (repeat' split) <;> simp

@[simp] theorem execDisagreement_kept (ppm : Int) (wA wB : Nat) (s : State) :
    (nextState (execDisagreement ppm wA wB s) s).kept = s.kept := by simp [execDisagreement]

@[simp] theorem execWoscCheck_kept (wosc : Bool) (ppmA ppmB : Int) (s : State) :
    (nextState (execWoscCheck wosc ppmA ppmB s) s).kept = s.kept := by
  simp only [execWoscCheck, nextState_next]
  (repeat' split) <;> simp


/-! ### WriteRegs -/

@[simp] theorem execReadRegs_kept (h : Hdr) (body : List Byte) (s : State) :
    (nextState (execReadRegs h body s) s).kept = s.kept := by simp [execReadRegs]

@[simp] theorem execWriteRegs_kept (h : Hdr) (body : List Byte) (s : State) :
    (nextState (execWriteRegs h body s) s).kept = s.kept := by simp [execWriteRegs]

@[simp] theorem execRegisterWrite_kept (w : Agent) (addr v : Word) (s : State) :
    (nextState (execRegisterWrite w addr v s) s).kept = s.kept := by simp [execRegisterWrite]


/-! ### PorchInfo -/

@[simp] theorem execIdentify_kept (h : Hdr) (body : List Byte) (s : State) :
    (nextState (execIdentify h body s) s).kept = s.kept := by simp [execIdentify]

@[simp] theorem execGetStatus_kept (h : Hdr) (body : List Byte) (s : State) :
    (nextState (execGetStatus h body s) s).kept = s.kept := by simp [execGetStatus]

@[simp] theorem execPrpSupervision_kept (s : State) :
    (nextState (execPrpSupervision s) s).kept = s.kept := by simp [execPrpSupervision]

@[simp] theorem execArp_kept (bytes : List Byte) (s : State) :
    (nextState (execArp bytes s) s).kept = s.kept := by simp [execArp]

@[simp] theorem execIcmpEcho_kept (bytes : List Byte) (s : State) :
    (nextState (execIcmpEcho bytes s) s).kept = s.kept := by simp [execIcmpEcho]

@[simp] theorem execStartupStep_kept (o : StartOutcome) (s : State) :
    (nextState (execStartupStep o s) s).kept = s.kept := by
  unfold execStartupStep
  dsimp only
  split
  · rfl
  · (repeat' split) <;> simp

/-! ### Frames, and the commands that touch one of the three -/

theorem commandOf_kept {op : Nat} {h : Hdr} {body : List Byte}
    {f : State → Host.Outcome State Fault Refusal} (hf : commandOf op h body = some f) (s : State) :
    (nextState (f s) s).kept = s.kept := by
  unfold commandOf at hf
  split at hf <;> first
    | (cases hf; simp)
    | cases hf

@[simp] theorem State.takeRequest_kept (s : State) (o : Origin) (b : List Byte) :
    (s.takeRequest o b).kept = s.kept := by
  unfold State.takeRequest
  dsimp only
  split
  · simp
  · split
    · simp
    · split
      · simp
      · rename_i f hf
        exact commandOf_kept hf s

@[simp] theorem State.takeMailbox_kept (s : State) (o : Origin) (b : List Byte) :
    (s.takeMailbox o b).kept = s.kept := by
  unfold State.takeMailbox
  dsimp only
  (repeat' split) <;> simp

@[simp] theorem execMailboxFrame_kept (w : Wire) (b : List Byte) (s : State) :
    (nextState (execMailboxFrame w b s) s).kept = s.kept := by
  unfold execMailboxFrame
  (repeat' split) <;> simp

/-- FUSE_BLOW: the queue and the timebase stay; rows of the array gain bits. -/
theorem execFuseBlow_spec (r : BlowEnd) (s : State) :
    ∃ t, execFuseBlow r s = .next t ∧ t.pending = s.pending ∧ t.tb = s.tb ∧
      ∃ m, t.nv.rows = addRows m s.nv.rows := by
  refine ⟨_, rfl, ?_⟩
  have ae := fun t : State => kept_eq (State.advanceEnds_kept t)
  have fk := fun t : State => kept_eq (State.fuseKick_kept t)
  have rc := fun (t : State) (a b c) => kept_eq (State.record_kept t a b c false none)
  dsimp only
  split
  · exact ⟨rfl, rfl, [], rfl⟩
  · rename_i x rest hb
    split
    · exact ⟨rfl, rfl, [], rfl⟩
    · split
      · rw [(fk _).1, (ae _).1, (fk _).2.1, (ae _).2.1, (fk _).2.2, (ae _).2.2,
          (rc _ _ _ _).1, (rc _ _ _ _).2.1, (rc _ _ _ _).2.2]
        refine ⟨(State.burn_spec _ _ _).1, (State.burn_spec _ _ _).2.1,
          [(x.word, .whole (BitVec.ofNat 32 (1 <<< x.bit)))], ?_⟩
        exact (State.burn_spec _ _ _).2.2
      · rw [(fk _).1, (ae _).1, (fk _).2.1, (ae _).2.1, (fk _).2.2, (ae _).2.2]
        have d := State.redirectTo_spec x.word x.bit ({ s with fus := { s.fus with blowing := false } } : State).nv.spares
          { s with fus := { s.fus with blowing := false } }
        split
        · rw [(rc _ _ _ _).1, (rc _ _ _ _).2.1, (rc _ _ _ _).2.2]
          exact d
        · exact d
      · exact State.cutRow_spec _ _ _ _

theorem execSupplyMeasurement_spec (q : Side) (mV : Int) (s : State) :
    ∃ t, execSupplyMeasurement q mV s = .next t ∧ t.pending = s.pending ∧ t.nv.rows = s.nv.rows := by
  refine ⟨_, rfl, ?_⟩
  have n := fun t : State => fun u => kept_eq (State.newSupply_kept t q u)
  have p := fun t : State => fun u => kept_eq (State.setSupply_kept t q u)
  (repeat' split) <;> simp [State.judgeSupplies_spec, State.cellarUp_spec, n, p]

theorem execProcessorRestart_spec (q : Side) (ok : Bool) (s : State) :
    ∃ t, execProcessorRestart q ok s = .next t ∧ t.pending = s.pending ∧ t.nv.rows = s.nv.rows := by
  refine ⟨_, rfl, ?_⟩
  have k : ∀ t : State, t.kept = s.kept → t.pending = s.pending ∧ t.nv.rows = s.nv.rows :=
    fun t h => ⟨(kept_eq h).1, (kept_eq h).2.2⟩
  dsimp only
  split
  · exact ⟨rfl, rfl⟩
  · split
    · have h := kept_eq (s := s) (t := (s.setBankPtr .a (1 - s.nv.bankA)).setBankPtr .b (1 - s.nv.bankB))
        (by simp)
      exact ⟨(State.coldStart_spec _).1.trans h.1, (State.coldStart_spec _).2.trans h.2.2⟩
    all_goals
      apply k
      (repeat' split) <;> simp

end Sys2Proof.Machine
end

