-- ==== Sys2Proof/Laws/State.lean ====
section
/-! SUPPORT. What each update of one field of the state leaves alone: every other field, whole. -/

namespace Sys2Proof.Machine

@[simp] theorem State.setDom_frame (s : State) (d : Nat) (v : Domain) :
    (s.setDom d v).pending = s.pending ∧ (s.setDom d v).tb = s.tb ∧ (s.setDom d v).free = s.free ∧
    (s.setDom d v).sent = s.sent ∧ (s.setDom d v).flagSet = s.flagSet ∧ (s.setDom d v).nv = s.nv ∧
    (s.setDom d v).fus = s.fus ∧ (s.setDom d v).rcd = s.rcd ∧ (s.setDom d v).tmr = s.tmr ∧
    (s.setDom d v).cvu = s.cvu ∧ (s.setDom d v).fld = s.fld ∧ (s.setDom d v).lgc = s.lgc ∧
    (s.setDom d v).cnv = s.cnv ∧ (s.setDom d v).sea = s.sea ∧ (s.setDom d v).eng = s.eng ∧
    (s.setDom d v).svc = s.svc ∧ (s.setDom d v).cfg = s.cfg ∧ (s.setDom d v).por = s.por ∧
    (s.setDom d v).lnk = s.lnk :=
  ⟨rfl, rfl, rfl, rfl, rfl, rfl, rfl, rfl, rfl, rfl, rfl, rfl, rfl, rfl, rfl, rfl, rfl, rfl, rfl⟩

@[simp] theorem State.setUnit_frame (s : State) (u : Nat) (c : Cvu) :
    (s.setUnit u c).pending = s.pending ∧ (s.setUnit u c).tb = s.tb ∧
    (s.setUnit u c).free = s.free ∧ (s.setUnit u c).sent = s.sent ∧
    (s.setUnit u c).flagSet = s.flagSet ∧ (s.setUnit u c).nv = s.nv ∧ (s.setUnit u c).pwr = s.pwr ∧
    (s.setUnit u c).fus = s.fus ∧ (s.setUnit u c).rcd = s.rcd ∧ (s.setUnit u c).tmr = s.tmr ∧
    (s.setUnit u c).fld = s.fld ∧ (s.setUnit u c).lgc = s.lgc ∧ (s.setUnit u c).cnv = s.cnv ∧
    (s.setUnit u c).sea = s.sea ∧ (s.setUnit u c).eng = s.eng ∧ (s.setUnit u c).svc = s.svc ∧
    (s.setUnit u c).cfg = s.cfg ∧ (s.setUnit u c).por = s.por ∧ (s.setUnit u c).lnk = s.lnk :=
  ⟨rfl, rfl, rfl, rfl, rfl, rfl, rfl, rfl, rfl, rfl, rfl, rfl, rfl, rfl, rfl, rfl, rfl, rfl, rfl⟩

@[simp] theorem State.setShadow_frame (s : State) (w b : Nat) :
    (s.setShadow w b).pending = s.pending ∧ (s.setShadow w b).tb = s.tb ∧
    (s.setShadow w b).free = s.free ∧ (s.setShadow w b).sent = s.sent ∧
    (s.setShadow w b).flagSet = s.flagSet ∧ (s.setShadow w b).nv = s.nv ∧
    (s.setShadow w b).pwr = s.pwr ∧ (s.setShadow w b).rcd = s.rcd ∧ (s.setShadow w b).tmr = s.tmr ∧
    (s.setShadow w b).cvu = s.cvu ∧ (s.setShadow w b).fld = s.fld ∧ (s.setShadow w b).lgc = s.lgc ∧
    (s.setShadow w b).cnv = s.cnv ∧ (s.setShadow w b).sea = s.sea ∧ (s.setShadow w b).eng = s.eng ∧
    (s.setShadow w b).svc = s.svc ∧ (s.setShadow w b).cfg = s.cfg ∧ (s.setShadow w b).por = s.por ∧
    (s.setShadow w b).lnk = s.lnk :=
  ⟨rfl, rfl, rfl, rfl, rfl, rfl, rfl, rfl, rfl, rfl, rfl, rfl, rfl, rfl, rfl, rfl, rfl, rfl, rfl⟩

@[simp] theorem State.addBlow_frame (s : State) (x : Blow) :
    (s.addBlow x).pending = s.pending ∧ (s.addBlow x).tb = s.tb ∧ (s.addBlow x).free = s.free ∧
    (s.addBlow x).sent = s.sent ∧ (s.addBlow x).flagSet = s.flagSet ∧ (s.addBlow x).pwr = s.pwr ∧
    (s.addBlow x).fus = s.fus ∧ (s.addBlow x).rcd = s.rcd ∧ (s.addBlow x).tmr = s.tmr ∧
    (s.addBlow x).cvu = s.cvu ∧ (s.addBlow x).fld = s.fld ∧ (s.addBlow x).lgc = s.lgc ∧
    (s.addBlow x).cnv = s.cnv ∧ (s.addBlow x).sea = s.sea ∧ (s.addBlow x).eng = s.eng ∧
    (s.addBlow x).svc = s.svc ∧ (s.addBlow x).cfg = s.cfg ∧ (s.addBlow x).por = s.por ∧
    (s.addBlow x).lnk = s.lnk :=
  ⟨rfl, rfl, rfl, rfl, rfl, rfl, rfl, rfl, rfl, rfl, rfl, rfl, rfl, rfl, rfl, rfl, rfl, rfl, rfl⟩

@[simp] theorem State.noteFlag_frame (s : State) (k : Nat) :
    (s.noteFlag k).pending = s.pending ∧ (s.noteFlag k).tb = s.tb ∧ (s.noteFlag k).free = s.free ∧
    (s.noteFlag k).sent = s.sent ∧ (s.noteFlag k).nv = s.nv ∧ (s.noteFlag k).pwr = s.pwr ∧
    (s.noteFlag k).fus = s.fus ∧ (s.noteFlag k).rcd = s.rcd ∧ (s.noteFlag k).tmr = s.tmr ∧
    (s.noteFlag k).cvu = s.cvu ∧ (s.noteFlag k).fld = s.fld ∧ (s.noteFlag k).lgc = s.lgc ∧
    (s.noteFlag k).cnv = s.cnv ∧ (s.noteFlag k).sea = s.sea ∧ (s.noteFlag k).eng = s.eng ∧
    (s.noteFlag k).svc = s.svc ∧ (s.noteFlag k).cfg = s.cfg ∧ (s.noteFlag k).por = s.por ∧
    (s.noteFlag k).lnk = s.lnk :=
  ⟨rfl, rfl, rfl, rfl, rfl, rfl, rfl, rfl, rfl, rfl, rfl, rfl, rfl, rfl, rfl, rfl, rfl, rfl, rfl⟩

@[simp] theorem State.takeFree_frame (s : State) :
    (s.takeFree).pending = s.pending ∧ (s.takeFree).tb = s.tb ∧ (s.takeFree).sent = s.sent ∧
    (s.takeFree).flagSet = s.flagSet ∧ (s.takeFree).nv = s.nv ∧ (s.takeFree).pwr = s.pwr ∧
    (s.takeFree).fus = s.fus ∧ (s.takeFree).rcd = s.rcd ∧ (s.takeFree).tmr = s.tmr ∧
    (s.takeFree).cvu = s.cvu ∧ (s.takeFree).fld = s.fld ∧ (s.takeFree).lgc = s.lgc ∧
    (s.takeFree).cnv = s.cnv ∧ (s.takeFree).sea = s.sea ∧ (s.takeFree).eng = s.eng ∧
    (s.takeFree).svc = s.svc ∧ (s.takeFree).cfg = s.cfg ∧ (s.takeFree).por = s.por ∧
    (s.takeFree).lnk = s.lnk :=
  ⟨rfl, rfl, rfl, rfl, rfl, rfl, rfl, rfl, rfl, rfl, rfl, rfl, rfl, rfl, rfl, rfl, rfl, rfl, rfl⟩

@[simp] theorem State.setTimer_frame (s : State) (n : Nat) (t : Timer) :
    (s.setTimer n t).pending = s.pending ∧ (s.setTimer n t).tb = s.tb ∧
    (s.setTimer n t).free = s.free ∧ (s.setTimer n t).sent = s.sent ∧
    (s.setTimer n t).flagSet = s.flagSet ∧ (s.setTimer n t).nv = s.nv ∧
    (s.setTimer n t).pwr = s.pwr ∧ (s.setTimer n t).fus = s.fus ∧ (s.setTimer n t).rcd = s.rcd ∧
    (s.setTimer n t).cvu = s.cvu ∧ (s.setTimer n t).fld = s.fld ∧ (s.setTimer n t).lgc = s.lgc ∧
    (s.setTimer n t).cnv = s.cnv ∧ (s.setTimer n t).sea = s.sea ∧ (s.setTimer n t).eng = s.eng ∧
    (s.setTimer n t).svc = s.svc ∧ (s.setTimer n t).cfg = s.cfg ∧ (s.setTimer n t).por = s.por ∧
    (s.setTimer n t).lnk = s.lnk :=
  ⟨rfl, rfl, rfl, rfl, rfl, rfl, rfl, rfl, rfl, rfl, rfl, rfl, rfl, rfl, rfl, rfl, rfl, rfl, rfl⟩

@[simp] theorem State.setReader_frame (s : State) (r : Nat) (v : TmrReader) :
    (s.setReader r v).pending = s.pending ∧ (s.setReader r v).tb = s.tb ∧
    (s.setReader r v).free = s.free ∧ (s.setReader r v).sent = s.sent ∧
    (s.setReader r v).flagSet = s.flagSet ∧ (s.setReader r v).nv = s.nv ∧
    (s.setReader r v).pwr = s.pwr ∧ (s.setReader r v).fus = s.fus ∧ (s.setReader r v).rcd = s.rcd ∧
    (s.setReader r v).cvu = s.cvu ∧ (s.setReader r v).fld = s.fld ∧ (s.setReader r v).lgc = s.lgc ∧
    (s.setReader r v).cnv = s.cnv ∧ (s.setReader r v).sea = s.sea ∧ (s.setReader r v).eng = s.eng ∧
    (s.setReader r v).svc = s.svc ∧ (s.setReader r v).cfg = s.cfg ∧ (s.setReader r v).por = s.por ∧
    (s.setReader r v).lnk = s.lnk :=
  ⟨rfl, rfl, rfl, rfl, rfl, rfl, rfl, rfl, rfl, rfl, rfl, rfl, rfl, rfl, rfl, rfl, rfl, rfl, rfl⟩

@[simp] theorem State.setSupply_frame (s : State) (q : Side) (v : Supply) :
    (s.setSupply q v).pending = s.pending ∧ (s.setSupply q v).tb = s.tb ∧
    (s.setSupply q v).free = s.free ∧ (s.setSupply q v).sent = s.sent ∧
    (s.setSupply q v).flagSet = s.flagSet ∧ (s.setSupply q v).nv = s.nv ∧
    (s.setSupply q v).fus = s.fus ∧ (s.setSupply q v).rcd = s.rcd ∧ (s.setSupply q v).tmr = s.tmr ∧
    (s.setSupply q v).cvu = s.cvu ∧ (s.setSupply q v).fld = s.fld ∧ (s.setSupply q v).lgc = s.lgc ∧
    (s.setSupply q v).cnv = s.cnv ∧ (s.setSupply q v).sea = s.sea ∧ (s.setSupply q v).eng = s.eng ∧
    (s.setSupply q v).svc = s.svc ∧ (s.setSupply q v).cfg = s.cfg ∧ (s.setSupply q v).por = s.por ∧
    (s.setSupply q v).lnk = s.lnk :=
  by cases q <;> exact ⟨rfl, rfl, rfl, rfl, rfl, rfl, rfl, rfl, rfl, rfl, rfl, rfl, rfl, rfl, rfl, rfl, rfl, rfl, rfl⟩

@[simp] theorem State.toStep_frame (s : State) (n : Nat) :
    (s.toStep n).pending = s.pending ∧ (s.toStep n).tb = s.tb ∧ (s.toStep n).free = s.free ∧
    (s.toStep n).sent = s.sent ∧ (s.toStep n).flagSet = s.flagSet ∧ (s.toStep n).nv = s.nv ∧
    (s.toStep n).fus = s.fus ∧ (s.toStep n).rcd = s.rcd ∧ (s.toStep n).tmr = s.tmr ∧
    (s.toStep n).cvu = s.cvu ∧ (s.toStep n).fld = s.fld ∧ (s.toStep n).lgc = s.lgc ∧
    (s.toStep n).cnv = s.cnv ∧ (s.toStep n).sea = s.sea ∧ (s.toStep n).eng = s.eng ∧
    (s.toStep n).svc = s.svc ∧ (s.toStep n).cfg = s.cfg ∧ (s.toStep n).por = s.por ∧
    (s.toStep n).lnk = s.lnk :=
  ⟨rfl, rfl, rfl, rfl, rfl, rfl, rfl, rfl, rfl, rfl, rfl, rfl, rfl, rfl, rfl, rfl, rfl, rfl, rfl⟩

@[simp] theorem State.withResult_frame (s : State) (r : Nat) :
    (s.withResult r).pending = s.pending ∧ (s.withResult r).tb = s.tb ∧
    (s.withResult r).free = s.free ∧ (s.withResult r).sent = s.sent ∧
    (s.withResult r).flagSet = s.flagSet ∧ (s.withResult r).nv = s.nv ∧
    (s.withResult r).fus = s.fus ∧ (s.withResult r).rcd = s.rcd ∧ (s.withResult r).tmr = s.tmr ∧
    (s.withResult r).cvu = s.cvu ∧ (s.withResult r).fld = s.fld ∧ (s.withResult r).lgc = s.lgc ∧
    (s.withResult r).cnv = s.cnv ∧ (s.withResult r).sea = s.sea ∧ (s.withResult r).eng = s.eng ∧
    (s.withResult r).svc = s.svc ∧ (s.withResult r).cfg = s.cfg ∧ (s.withResult r).por = s.por ∧
    (s.withResult r).lnk = s.lnk :=
  ⟨rfl, rfl, rfl, rfl, rfl, rfl, rfl, rfl, rfl, rfl, rfl, rfl, rfl, rfl, rfl, rfl, rfl, rfl, rfl⟩

@[simp] theorem State.setOsc_frame (s : State) (q : Side) (v : OscSt) :
    (s.setOsc q v).pending = s.pending ∧ (s.setOsc q v).tb = s.tb ∧ (s.setOsc q v).free = s.free ∧
    (s.setOsc q v).sent = s.sent ∧ (s.setOsc q v).flagSet = s.flagSet ∧ (s.setOsc q v).nv = s.nv ∧
    (s.setOsc q v).fus = s.fus ∧ (s.setOsc q v).rcd = s.rcd ∧ (s.setOsc q v).tmr = s.tmr ∧
    (s.setOsc q v).cvu = s.cvu ∧ (s.setOsc q v).fld = s.fld ∧ (s.setOsc q v).lgc = s.lgc ∧
    (s.setOsc q v).cnv = s.cnv ∧ (s.setOsc q v).sea = s.sea ∧ (s.setOsc q v).eng = s.eng ∧
    (s.setOsc q v).svc = s.svc ∧ (s.setOsc q v).cfg = s.cfg ∧ (s.setOsc q v).por = s.por ∧
    (s.setOsc q v).lnk = s.lnk :=
  by cases q <;> exact ⟨rfl, rfl, rfl, rfl, rfl, rfl, rfl, rfl, rfl, rfl, rfl, rfl, rfl, rfl, rfl, rfl, rfl, rfl, rfl⟩

@[simp] theorem State.setSeq_frame (s : State) (q : Side) (v : Seq) :
    (s.setSeq q v).pending = s.pending ∧ (s.setSeq q v).tb = s.tb ∧ (s.setSeq q v).free = s.free ∧
    (s.setSeq q v).sent = s.sent ∧ (s.setSeq q v).flagSet = s.flagSet ∧ (s.setSeq q v).nv = s.nv ∧
    (s.setSeq q v).pwr = s.pwr ∧ (s.setSeq q v).fus = s.fus ∧ (s.setSeq q v).rcd = s.rcd ∧
    (s.setSeq q v).tmr = s.tmr ∧ (s.setSeq q v).cvu = s.cvu ∧ (s.setSeq q v).lgc = s.lgc ∧
    (s.setSeq q v).cnv = s.cnv ∧ (s.setSeq q v).sea = s.sea ∧ (s.setSeq q v).eng = s.eng ∧
    (s.setSeq q v).svc = s.svc ∧ (s.setSeq q v).cfg = s.cfg ∧ (s.setSeq q v).por = s.por ∧
    (s.setSeq q v).lnk = s.lnk :=
  by cases q <;> exact ⟨rfl, rfl, rfl, rfl, rfl, rfl, rfl, rfl, rfl, rfl, rfl, rfl, rfl, rfl, rfl, rfl, rfl, rfl, rfl⟩

@[simp] theorem State.setTerm_frame (s : State) (q : Side) (t : Nat) (v : Term) :
    (s.setTerm q t v).pending = s.pending ∧ (s.setTerm q t v).tb = s.tb ∧
    (s.setTerm q t v).free = s.free ∧ (s.setTerm q t v).sent = s.sent ∧
    (s.setTerm q t v).flagSet = s.flagSet ∧ (s.setTerm q t v).nv = s.nv ∧
    (s.setTerm q t v).pwr = s.pwr ∧ (s.setTerm q t v).fus = s.fus ∧ (s.setTerm q t v).rcd = s.rcd ∧
    (s.setTerm q t v).tmr = s.tmr ∧ (s.setTerm q t v).cvu = s.cvu ∧ (s.setTerm q t v).lgc = s.lgc ∧
    (s.setTerm q t v).cnv = s.cnv ∧ (s.setTerm q t v).sea = s.sea ∧ (s.setTerm q t v).eng = s.eng ∧
    (s.setTerm q t v).svc = s.svc ∧ (s.setTerm q t v).cfg = s.cfg ∧ (s.setTerm q t v).por = s.por ∧
    (s.setTerm q t v).lnk = s.lnk :=
  ⟨rfl, rfl, rfl, rfl, rfl, rfl, rfl, rfl, rfl, rfl, rfl, rfl, rfl, rfl, rfl, rfl, rfl, rfl, rfl⟩

@[simp] theorem State.setInp_frame (s : State) (q : Side) (n : Nat) (v : SeqIn) :
    (s.setInp q n v).pending = s.pending ∧ (s.setInp q n v).tb = s.tb ∧
    (s.setInp q n v).free = s.free ∧ (s.setInp q n v).sent = s.sent ∧
    (s.setInp q n v).flagSet = s.flagSet ∧ (s.setInp q n v).nv = s.nv ∧
    (s.setInp q n v).pwr = s.pwr ∧ (s.setInp q n v).fus = s.fus ∧ (s.setInp q n v).rcd = s.rcd ∧
    (s.setInp q n v).tmr = s.tmr ∧ (s.setInp q n v).cvu = s.cvu ∧ (s.setInp q n v).lgc = s.lgc ∧
    (s.setInp q n v).cnv = s.cnv ∧ (s.setInp q n v).sea = s.sea ∧ (s.setInp q n v).eng = s.eng ∧
    (s.setInp q n v).svc = s.svc ∧ (s.setInp q n v).cfg = s.cfg ∧ (s.setInp q n v).por = s.por ∧
    (s.setInp q n v).lnk = s.lnk :=
  ⟨rfl, rfl, rfl, rfl, rfl, rfl, rfl, rfl, rfl, rfl, rfl, rfl, rfl, rfl, rfl, rfl, rfl, rfl, rfl⟩

@[simp] theorem State.setFcnt_frame (s : State) (q : Side) (m : Nat) (v : SeqCnt) :
    (s.setFcnt q m v).pending = s.pending ∧ (s.setFcnt q m v).tb = s.tb ∧
    (s.setFcnt q m v).free = s.free ∧ (s.setFcnt q m v).sent = s.sent ∧
    (s.setFcnt q m v).flagSet = s.flagSet ∧ (s.setFcnt q m v).nv = s.nv ∧
    (s.setFcnt q m v).pwr = s.pwr ∧ (s.setFcnt q m v).fus = s.fus ∧ (s.setFcnt q m v).rcd = s.rcd ∧
    (s.setFcnt q m v).tmr = s.tmr ∧ (s.setFcnt q m v).cvu = s.cvu ∧ (s.setFcnt q m v).lgc = s.lgc ∧
    (s.setFcnt q m v).cnv = s.cnv ∧ (s.setFcnt q m v).sea = s.sea ∧ (s.setFcnt q m v).eng = s.eng ∧
    (s.setFcnt q m v).svc = s.svc ∧ (s.setFcnt q m v).cfg = s.cfg ∧ (s.setFcnt q m v).por = s.por ∧
    (s.setFcnt q m v).lnk = s.lnk :=
  ⟨rfl, rfl, rfl, rfl, rfl, rfl, rfl, rfl, rfl, rfl, rfl, rfl, rfl, rfl, rfl, rfl, rfl, rfl, rfl⟩

@[simp] theorem State.setGrp_frame (s : State) (q : Side) (g : Nat) (v : SeqGroup) :
    (s.setGrp q g v).pending = s.pending ∧ (s.setGrp q g v).tb = s.tb ∧
    (s.setGrp q g v).free = s.free ∧ (s.setGrp q g v).sent = s.sent ∧
    (s.setGrp q g v).flagSet = s.flagSet ∧ (s.setGrp q g v).nv = s.nv ∧
    (s.setGrp q g v).pwr = s.pwr ∧ (s.setGrp q g v).fus = s.fus ∧ (s.setGrp q g v).rcd = s.rcd ∧
    (s.setGrp q g v).tmr = s.tmr ∧ (s.setGrp q g v).cvu = s.cvu ∧ (s.setGrp q g v).lgc = s.lgc ∧
    (s.setGrp q g v).cnv = s.cnv ∧ (s.setGrp q g v).sea = s.sea ∧ (s.setGrp q g v).eng = s.eng ∧
    (s.setGrp q g v).svc = s.svc ∧ (s.setGrp q g v).cfg = s.cfg ∧ (s.setGrp q g v).por = s.por ∧
    (s.setGrp q g v).lnk = s.lnk :=
  ⟨rfl, rfl, rfl, rfl, rfl, rfl, rfl, rfl, rfl, rfl, rfl, rfl, rfl, rfl, rfl, rfl, rfl, rfl, rfl⟩

@[simp] theorem State.setFout_frame (s : State) (k : Nat) (v : FOut) :
    (s.setFout k v).pending = s.pending ∧ (s.setFout k v).tb = s.tb ∧
    (s.setFout k v).free = s.free ∧ (s.setFout k v).sent = s.sent ∧
    (s.setFout k v).flagSet = s.flagSet ∧ (s.setFout k v).nv = s.nv ∧ (s.setFout k v).pwr = s.pwr ∧
    (s.setFout k v).fus = s.fus ∧ (s.setFout k v).rcd = s.rcd ∧ (s.setFout k v).tmr = s.tmr ∧
    (s.setFout k v).cvu = s.cvu ∧ (s.setFout k v).lgc = s.lgc ∧ (s.setFout k v).cnv = s.cnv ∧
    (s.setFout k v).sea = s.sea ∧ (s.setFout k v).eng = s.eng ∧ (s.setFout k v).svc = s.svc ∧
    (s.setFout k v).cfg = s.cfg ∧ (s.setFout k v).por = s.por ∧ (s.setFout k v).lnk = s.lnk :=
  ⟨rfl, rfl, rfl, rfl, rfl, rfl, rfl, rfl, rfl, rfl, rfl, rfl, rfl, rfl, rfl, rfl, rfl, rfl, rfl⟩

@[simp] theorem State.setLink_frame (s : State) (q : Side) (v : Link) :
    (s.setLink q v).pending = s.pending ∧ (s.setLink q v).tb = s.tb ∧
    (s.setLink q v).free = s.free ∧ (s.setLink q v).sent = s.sent ∧
    (s.setLink q v).flagSet = s.flagSet ∧ (s.setLink q v).nv = s.nv ∧ (s.setLink q v).pwr = s.pwr ∧
    (s.setLink q v).fus = s.fus ∧ (s.setLink q v).rcd = s.rcd ∧ (s.setLink q v).tmr = s.tmr ∧
    (s.setLink q v).cvu = s.cvu ∧ (s.setLink q v).fld = s.fld ∧ (s.setLink q v).cnv = s.cnv ∧
    (s.setLink q v).sea = s.sea ∧ (s.setLink q v).eng = s.eng ∧ (s.setLink q v).svc = s.svc ∧
    (s.setLink q v).cfg = s.cfg ∧ (s.setLink q v).por = s.por ∧ (s.setLink q v).lnk = s.lnk :=
  by cases q <;> exact ⟨rfl, rfl, rfl, rfl, rfl, rfl, rfl, rfl, rfl, rfl, rfl, rfl, rfl, rfl, rfl, rfl, rfl, rfl, rfl⟩

@[simp] theorem State.setConv_frame (s : State) (c : Nat) (v : Cnv1) :
    (s.setConv c v).pending = s.pending ∧ (s.setConv c v).tb = s.tb ∧
    (s.setConv c v).free = s.free ∧ (s.setConv c v).sent = s.sent ∧
    (s.setConv c v).flagSet = s.flagSet ∧ (s.setConv c v).nv = s.nv ∧ (s.setConv c v).pwr = s.pwr ∧
    (s.setConv c v).fus = s.fus ∧ (s.setConv c v).rcd = s.rcd ∧ (s.setConv c v).tmr = s.tmr ∧
    (s.setConv c v).cvu = s.cvu ∧ (s.setConv c v).fld = s.fld ∧ (s.setConv c v).lgc = s.lgc ∧
    (s.setConv c v).sea = s.sea ∧ (s.setConv c v).eng = s.eng ∧ (s.setConv c v).svc = s.svc ∧
    (s.setConv c v).cfg = s.cfg ∧ (s.setConv c v).por = s.por ∧ (s.setConv c v).lnk = s.lnk :=
  ⟨rfl, rfl, rfl, rfl, rfl, rfl, rfl, rfl, rfl, rfl, rfl, rfl, rfl, rfl, rfl, rfl, rfl, rfl, rfl⟩

@[simp] theorem State.setChan_frame (s : State) (n : Nat) (v : Chan) :
    (s.setChan n v).pending = s.pending ∧ (s.setChan n v).tb = s.tb ∧
    (s.setChan n v).free = s.free ∧ (s.setChan n v).sent = s.sent ∧
    (s.setChan n v).flagSet = s.flagSet ∧ (s.setChan n v).nv = s.nv ∧ (s.setChan n v).pwr = s.pwr ∧
    (s.setChan n v).fus = s.fus ∧ (s.setChan n v).rcd = s.rcd ∧ (s.setChan n v).tmr = s.tmr ∧
    (s.setChan n v).cvu = s.cvu ∧ (s.setChan n v).fld = s.fld ∧ (s.setChan n v).lgc = s.lgc ∧
    (s.setChan n v).sea = s.sea ∧ (s.setChan n v).eng = s.eng ∧ (s.setChan n v).svc = s.svc ∧
    (s.setChan n v).cfg = s.cfg ∧ (s.setChan n v).por = s.por ∧ (s.setChan n v).lnk = s.lnk :=
  ⟨rfl, rfl, rfl, rfl, rfl, rfl, rfl, rfl, rfl, rfl, rfl, rfl, rfl, rfl, rfl, rfl, rfl, rfl, rfl⟩

@[simp] theorem State.setRbuf_frame (s : State) (q : Side) (c : Nat) (v : RBuf) :
    (s.setRbuf q c v).pending = s.pending ∧ (s.setRbuf q c v).tb = s.tb ∧
    (s.setRbuf q c v).free = s.free ∧ (s.setRbuf q c v).sent = s.sent ∧
    (s.setRbuf q c v).flagSet = s.flagSet ∧ (s.setRbuf q c v).nv = s.nv ∧
    (s.setRbuf q c v).pwr = s.pwr ∧ (s.setRbuf q c v).fus = s.fus ∧ (s.setRbuf q c v).rcd = s.rcd ∧
    (s.setRbuf q c v).tmr = s.tmr ∧ (s.setRbuf q c v).cvu = s.cvu ∧ (s.setRbuf q c v).fld = s.fld ∧
    (s.setRbuf q c v).lgc = s.lgc ∧ (s.setRbuf q c v).sea = s.sea ∧ (s.setRbuf q c v).eng = s.eng ∧
    (s.setRbuf q c v).svc = s.svc ∧ (s.setRbuf q c v).cfg = s.cfg ∧ (s.setRbuf q c v).por = s.por ∧
    (s.setRbuf q c v).lnk = s.lnk :=
  by cases q <;> exact ⟨rfl, rfl, rfl, rfl, rfl, rfl, rfl, rfl, rfl, rfl, rfl, rfl, rfl, rfl, rfl, rfl, rfl, rfl, rfl⟩

@[simp] theorem State.setCal_frame (s : State) (k : Option Cal) :
    (s.setCal k).pending = s.pending ∧ (s.setCal k).tb = s.tb ∧ (s.setCal k).free = s.free ∧
    (s.setCal k).sent = s.sent ∧ (s.setCal k).flagSet = s.flagSet ∧ (s.setCal k).nv = s.nv ∧
    (s.setCal k).pwr = s.pwr ∧ (s.setCal k).fus = s.fus ∧ (s.setCal k).rcd = s.rcd ∧
    (s.setCal k).tmr = s.tmr ∧ (s.setCal k).cvu = s.cvu ∧ (s.setCal k).fld = s.fld ∧
    (s.setCal k).lgc = s.lgc ∧ (s.setCal k).sea = s.sea ∧ (s.setCal k).eng = s.eng ∧
    (s.setCal k).svc = s.svc ∧ (s.setCal k).cfg = s.cfg ∧ (s.setCal k).por = s.por ∧
    (s.setCal k).lnk = s.lnk :=
  ⟨rfl, rfl, rfl, rfl, rfl, rfl, rfl, rfl, rfl, rfl, rfl, rfl, rfl, rfl, rfl, rfl, rfl, rfl, rfl⟩

@[simp] theorem State.setInst_frame (s : State) (st : Bool) (i : Nat) (v : Option Inst) :
    (s.setInst st i v).pending = s.pending ∧ (s.setInst st i v).tb = s.tb ∧
    (s.setInst st i v).free = s.free ∧ (s.setInst st i v).sent = s.sent ∧
    (s.setInst st i v).flagSet = s.flagSet ∧ (s.setInst st i v).nv = s.nv ∧
    (s.setInst st i v).pwr = s.pwr ∧ (s.setInst st i v).fus = s.fus ∧
    (s.setInst st i v).rcd = s.rcd ∧ (s.setInst st i v).tmr = s.tmr ∧
    (s.setInst st i v).cvu = s.cvu ∧ (s.setInst st i v).fld = s.fld ∧
    (s.setInst st i v).lgc = s.lgc ∧ (s.setInst st i v).cnv = s.cnv ∧
    (s.setInst st i v).sea = s.sea ∧ (s.setInst st i v).svc = s.svc ∧
    (s.setInst st i v).cfg = s.cfg ∧ (s.setInst st i v).por = s.por ∧
    (s.setInst st i v).lnk = s.lnk :=
  ⟨rfl, rfl, rfl, rfl, rfl, rfl, rfl, rfl, rfl, rfl, rfl, rfl, rfl, rfl, rfl, rfl, rfl, rfl, rfl⟩

@[simp] theorem State.setEngine_frame (s : State) (e : Nat) (v : Engine) :
    (s.setEngine e v).pending = s.pending ∧ (s.setEngine e v).tb = s.tb ∧
    (s.setEngine e v).free = s.free ∧ (s.setEngine e v).sent = s.sent ∧
    (s.setEngine e v).flagSet = s.flagSet ∧ (s.setEngine e v).nv = s.nv ∧
    (s.setEngine e v).pwr = s.pwr ∧ (s.setEngine e v).fus = s.fus ∧ (s.setEngine e v).rcd = s.rcd ∧
    (s.setEngine e v).tmr = s.tmr ∧ (s.setEngine e v).cvu = s.cvu ∧ (s.setEngine e v).fld = s.fld ∧
    (s.setEngine e v).lgc = s.lgc ∧ (s.setEngine e v).cnv = s.cnv ∧ (s.setEngine e v).sea = s.sea ∧
    (s.setEngine e v).svc = s.svc ∧ (s.setEngine e v).cfg = s.cfg ∧ (s.setEngine e v).por = s.por ∧
    (s.setEngine e v).lnk = s.lnk :=
  ⟨rfl, rfl, rfl, rfl, rfl, rfl, rfl, rfl, rfl, rfl, rfl, rfl, rfl, rfl, rfl, rfl, rfl, rfl, rfl⟩

@[simp] theorem State.setCmp_frame (s : State) (q : Side) (v : CmpSt) :
    (s.setCmp q v).pending = s.pending ∧ (s.setCmp q v).tb = s.tb ∧ (s.setCmp q v).free = s.free ∧
    (s.setCmp q v).sent = s.sent ∧ (s.setCmp q v).flagSet = s.flagSet ∧ (s.setCmp q v).nv = s.nv ∧
    (s.setCmp q v).pwr = s.pwr ∧ (s.setCmp q v).fus = s.fus ∧ (s.setCmp q v).rcd = s.rcd ∧
    (s.setCmp q v).tmr = s.tmr ∧ (s.setCmp q v).cvu = s.cvu ∧ (s.setCmp q v).fld = s.fld ∧
    (s.setCmp q v).lgc = s.lgc ∧ (s.setCmp q v).cnv = s.cnv ∧ (s.setCmp q v).sea = s.sea ∧
    (s.setCmp q v).svc = s.svc ∧ (s.setCmp q v).cfg = s.cfg ∧ (s.setCmp q v).por = s.por ∧
    (s.setCmp q v).lnk = s.lnk :=
  by cases q <;> exact ⟨rfl, rfl, rfl, rfl, rfl, rfl, rfl, rfl, rfl, rfl, rfl, rfl, rfl, rfl, rfl, rfl, rfl, rfl, rfl⟩

@[simp] theorem State.setRoom_frame (s : State) (r : Nat) (v : Room) :
    (s.setRoom r v).pending = s.pending ∧ (s.setRoom r v).tb = s.tb ∧
    (s.setRoom r v).free = s.free ∧ (s.setRoom r v).sent = s.sent ∧
    (s.setRoom r v).flagSet = s.flagSet ∧ (s.setRoom r v).nv = s.nv ∧ (s.setRoom r v).pwr = s.pwr ∧
    (s.setRoom r v).fus = s.fus ∧ (s.setRoom r v).rcd = s.rcd ∧ (s.setRoom r v).tmr = s.tmr ∧
    (s.setRoom r v).cvu = s.cvu ∧ (s.setRoom r v).fld = s.fld ∧ (s.setRoom r v).lgc = s.lgc ∧
    (s.setRoom r v).cnv = s.cnv ∧ (s.setRoom r v).eng = s.eng ∧ (s.setRoom r v).svc = s.svc ∧
    (s.setRoom r v).cfg = s.cfg ∧ (s.setRoom r v).por = s.por ∧ (s.setRoom r v).lnk = s.lnk :=
  ⟨rfl, rfl, rfl, rfl, rfl, rfl, rfl, rfl, rfl, rfl, rfl, rfl, rfl, rfl, rfl, rfl, rfl, rfl, rfl⟩

@[simp] theorem State.setIrm_frame (s : State) (k : Nat) (v : IRoom) :
    (s.setIrm k v).pending = s.pending ∧ (s.setIrm k v).tb = s.tb ∧ (s.setIrm k v).free = s.free ∧
    (s.setIrm k v).sent = s.sent ∧ (s.setIrm k v).flagSet = s.flagSet ∧ (s.setIrm k v).nv = s.nv ∧
    (s.setIrm k v).pwr = s.pwr ∧ (s.setIrm k v).fus = s.fus ∧ (s.setIrm k v).rcd = s.rcd ∧
    (s.setIrm k v).tmr = s.tmr ∧ (s.setIrm k v).cvu = s.cvu ∧ (s.setIrm k v).fld = s.fld ∧
    (s.setIrm k v).lgc = s.lgc ∧ (s.setIrm k v).cnv = s.cnv ∧ (s.setIrm k v).eng = s.eng ∧
    (s.setIrm k v).svc = s.svc ∧ (s.setIrm k v).cfg = s.cfg ∧ (s.setIrm k v).por = s.por ∧
    (s.setIrm k v).lnk = s.lnk :=
  ⟨rfl, rfl, rfl, rfl, rfl, rfl, rfl, rfl, rfl, rfl, rfl, rfl, rfl, rfl, rfl, rfl, rfl, rfl, rfl⟩

@[simp] theorem State.setSlot_frame (s : State) (k : Nat) (v : Slot) :
    (s.setSlot k v).pending = s.pending ∧ (s.setSlot k v).tb = s.tb ∧
    (s.setSlot k v).free = s.free ∧ (s.setSlot k v).sent = s.sent ∧
    (s.setSlot k v).flagSet = s.flagSet ∧ (s.setSlot k v).pwr = s.pwr ∧
    (s.setSlot k v).fus = s.fus ∧ (s.setSlot k v).rcd = s.rcd ∧ (s.setSlot k v).tmr = s.tmr ∧
    (s.setSlot k v).cvu = s.cvu ∧ (s.setSlot k v).fld = s.fld ∧ (s.setSlot k v).lgc = s.lgc ∧
    (s.setSlot k v).cnv = s.cnv ∧ (s.setSlot k v).sea = s.sea ∧ (s.setSlot k v).eng = s.eng ∧
    (s.setSlot k v).svc = s.svc ∧ (s.setSlot k v).cfg = s.cfg ∧ (s.setSlot k v).por = s.por ∧
    (s.setSlot k v).lnk = s.lnk :=
  ⟨rfl, rfl, rfl, rfl, rfl, rfl, rfl, rfl, rfl, rfl, rfl, rfl, rfl, rfl, rfl, rfl, rfl, rfl, rfl⟩

@[simp] theorem State.setBankPtr_frame (s : State) (q : Side) (b : Nat) :
    (s.setBankPtr q b).pending = s.pending ∧ (s.setBankPtr q b).tb = s.tb ∧
    (s.setBankPtr q b).free = s.free ∧ (s.setBankPtr q b).sent = s.sent ∧
    (s.setBankPtr q b).flagSet = s.flagSet ∧ (s.setBankPtr q b).pwr = s.pwr ∧
    (s.setBankPtr q b).fus = s.fus ∧ (s.setBankPtr q b).rcd = s.rcd ∧
    (s.setBankPtr q b).tmr = s.tmr ∧ (s.setBankPtr q b).cvu = s.cvu ∧
    (s.setBankPtr q b).fld = s.fld ∧ (s.setBankPtr q b).lgc = s.lgc ∧
    (s.setBankPtr q b).cnv = s.cnv ∧ (s.setBankPtr q b).sea = s.sea ∧
    (s.setBankPtr q b).eng = s.eng ∧ (s.setBankPtr q b).svc = s.svc ∧
    (s.setBankPtr q b).cfg = s.cfg ∧ (s.setBankPtr q b).por = s.por ∧
    (s.setBankPtr q b).lnk = s.lnk :=
  by cases q <;> exact ⟨rfl, rfl, rfl, rfl, rfl, rfl, rfl, rfl, rfl, rfl, rfl, rfl, rfl, rfl, rfl, rfl, rfl, rfl, rfl⟩

@[simp] theorem State.setProc_frame (s : State) (q : Side) (v : Proc) :
    (s.setProc q v).pending = s.pending ∧ (s.setProc q v).tb = s.tb ∧
    (s.setProc q v).free = s.free ∧ (s.setProc q v).sent = s.sent ∧
    (s.setProc q v).flagSet = s.flagSet ∧ (s.setProc q v).nv = s.nv ∧ (s.setProc q v).pwr = s.pwr ∧
    (s.setProc q v).fus = s.fus ∧ (s.setProc q v).rcd = s.rcd ∧ (s.setProc q v).tmr = s.tmr ∧
    (s.setProc q v).cvu = s.cvu ∧ (s.setProc q v).fld = s.fld ∧ (s.setProc q v).lgc = s.lgc ∧
    (s.setProc q v).cnv = s.cnv ∧ (s.setProc q v).sea = s.sea ∧ (s.setProc q v).eng = s.eng ∧
    (s.setProc q v).svc = s.svc ∧ (s.setProc q v).cfg = s.cfg ∧ (s.setProc q v).lnk = s.lnk :=
  by cases q <;> exact ⟨rfl, rfl, rfl, rfl, rfl, rfl, rfl, rfl, rfl, rfl, rfl, rfl, rfl, rfl, rfl, rfl, rfl, rfl, rfl⟩

@[simp] theorem State.setSession_frame (s : State) (k : Nat) (v : Option Session) :
    (s.setSession k v).pending = s.pending ∧ (s.setSession k v).tb = s.tb ∧
    (s.setSession k v).free = s.free ∧ (s.setSession k v).sent = s.sent ∧
    (s.setSession k v).flagSet = s.flagSet ∧ (s.setSession k v).nv = s.nv ∧
    (s.setSession k v).pwr = s.pwr ∧ (s.setSession k v).fus = s.fus ∧
    (s.setSession k v).rcd = s.rcd ∧ (s.setSession k v).tmr = s.tmr ∧
    (s.setSession k v).cvu = s.cvu ∧ (s.setSession k v).fld = s.fld ∧
    (s.setSession k v).lgc = s.lgc ∧ (s.setSession k v).cnv = s.cnv ∧
    (s.setSession k v).sea = s.sea ∧ (s.setSession k v).eng = s.eng ∧
    (s.setSession k v).svc = s.svc ∧ (s.setSession k v).cfg = s.cfg ∧
    (s.setSession k v).lnk = s.lnk :=
  ⟨rfl, rfl, rfl, rfl, rfl, rfl, rfl, rfl, rfl, rfl, rfl, rfl, rfl, rfl, rfl, rfl, rfl, rfl, rfl⟩

@[simp] theorem State.setStream_frame (s : State) (k : Nat) (v : Option Stream) :
    (s.setStream k v).pending = s.pending ∧ (s.setStream k v).tb = s.tb ∧
    (s.setStream k v).free = s.free ∧ (s.setStream k v).sent = s.sent ∧
    (s.setStream k v).flagSet = s.flagSet ∧ (s.setStream k v).nv = s.nv ∧
    (s.setStream k v).pwr = s.pwr ∧ (s.setStream k v).fus = s.fus ∧ (s.setStream k v).rcd = s.rcd ∧
    (s.setStream k v).tmr = s.tmr ∧ (s.setStream k v).cvu = s.cvu ∧ (s.setStream k v).fld = s.fld ∧
    (s.setStream k v).lgc = s.lgc ∧ (s.setStream k v).cnv = s.cnv ∧ (s.setStream k v).sea = s.sea ∧
    (s.setStream k v).eng = s.eng ∧ (s.setStream k v).svc = s.svc ∧ (s.setStream k v).cfg = s.cfg ∧
    (s.setStream k v).lnk = s.lnk :=
  ⟨rfl, rfl, rfl, rfl, rfl, rfl, rfl, rfl, rfl, rfl, rfl, rfl, rfl, rfl, rfl, rfl, rfl, rfl, rfl⟩

@[simp] theorem State.setPort_frame (s : State) (p : Nat) (v : Port) :
    (s.setPort p v).pending = s.pending ∧ (s.setPort p v).tb = s.tb ∧
    (s.setPort p v).free = s.free ∧ (s.setPort p v).sent = s.sent ∧
    (s.setPort p v).flagSet = s.flagSet ∧ (s.setPort p v).nv = s.nv ∧ (s.setPort p v).pwr = s.pwr ∧
    (s.setPort p v).fus = s.fus ∧ (s.setPort p v).rcd = s.rcd ∧ (s.setPort p v).tmr = s.tmr ∧
    (s.setPort p v).cvu = s.cvu ∧ (s.setPort p v).fld = s.fld ∧ (s.setPort p v).lgc = s.lgc ∧
    (s.setPort p v).cnv = s.cnv ∧ (s.setPort p v).sea = s.sea ∧ (s.setPort p v).eng = s.eng ∧
    (s.setPort p v).svc = s.svc ∧ (s.setPort p v).cfg = s.cfg ∧ (s.setPort p v).por = s.por :=
  ⟨rfl, rfl, rfl, rfl, rfl, rfl, rfl, rfl, rfl, rfl, rfl, rfl, rfl, rfl, rfl, rfl, rfl, rfl, rfl⟩

@[simp] theorem State.setCons_frame (s : State) (k : Nat) (v : Cons) :
    (s.setCons k v).pending = s.pending ∧ (s.setCons k v).tb = s.tb ∧
    (s.setCons k v).free = s.free ∧ (s.setCons k v).sent = s.sent ∧
    (s.setCons k v).flagSet = s.flagSet ∧ (s.setCons k v).nv = s.nv ∧ (s.setCons k v).pwr = s.pwr ∧
    (s.setCons k v).fus = s.fus ∧ (s.setCons k v).rcd = s.rcd ∧ (s.setCons k v).tmr = s.tmr ∧
    (s.setCons k v).cvu = s.cvu ∧ (s.setCons k v).fld = s.fld ∧ (s.setCons k v).lgc = s.lgc ∧
    (s.setCons k v).cnv = s.cnv ∧ (s.setCons k v).sea = s.sea ∧ (s.setCons k v).eng = s.eng ∧
    (s.setCons k v).svc = s.svc ∧ (s.setCons k v).cfg = s.cfg ∧ (s.setCons k v).por = s.por :=
  ⟨rfl, rfl, rfl, rfl, rfl, rfl, rfl, rfl, rfl, rfl, rfl, rfl, rfl, rfl, rfl, rfl, rfl, rfl, rfl⟩

/-! ### The active-slot pointer and the blows that wait -/

@[simp] theorem Nv.point_active (n : Nv) (k : Nat) : (n.point k).active = k := by
  unfold Nv.active Nv.point
  split <;> rfl

@[simp] theorem mem_putBlow (x y : Blow) (l : List Blow) : y ∈ putBlow x l ↔ y = x ∨ y ∈ l := by
  induction l with
  | nil => simp [putBlow]
  | cons z l ih =>
    unfold putBlow
    split
    · simp
    · simp [ih, or_left_comm]

/-- A blow that retires no part goes behind those that wait. -/
theorem putBlow_of_not_retires {x : Blow} (h : x.retires = false) (l : List Blow) :
    putBlow x l = l ++ [x] := by
  induction l with
  | nil => rfl
  | cons z l ih => simp [putBlow, h, ih]

@[simp] theorem length_putBlow (x : Blow) (l : List Blow) : (putBlow x l).length = l.length + 1 := by
  induction l with
  | nil => rfl
  | cons z l ih =>
    unfold putBlow
    split
    · rfl
    · simp [ih]

end Sys2Proof.Machine
end

