-- ==== Sys2Proof/Laws/Mailbox.lean ====
section
/-! SUPPORT. What an admitted request comes to, and what a response changes. -/

namespace Sys2Proof

open Machine

/-- A request that is new to its session goes on to the seal, its shape, the loader and its command. -/
theorem request_entered {s s1 : State} {h : Hdr} {k : Kind} {op : Nat}
    (a : entered s h k = some (s1, op)) (b : Bool) (eff : State → Nat → Answer) :
    s.request h k b eff = s1.serve h k b op eff := by
  unfold entered at a
  split at a
  · cases a
  · rename_i g1
    unfold State.request
    simp only [not_or, Bool.not_eq_false, Bool.not_eq_true] at g1
    rw [if_neg (by simp [g1.1]), if_neg (by simp [g1.2])]
    split at a
    · rename_i hz
      rw [if_pos hz]
      split at a
      · rename_i hl
        cases a
        rw [if_neg (fun x => x hl)]
      · cases a
    · rename_i hz
      rw [if_neg hz]
      unfold State.inSession
      dsimp only
      split at a
      · cases a
      · rename_i v hv
        try simp only [hv]
        split at a
        · cases a
        · rename_i hb
          split at a
          · rename_i v1 hm
            cases a
            simp only [hm]
            rw [if_pos (by simpa using hb)]
          · cases a

/-- What an entered request has changed: its session's entry. -/
theorem entered_eq {s s1 : State} {h : Hdr} {k : Kind} {op : Nat} (a : entered s h k = some (s1, op)) :
    s1 = { s with por := { s.por with sessions := s1.por.sessions, nextOp := s1.por.nextOp } } := by
  unfold entered at a
  split at a
  · cases a
  · split at a
    · split at a
      · cases a; rfl
      · cases a
    · split at a
      · cases a
      · split at a
        · cases a
        · split at a
          · cases a; rfl
          · cases a

theorem admit_entered {s s1 : State} {h : Hdr} {k : Kind} {op : Nat} (a : admission s h k = some (s1, op)) :
    entered s h k = some (s1, op) := by
  unfold admission at a
  split at a
  · cases a
  · exact a

theorem admit_eq {s s1 : State} {h : Hdr} {k : Kind} {op : Nat} (a : admission s h k = some (s1, op)) :
    s1 = { s with por := { s.por with sessions := s1.por.sessions, nextOp := s1.por.nextOp } } :=
  entered_eq (admit_entered a)

/-- A request that is admitted and well shaped runs its command's own rules and is answered. -/
theorem request_admitted {s s1 : State} {h : Hdr} {k : Kind} {op : Nat}
    (a : admission s h k = some (s1, op)) (eff : State → Nat → Answer) :
    s.request h k true eff =
      answer (eff s1 op).1 op h k.opcode (eff s1 op).2.1 (eff s1 op).2.2 := by
  have hs := admit_eq a
  have e1 : s1.cfg = s.cfg := by rw [hs]
  have e2 : s1.inLoader = s.inLoader := by rw [hs]; rfl
  have e3 : ∀ l, s1.observeOnly l = s.observeOnly l := by rw [hs]; intro l; rfl
  rw [request_entered (admit_entered a)]
  unfold admission at a
  split at a
  · cases a
  · rename_i g
    simp only [not_or, not_and, Bool.not_eq_false, ne_eq, Classical.not_not] at g
    obtain ⟨g2, g3, g4⟩ := g
    unfold State.serve answer
    have g : ((s.inLoader && !k.loader) || s.observeOnly k.level) = false := by
      rw [Bool.or_eq_false_iff]
      constructor
      · cases e : s.inLoader
        · rfl
        · simp [g3 e]
      · unfold State.observeOnly
        by_cases r : s.pwr.result = 6
        · simp [g4 r]
        · simp [r]
    rw [e1, e2, e3, if_neg (fun x => x.2 (g2 x.1)), if_neg (by simp), if_neg (by simp [g])]

/-- The same for a body whose shape is shown to be right. -/
theorem request_admitted_of {s s1 : State} {h : Hdr} {k : Kind} {op : Nat} {b : Bool}
    (a : admission s h k = some (s1, op)) (hb : b = true) (eff : State → Nat → Answer) :
    s.request h k b eff =
      answer (eff s1 op).1 op h k.opcode (eff s1 op).2.1 (eff s1 op).2.2 := by
  subst hb; exact request_admitted a eff

/-- Nothing but the recorder and the check-value units has changed. -/
def Recorded (s t : State) : Prop := t = { s with rcd := t.rcd, cvu := t.cvu }

theorem Recorded.refl (s : State) : Recorded s s := rfl

theorem Recorded.trans {s t u : State} (h : Recorded s t) (k : Recorded t u) : Recorded s u := by
  unfold Recorded at *
  rw [k, h]

theorem Recorded.more {s t : State} (h : Recorded s t) (r : Recorder) (c : Tab Cvu) :
    Recorded s { t with rcd := r, cvu := c } := by
  unfold Recorded at *
  rw [h]

theorem Recorded.ite {s t u : State} {c : Prop} [Decidable c] (h : Recorded s t) (k : Recorded s u) :
    Recorded s (if c then t else u) := by split <;> assumption

theorem Recorded.foldl {α : Type} {f : State → α → State} (h : ∀ a x, Recorded a (f a x)) (l : List α)
    (s : State) : Recorded s (l.foldl f s) := by
  induction l generalizing s with
  | nil => exact .refl s
  | cons x l ih => exact (h s x).trans (ih _)

theorem enter_recorded (s : State) (code sev : Nat) (p : List Byte) (b : Bool) (tick : Nat) :
    Recorded s (s.enter code sev p b tick) := by
  have r : ∀ bs, Recorded s (s.recCheck bs).1 := by
    intro bs
    unfold State.recCheck
    dsimp only
    split <;> rfl
  unfold State.enter
  dsimp only
  split
  · rfl
  · split
    · exact (r _).trans rfl
    · split
      · exact (r _).trans rfl
      · exact (r _).trans rfl

theorem flushIf_recorded (s : State) (b : Bool) : Recorded s (s.flushIf b) := by
  unfold State.flushIf
  split <;> rfl

theorem recordOnce_recorded (s : State) (code sev : Nat) (p : List Byte) (b : Bool) (tick : Option Nat) :
    Recorded s (s.recordOnce code sev p b tick) := by
  unfold State.recordOnce
  dsimp only
  split
  · rfl
  · split
    · refine Recorded.trans ?_ (enter_recorded _ _ _ _ _ _)
      split <;> rfl
    · have e : Recorded s (if s.rcd.lost = 0 ∨ 512 ≤ s.rcd.buf.length then s else
          ({ s.enter 0x0002 2 (be32 s.rcd.lost ++ be32 s.rcd.lostTick) false s.rcd.lostTick with
            rcd := { (s.enter 0x0002 2 (be32 s.rcd.lost ++ be32 s.rcd.lostTick) false s.rcd.lostTick).rcd with
              lost := 0 } } : State).flushIf true) :=
        .ite rfl (((enter_recorded _ _ _ _ _ _).more _ _).trans (flushIf_recorded _ _))
      generalize (if s.rcd.lost = 0 ∨ 512 ≤ s.rcd.buf.length then s else
          ({ s.enter 0x0002 2 (be32 s.rcd.lost ++ be32 s.rcd.lostTick) false s.rcd.lostTick with
            rcd := { (s.enter 0x0002 2 (be32 s.rcd.lost ++ be32 s.rcd.lostTick) false s.rcd.lostTick).rcd with
              lost := 0 } } : State).flushIf true) = s1 at e ⊢
      split
      · exact (e.trans (enter_recorded _ _ _ _ _ _)).trans (flushIf_recorded _ _)
      · exact e.more _ _

theorem recFail_recorded (s : State) (why : RecFail) : Recorded s (s.recFail why) := by
  unfold State.recFail
  exact .ite rfl (Recorded.trans (t := { s with rcd := { s.rcd with failed := some why, flushing := false } }) rfl
    (recordOnce_recorded _ _ _ _ _ _))

theorem recFaults_recorded (n : Nat) (c : Cvu) (s : State) : Recorded s (State.recFaults n c s) := by
  induction n generalizing c s with
  | zero => exact .refl s
  | succ n ih =>
    unfold State.recFaults
    dsimp only
    split
    · exact .refl s
    · refine Recorded.trans ?_ (ih _ _)
      have f := Recorded.foldl (f := fun acc (_ : Nat) => acc.recordOnce 0x0E01 2 [18#8, 0#8])
        (fun a _ => recordOnce_recorded a _ _ _ _ _) (List.range (c.upset - (s.unit 18).upset)) s
      split
      · exact ((f.more _ _).trans (recordOnce_recorded _ _ _ _ _ _)).trans (recFail_recorded _ _)
      · exact f

/-- A record changes the recorder and its check-value unit, nothing else. -/
theorem record_recorded (s : State) (code sev : Nat) (p : List Byte) (b : Bool) (tick : Option Nat) :
    Recorded s (s.record code sev p b tick) :=
  (recordOnce_recorded s code sev p b tick).trans (recFaults_recorded _ _ _)

/-- A use of a check-value unit changes the unit, and the recorder where the unit shows FAULT. -/
theorem runUnit_recorded (s : State) (u : Nat) (f : Cvu → Cvu) : Recorded s (s.runUnit u f) := by
  unfold State.runUnit State.noteFault
  refine Recorded.trans (t := s.setUnit u ((f (s.unit u)).stepped s.pwr.opsec)) rfl ?_
  dsimp only
  split
  · exact .refl _
  · split
    · exact (record_recorded _ _ _ _ _ _).trans (record_recorded _ _ _ _ _ _)
    · exact record_recorded _ _ _ _ _ _

/-- A frame that leaves is sent; on a PRP pair the sequence number of its trailer advances. -/
theorem post_eq (s : State) (x : Sent) :
    s.post x = { s with sent := (s.post x).sent, por := { s.por with prpSeq := (s.post x).por.prpSeq } } := by
  unfold State.post
  split <;> rfl

/-- Without PRP a frame is sent as it is. -/
theorem post_plain {s : State} (h : s.por.prp = false) (x : Sent) : s.post x = { s with sent := s.sent ++ [x] } := by
  simp [State.post, h]

theorem foldl_post_eq (l : List Box) (s : State) :
    l.foldl (fun acc b => acc.post b.out) s =
      { s with sent := (l.foldl (fun acc b => acc.post b.out) s).sent
               por := { s.por with prpSeq := (l.foldl (fun acc b => acc.post b.out) s).por.prpSeq } } := by
  induction l generalizing s with
  | nil => rfl
  | cons x l ih =>
    rw [List.foldl_cons, ih]
    generalize h : s.post x.out = t
    have e := post_eq s x.out
    rw [h] at e
    rw [e]

/-- A response changes what was sent or waits, the recorder and the check-value units, nothing else. -/
theorem respond_eq (s : State) (h : Hdr) (opcode status : Nat) (body : List Byte) :
    s.respond h opcode status body =
      { s with sent := (s.respond h opcode status body).sent, cvu := (s.respond h opcode status body).cvu
               rcd := (s.respond h opcode status body).rcd
               por := { s.por with boxes := (s.respond h opcode status body).por.boxes
                                   prpSeq := (s.respond h opcode status body).por.prpSeq } } := by
  have e : Recorded s (s.response h opcode status body).1 := by
    exact runUnit_recorded s (procUnit s.por.active) fun c =>
      c.payload 3#2 (respHeader h opcode status s.por.epoch body.length ++ body)
  unfold State.respond
  dsimp only
  generalize s.response h opcode status body = r at *
  obtain ⟨t, x⟩ := r
  unfold Recorded at e
  dsimp only at e ⊢
  split
  · rw [e]
  · generalize hu : t.sendBoxes = u
    have f : u = { t with sent := u.sent, por := { t.por with boxes := [], prpSeq := u.por.prpSeq } } := by
      have g := foldl_post_eq t.por.boxes { t with por := { t.por with boxes := [] } }
      unfold State.sendBoxes at hu
      rw [hu] at g
      rw [g]
    have p := post_eq u x
    rw [p, f, e]

/-- The end of an operation changes the caches of the sessions and the list of operations. -/
theorem finish_eq (s : State) (op status : Nat) (body : List Byte) :
    s.finish op status body =
      { s with por := { s.por with sessions := (s.finish op status body).por.sessions,
                                   ops := (s.finish op status body).por.ops } } := by
  unfold State.finish
  split <;> rfl

end Sys2Proof
end

