-- ==== Sys2Proof/Laws/Tab.lean ====
section
/-! SUPPORT. The laws of the sparse tables and of the byte memories built on them: a write keeps the
canonical form, reads back, and leaves every other key alone. -/

namespace Sys2Proof.Machine

variable {α : Type} [DecidableEq α]

theorem Tab.okFrom_mono {d : α} {t : Tab α} {a b : Nat} (h : Tab.okFrom d b t = true) (hab : a ≤ b) :
    Tab.okFrom d a t = true := by
  cases t with
  | nil => rfl
  | cons e t =>
    simp only [Tab.okFrom, Bool.and_eq_true, decide_eq_true_eq] at h ⊢
    exact ⟨⟨by omega, h.1.2⟩, h.2⟩

theorem Tab.get_below {d : α} {t : Tab α} {a k : Nat} (h : Tab.okFrom d a t = true) (hk : k < a) :
    Tab.get d t k = d := by
  cases t with
  | nil => rfl
  | cons e t =>
    simp only [Tab.okFrom, Bool.and_eq_true, decide_eq_true_eq] at h
    simp only [Tab.get]
    rw [if_neg (by omega), if_pos (by omega)]

theorem Tab.okFrom_set {d : α} {t : Tab α} {a k : Nat} (v : α) (h : Tab.okFrom d a t = true)
    (hk : a ≤ k) : Tab.okFrom d a (Tab.set d t k v) = true := by
  induction t generalizing a with
  | nil => by_cases e : v = d <;> simp [Tab.set, Tab.okFrom, e, hk]
  | cons x t ih =>
    obtain ⟨j, w⟩ := x
    simp only [Tab.okFrom, Bool.and_eq_true, decide_eq_true_eq] at h
    obtain ⟨⟨h1, h2⟩, h3⟩ := h
    simp only [Tab.set]
    split
    · split
      · simp [Tab.okFrom, h1, h2, h3]
      · rename_i hkj hv
        simp [Tab.okFrom, hk, hv, h2, h3]; omega
    · split
      · rename_i e; subst e
        split
        · exact Tab.okFrom_mono h3 (by omega)
        · rename_i hv; simp [Tab.okFrom, h1, hv, h3]
      · simp only [Tab.okFrom, Bool.and_eq_true, decide_eq_true_eq]
        exact ⟨⟨h1, h2⟩, ih h3 (by omega)⟩

/-- A write keeps the canonical form. -/
theorem Tab.ok_set {d : α} {t : Tab α} (k : Nat) (v : α) (h : Tab.ok d t = true) :
    Tab.ok d (Tab.set d t k v) = true := Tab.okFrom_set v h (Nat.zero_le k)

theorem Tab.get_set_from {d : α} {t : Tab α} {a : Nat} (k q : Nat) (v : α)
    (h : Tab.okFrom d a t = true) :
    Tab.get d (Tab.set d t k v) q = if q = k then v else Tab.get d t q := by
  induction t generalizing a with
  | nil =>
    by_cases e : v = d
    · simp [Tab.set, e, Tab.get]
    · simp only [Tab.set, if_neg e, Tab.get]
      by_cases e2 : k = q
      · simp [e2]
      · simp [e2, Ne.symm e2]
  | cons x t ih =>
    obtain ⟨j, w⟩ := x
    simp only [Tab.okFrom, Bool.and_eq_true, decide_eq_true_eq] at h
    obtain ⟨⟨h1, h2⟩, h3⟩ := h
    simp only [Tab.set]
    split
    · rename_i hkj
      split
      · rename_i hv
        by_cases e2 : q = k
        · subst e2; rw [if_pos rfl]; simp only [Tab.get]
          rw [if_neg (by omega), if_pos hkj, hv]
        · rw [if_neg e2]
      · by_cases e2 : q = k
        · subst e2; simp [Tab.get]
        · rw [if_neg e2]; simp only [Tab.get]
          by_cases e3 : q < k
          · rw [if_neg (by omega), if_pos e3, if_neg (by omega), if_pos (by omega)]
          · rw [if_neg (by omega), if_neg e3]
    · split
      · rename_i e; subst e
        split
        · rename_i hv
          by_cases e2 : q = k
          · subst e2; rw [if_pos rfl, Tab.get_below h3 (by omega), hv]
          · rw [if_neg e2]; simp only [Tab.get]
            by_cases e3 : q < k
            · rw [Tab.get_below h3 (by omega), if_neg (by omega), if_pos e3]
            · rw [if_neg (by omega), if_neg e3]
        · by_cases e2 : q = k
          · subst e2; simp [Tab.get]
          · rw [if_neg e2]; simp only [Tab.get]; rw [if_neg (Ne.symm e2), if_neg (Ne.symm e2)]
      · simp only [Tab.get]
        by_cases e2 : j = q
        · rw [if_pos e2, if_pos e2, if_neg (by omega)]
        · rw [if_neg e2, if_neg e2]
          by_cases e3 : q < j
          · rw [if_pos e3, if_pos e3, if_neg (by omega)]
          · rw [if_neg e3, if_neg e3]; exact ih h3

/-- What a table reads as after a write: the value at the key, the old values elsewhere. -/
theorem Tab.get_set {d : α} {t : Tab α} (h : Tab.ok d t = true) (k q : Nat) (v : α) :
    Tab.get d (Tab.set d t k v) q = if q = k then v else Tab.get d t q :=
  Tab.get_set_from k q v h

theorem Tab.get_upd {d : α} {t : Tab α} (h : Tab.ok d t = true) (k q : Nat) (f : α → α) :
    Tab.get d (Tab.upd d t k f) q = if q = k then f (Tab.get d t k) else Tab.get d t q :=
  Tab.get_set h k q _

theorem Tab.ok_upd {d : α} {t : Tab α} (k : Nat) (f : α → α) (h : Tab.ok d t = true) :
    Tab.ok d (Tab.upd d t k f) = true := Tab.ok_set k _ h

theorem Tab.set_below {d : α} {t : Tab α} {a k : Nat} (h : Tab.okFrom d a t = true) (hk : k < a) :
    Tab.set d t k d = t := by
  cases t with
  | nil => simp [Tab.set]
  | cons e t =>
    simp only [Tab.okFrom, Bool.and_eq_true, decide_eq_true_eq] at h
    simp only [Tab.set]
    rw [if_pos (by omega)]; simp

theorem Tab.set_get_from {d : α} {t : Tab α} {a : Nat} (k : Nat) (h : Tab.okFrom d a t = true) :
    Tab.set d t k (Tab.get d t k) = t := by
  induction t generalizing a with
  | nil => simp [Tab.set, Tab.get]
  | cons x t ih =>
    obtain ⟨j, w⟩ := x
    simp only [Tab.okFrom, Bool.and_eq_true, decide_eq_true_eq] at h
    obtain ⟨⟨h1, h2⟩, h3⟩ := h
    simp only [Tab.set, Tab.get]
    by_cases e : j = k
    · subst e; simp [h2]
    · by_cases e2 : k < j
      · simp [e, e2]
      · simp [e, e2, Ne.symm e, ih h3]

/-- Writing what a key reads as changes nothing. -/
theorem Tab.set_get {d : α} {t : Tab α} (h : Tab.ok d t = true) (k : Nat) :
    Tab.set d t k (Tab.get d t k) = t := Tab.set_get_from k h

theorem Tab.ext_from {d : α} {t u : Tab α} {a : Nat} (ht : Tab.okFrom d a t = true)
    (hu : Tab.okFrom d a u = true) (h : ∀ k, Tab.get d t k = Tab.get d u k) : t = u := by
  induction t generalizing a u with
  | nil =>
    cases u with
    | nil => rfl
    | cons y u =>
      simp only [Tab.okFrom, Bool.and_eq_true, decide_eq_true_eq] at hu
      have := h y.1
      simp [Tab.get] at this
      exact absurd this.symm hu.1.2
  | cons x t ih =>
    simp only [Tab.okFrom, Bool.and_eq_true, decide_eq_true_eq] at ht
    cases u with
    | nil =>
      have := h x.1
      simp [Tab.get] at this
      exact absurd this ht.1.2
    | cons y u =>
      simp only [Tab.okFrom, Bool.and_eq_true, decide_eq_true_eq] at hu
      have hx := h x.1
      have hy := h y.1
      simp only [Tab.get, ↓reduceIte] at hx hy
      have e : x.1 = y.1 := by
        rcases Nat.lt_trichotomy x.1 y.1 with e | e | e
        · rw [if_neg (by omega), if_pos e] at hx; exact absurd hx ht.1.2
        · exact e
        · rw [if_neg (by omega), if_pos e] at hy; exact absurd hy.symm hu.1.2
      rw [if_pos e.symm] at hx
      have e2 : x = y := Prod.ext e hx
      subst e2
      congr 1
      refine ih ht.2 hu.2 fun k => ?_
      have hk := h k
      simp only [Tab.get] at hk
      by_cases e3 : x.1 = k
      · rw [Tab.get_below ht.2 (by omega), Tab.get_below hu.2 (by omega)]
      · rw [if_neg e3, if_neg e3] at hk
        by_cases e4 : k < x.1
        · rw [Tab.get_below ht.2 (by omega), Tab.get_below hu.2 (by omega)]
        · rw [if_neg e4, if_neg e4] at hk; exact hk

/-- Tables in canonical form that read alike are equal. -/
theorem Tab.ext {d : α} {t u : Tab α} (ht : Tab.ok d t = true) (hu : Tab.ok d u = true)
    (h : ∀ k, Tab.get d t k = Tab.get d u k) : t = u := Tab.ext_from ht hu h

/-- The second of two writes to one key counts. -/
theorem Tab.set_set {d : α} {t : Tab α} (h : Tab.ok d t = true) (k : Nat) (v w : α) :
    Tab.set d (Tab.set d t k v) k w = Tab.set d t k w := by
  refine Tab.ext (Tab.ok_set k w (Tab.ok_set k v h)) (Tab.ok_set k w h) fun q => ?_
  rw [Tab.get_set (Tab.ok_set k v h), Tab.get_set h, Tab.get_set h]
  split <;> rfl

/-- The table with nothing listed is in canonical form, and every key reads as the unlisted value. -/
theorem Tab.ok_nil (d : α) : Tab.ok d [] = true := rfl

omit [DecidableEq α] in
theorem Tab.get_nil (d : α) (k : Nat) : Tab.get d [] k = d := rfl

/-! ### Byte memories -/

/-- The empty memory, which every memory is at reset. -/
theorem Memory.wf_nil : Memory.wf [] = true := rfl

theorem Memory.wf_write {m : Memory} (a : Nat) (b : Byte) (h : m.wf = true) :
    (m.write a b).wf = true := Tab.ok_set a b h

theorem Memory.read_write {m : Memory} (h : m.wf = true) (a q : Nat) (b : Byte) :
    (m.write a b).read q = if q = a then b else m.read q := Tab.get_set h a q b

theorem Memory.wf_writeList {m : Memory} (a : Nat) (bs : List Byte) (h : m.wf = true) :
    (m.writeList a bs).wf = true := by
  induction bs generalizing m a with
  | nil => exact h
  | cons b bs ih => exact ih (a + 1) (Memory.wf_write a b h)

/-- What a memory reads as after a write of several bytes. -/
theorem Memory.read_writeList {m : Memory} (h : m.wf = true) (a : Nat) (bs : List Byte) (q : Nat) :
    (m.writeList a bs).read q =
      if a ≤ q ∧ q < a + bs.length then nth bs (q - a) 0#8 else m.read q := by
  induction bs generalizing m a with
  | nil => simp [Memory.writeList]
  | cons b bs ih =>
    rw [Memory.writeList, ih (Memory.wf_write a b h), Memory.read_write h]
    simp only [List.length_cons]
    by_cases e : q = a
    · subst e; rw [if_neg (by omega), if_pos rfl, if_pos (by omega)]; simp [nth]
    · by_cases e2 : a ≤ q ∧ q < a + (bs.length + 1)
      · rw [if_pos (by omega), if_pos e2]
        have : q - a = (q - (a + 1)) + 1 := by omega
        rw [this]; simp [nth]
      · rw [if_neg (by omega), if_neg e, if_neg e2]

end Sys2Proof.Machine
end

