-- ==== Sys2Proof/WellFormed.lean ====
section
/-! DEFINITION. Which commands a sender, or the physics around the block, can form: the checks that no
type of an operand makes. The block judges what it receives itself; a command that is not well formed is
one that nothing outside the block sends. -/

namespace Sys2Proof

/-- Why a command is not well formed. -/
inductive Ill where
  /-- a mailbox body longer than 1,004 bytes (R331) -/
  | body
  /-- a fabric frame longer than 128 bytes (R355) -/
  | frame
  /-- a site beyond 960 (R81) -/
  | site
  /-- an input port beyond 96 (R81) -/
  | port
  /-- data of DEBUG_ATTACH OP 5 beyond 992 bytes (R348) -/
  | data
  /-- a reference further from WOSC than its own whole frequency -/
  | share
  /-- a signal beyond what an analogue terminal survives: 36 V, or 36 mA (R170) -/
  | signal
  deriving DecidableEq, Repr

/-- A body fits one mailbox. -/
def bodyFits (body : List Byte) : Option Ill := if body.length ≤ 1004 then none else some .body

/-- A frame fits the link. -/
def frameFits (f : List Byte) : Option Ill := if f.length ≤ 128 then none else some .frame

/-- The first check that a command fails. -/
def Instr.ill : Instr → Option Ill
  | .identify _ b | .getStatus _ b | .readRegs _ b | .writeRegs _ b | .sessionOpen _ b
  | .sessionClose _ b | .imageBegin _ b | .imageChunk _ b | .imageEnd _ b | .imageValidate _ b
  | .imageStage _ b | .imageHandover _ b | .imageAbandon _ b | .functionReset _ b
  | .functionQuery _ b | .engineSplit _ b | .engineJoin _ b | .calZero _ b | .calFull _ b
  | .calCommit _ b | .calDiscard _ b | .recInfo _ b | .recRead _ b | .recClear _ b
  | .fuseRead _ b | .fuseAdvance _ b | .fabricMap _ b | .peerAccept _ b | .peerExpel _ b
  | .streamOpen _ b | .streamClose _ b | .debugAttach _ b | .debugDetach _ b
  | .firmwareBegin _ b | .firmwareChunk _ b | .firmwareEnd _ b | .firmwareSwitch _ b => bodyFits b
  | .helloReceived _ f | .lsaReceived _ f | .sdata _ f | .cdata _ f | .bdata _ f => frameFits f
  | .debugWrite _ _ _ _ d => if d.length ≤ 992 then none else some .data
  | .evaluation _ bad => if bad.all fun x => decide (x < 960) then none else some .site
  | .delayExpiry _ site => if site < 960 then none else some .site
  | .sagRideThrough _ port => if port < 96 then none else some .port
  | .disagreement _ wA wB => if wA ≤ 1000000 ∧ wB ≤ 1000000 then none else some .share
  | .conversionResult _ x => if x.sig.natAbs ≤ 36000000 then none else some .signal
  | .validationDone | .handoverCommit | .outputReset _ _ | .reTestEnd _ | .drainEnd _
  | .calAverageEnd | .halt _ _ | .resume _ _ | .debugStep _ _ | .debugRead _ _ _ _ _
  | .breakSet _ _ _ _ | .firmwareCheckEnd | .counterClear _ _ | .cnvGo _ _ | .cnvSnap _ _
  | .tbRead _ | .tmrGo _ _ _ | .tmrSnap _ _ _ | .pop _ _ | .capsw _ _ | .stop _ _ | .arm _ _
  | .start _ _ | .periodWrite _ _ _ | .compareWrite _ _ _ _ | .domainPowerDown _
  | .domainPowerUp _ | .cvuInit _ | .cvuData _ _ _ _ | .cvuExpect _ _ | .registerWrite _ _ _
  | .windowStart _ _ | .commit _ _ _ _ _ _ _ _ | .overrun _ _ | .holdDeadline _ _ | .runAhead _ _
  | .migration _ _ _ | .selfTestEnd _ _ | .longDelayExpiry _ _ | .refresh _
  | .evaluationTimeout _ | .mirrorBuild _ | .rewrite _ | .holdAllowance _ | .roomSelfTest _
  | .roomSelfTestEnd _ _ | .inputChange _ _ | .glitchFilter _ _ | .debounce _ _ | .disagree _
  | .gateTime _ _ | .periodTimeout _ _ | .pulseFrame | .pulse _ _ | .overload _ _
  | .readbackDisagree _ _ | .lineSense _ _ _ | .groupSupply _ _ _ _ | .oversum _ _
  | .uplinkLaunch | .uplinkFrame _ _ | .frameMissing _ | .downlinkFrame | .downlinkAccept _ _
  | .configurationPacket _ | .resultBlock _ _ _ | .sequencerStop _ _ | .peerDead _ | .gateHold _
  | .silence | .holdTime _ | .conversionStart _ _ | .holdBackEnd _ | .referenceCheck _ _
  | .stale _ | .supplyMeasurement _ _ | .switchOff | .fieldFall | .cellarFall | .startupStep _
  | .domainDownEnd _ | .domainUpEnd _ _ | .domainFault _ | .domainRetry _ | .lossOfSignal _
  | .relock | .woscCheck _ _ _ | .holdupMeasurement _ | .operatingSecond | .endEvent _ _
  | .compare _ _ | .fuseBlow _ | .programmingWindow _ _ | .flushInterval | .flushEnd _
  | .switchover _ | .processorRestart _ _ | .sessionTimeout _ | .challengeTimeout _ | .lockOutEnd
  | .loadTimeout | .calibrationTimeout | .streamPacket _ | .prpSupervision | .hello _
  | .helloTimeout _ | .lsa | .lsaAgeOut _ | .routeRecompute | .release _ | .watchdog _
  | .sealChange _ | .cover _ | .ready | .stateRecompute | .agreement _ | .offPulse _ _
  | .thermalShutdown _ _ | .blockClose _ | .speedMonitor _ _ | .mailboxFrame _ _ | .arp _
  | .icmpEcho _ | .breakpoint _ | .charged | .safetyLoadWindow _ => none

/-- A command that can be sent. -/
def Instr.wf (c : Instr) : Bool := c.ill.isNone

end Sys2Proof
end

