-- ==== Sys2Proof/Tests/Slice0.lean ====
section
/-! SUPPORT. Tests of this model: a term that each check of `WellFormed` refuses, small runs whose
results the manual states, and for every statement states and operands that meet its hypotheses. -/

namespace Sys2Proof.Tests

set_option Elab.async false

open Machine

/-! ### Well-formedness: one ill-formed term for each check -/

/-- Header of a request outside a session, from the service port. -/
def h0 : Hdr := { origin := .usb, session := 0, tag := 7, seq := 1, epoch := 1, staged := false }

/-- Header of a request of session 1. -/
def h1 : Hdr := { h0 with session := 1 }

theorem test_ill_body : (Instr.calFull h1 (List.replicate 1005 0#8)).ill = some .body := by
  decide +kernel
theorem test_ill_frame : (Instr.sdata 0 (List.replicate 129 0#8)).ill = some .frame := by
  decide +kernel
theorem test_ill_site : (Instr.evaluation 0 [5, 960]).ill = some .site := by decide
theorem test_ill_port : (Instr.sagRideThrough 0 96).ill = some .port := by decide
theorem test_ill_data : (Instr.debugWrite h1 0 1 0 (List.replicate 993 0#8)).ill = some .data := by
  decide +kernel
theorem test_ill_share : (Instr.disagreement 2000 1000001 0).ill = some .share := by decide
theorem test_ill_signal :
    (Instr.conversionResult 0 { sig := 36000001, coef := none }).ill = some .signal := by
  decide
theorem test_wf_charged : Instr.charged.wf = true := by decide

/-- No row of the table gives bits. -/
theorem test_no_word_spells_a_command : decodeTableWord 16 0 = none := rfl

/-! ### Steps -/

/-- What a step gives. -/
def after (c : Instr) (s : State) : State := nextState (exec c s) s

theorem test_reset_idles_one_tick : ∃ t, step State.reset = .next t ∧ t.tb = 1 := ⟨_, rfl, rfl⟩

theorem test_step_takes_the_front_command :
    ∃ t, step { State.reset with pending := [.charged, .silence] } = .next t ∧
      t.pending = [.silence] ∧ t.pwr.charged = true := ⟨_, rfl, rfl, rfl⟩


/-! ### States that the statements are about -/

/-- The result of an admitted request: the state with its cache entry. -/
def adm (s : State) (h : Hdr) (k : Kind) : State := ((admission s h k).map Prod.fst).getD s

/-- The request is admitted as operation `n`. -/
def ad (s : State) (h : Hdr) (k : Kind) (n : Nat) : Bool := (admission s h k).map Prod.snd == some n

/-- `ad` is the hypothesis of the statements about a mailbox command, with `adm` for its state. -/
theorem admit_of_ad {s : State} {h : Hdr} {k : Kind} {n : Nat} (e : ad s h k n = true) :
    admission s h k = some (adm s h k, n) := by
  unfold ad at e
  unfold adm
  cases x : admission s h k with
  | none => rw [x] at e; exact absurd e (by simp)
  | some p => rw [x] at e; simp at e; subst e; rfl

/-- Session 1 open for the service port. -/
def sess (s : State) : State :=
  s.setSession 1 (some { origin := .usb, challenge := none, highest := none, cache := [], lastAt := 0 })

/-- The device after reset with session 1 open. -/
def s0 : State := sess .reset

/-- The same at tick `n`. -/
def at_ (n : Nat) (s : State) : State := { s with tb := n }

/-- An instance that the host may reset, on engine 0. -/
def inst0 : InstImg :=
  { num := 0, type := 1, auto := false, hostreset := true, word := 0x80000000, home := 0, rank := 0,
    ride := 0, binds := [], pars := [] }

/-- A room with a delay site, a long delay unit and a port that reads input 0. -/
def room0 : RoomImg :=
  { iroom := 0, mirrored := false, mroom := 0xFF, hold := 1, depth := 1,
    sites := [{ site := 0, mode := .ondly, start := false, table := 0, delay := 3, in0 := .port 0,
                in1 := .const false, in2 := .const false, in3 := .const false }],
    ports := [{ port := 0, demand := false, ride := 10, source := .input 0 }],
    latches := [{ latch := 0, demand := false, site := 0 }],
    lds := [{ unit := 0, offDelay := false, time := 2, input := .port 0 }] }

/-- Converter 0 in CONTINUOUS mode with one list entry. -/
def conv0 : ConvImg := { conv := 0, cfg := 0x101, list := [], chans := [] }

def fab0 : FabricImg :=
  { fabric := 1, role := 0, master := 0, standby := 1, ports := [1, 1, 1, 1],
    maps := [{ uid := 0, node := 3 }, { uid := 5, node := 4 }], produced := [], consumed := [] }

/-- A small image: every output used, every input in DIRECT mode. -/
def img0 : Image :=
  { hdr := { signed := false, keyslot := 0, sealCode := 0, spare := 1, gen := 1, len := 132,
             nsect := 0, shadow := 10, name := [] },
    frameCfg := 0xC800, gthr := 0xC0A0, silence := 1000, engCmp := 0x01F40001,
    icfg := List.replicate 192 0, src := 0, pole := 0, sonly := 0,
    ocfg := List.replicate 64 0x80000000, osrca := [], osrcb := [],
    ccfg := [3, 4], convs := [conv0], timers := [], rooms := [room0], insts := [inst0], sfuncs := [],
    axes := [], trigs := [], fabric := some fab0, porch := none }

/-- The device with session 1 open runs that image, its field side too. -/
def s1 : State := { s0 with cfg := { s0.cfg with image := some img0 },
                            fld := { s0.fld with cfg := img0.fieldCfg, pulseCfg := img0.fieldCfg } }

/-! ### Witnesses: steps, the queue and mailboxes -/

/-- The device after CELLAR fell. -/
def dead : State := { State.reset with pwr := { Pwr.reset with cellarFell := true } }

/-- Hypotheses of StepRunsFrontCommand, EveryStepGoesOn, QueueIsFirstInFirstOut. -/
theorem witness_StepRunsFrontCommand :
    { State.reset with pending := [.charged, .ready] }.pending = .charged :: [.ready] ∧
    State.reset.pending = [] ∧ State.reset.ticking = true ∧ dead.pending = [] ∧
    dead.ticking = false ∧ dead.alive = false := by
  decide +kernel

theorem witness_QueueIsFirstInFirstOut :
    ∃ t, step { State.reset with pending := [.charged, .ready] } = .next t := ⟨_, rfl⟩

set_option maxRecDepth 10000 in
theorem witness_BlownFusesStayBlown :
    let s := { State.reset with pending := [.charged] }
    Blown (fun _ => 0#32) s ∧ ∃ t, step s = .next t :=
  ⟨⟨by decide +kernel, fun _ => BitVec.zero_and⟩, _, rfl⟩

theorem witness_TablesStayCanonical : Canonical State.reset ∧ ∃ t, step State.reset = .next t :=
  ⟨by unfold Canonical FieldTables LogicTables PorchTables; decide +kernel, _, rfl⟩

theorem witness_CommandsKeepTheTimebase : ∃ t, exec .charged State.reset = .next t := ⟨_, rfl⟩

/-- A held response of session `k`, and the device with `n` of them. -/
def boxOf (k : Nat) : Box := { session := k, out := .mailbox .usb [] }
def boxed (n k : Nat) (s : State) : State :=
  { s with por := { s.por with boxes := List.replicate n (boxOf k) } }

/-- Session 1 of the service port, with `n` commands in its cache, the oldest ended or none. -/
def sessOf (n : Nat) (ended : Bool) : Session :=
  let e (k : Nat) : CacheEntry :=
    { tag := BitVec.ofNat 32 k, seq := BitVec.ofNat 32 k, opcode := 0x40,
      done := if ended && k == 0 then some (1, []) else none, op := k }
  { origin := .usb, challenge := none, highest := some n, lastAt := 0, cache := ((List.range n).map e).reverse }
def withSess (v : Session) : State := s0.setSession 1 (some v)

/-- A request of session 1 with a SEQUENCE, and the same from another sender. -/
def hSeq (n : Nat) : Hdr := { h1 with seq := BitVec.ofNat 32 n }
def hOther (n : Nat) : Hdr := { hSeq n with origin := .udp 1 2 }

theorem witness_NoCommandWithoutItsSession :
    requestOf (.engineSplit h0 [0]) = some (h0, operate 0x40, true) ∧
    State.reset.porchUp = true ∧ State.reset.noBox h0.session = false ∧
    Denied State.reset h0 (operate 0x40) ∧ Denied State.reset h1 (observe 0x01 true) ∧
    Denied (withSess (sessOf 3 false)) (hOther 9) (operate 0x40) ∧
    (boxed 16 0 s0).porchUp = true ∧ 16 ≤ (boxed 16 0 s0).por.boxes.length ∧
    8 ≤ ((boxed 8 1 s0).por.boxes.filter fun x => x.session == h1.session.toNat).length := by
  refine ⟨rfl, by decide +kernel, by decide +kernel, by simp [Denied, h0, operate], ?_, ?_,
    by decide +kernel, by decide +kernel, by decide +kernel⟩
  · have e : State.reset.session 1 = none := by decide +kernel
    simp [Denied, h1, h0, e]
  · have e : (withSess (sessOf 3 false)).session 1 = some (sessOf 3 false) := by decide +kernel
    have o : (sessOf 3 false).origin ≠ .udp 1 2 := by decide
    have j : Judged (sessOf 3 false) (hOther 9) := by
      refine .inr ⟨fun n e => ?_, .inl (by decide)⟩
      have : (3 : Nat) = n := by simpa [sessOf] using e
      subst this; decide
    unfold Denied
    rw [if_neg (by decide), show (hOther 9).session.toNat = 1 from rfl, e]
    exact ⟨.inl o, j⟩

theorem witness_SealAndBodyAreJudgedInOrder :
    requestOf (.imageEnd h1 [1]) = some (h1, engineer 0x22, false) ∧
    (entered s0 h1 (engineer 0x22)).isSome = true ∧ s0.cfg.sealNow = 0 ∧
    (let u := { s0 with cfg := { s0.cfg with sealNow := 1 } }
     (entered u h1 (engineer 0x22)).isSome = true ∧ u.cfg.sealNow ≠ 0) := by decide +kernel

/-- Session 1 with one ended command in its cache. -/
def cached : State := s0.setSession 1 (some { origin := .usb, challenge := none, highest := some 1, lastAt := 0, cache := [{ tag := 7, seq := 1, opcode := 0x40, done := some (1, []), op := 1 }] })

theorem witness_RepeatedRequestIsAPoll :
    requestOf (.engineSplit h1 [0]) = some (h1, operate 0x40, true) ∧ cached.porchUp = true ∧
    cached.noBox h1.session = false ∧ h1.session ≠ 0 ∧ (cached.session 1).isSome = true ∧
    ((cached.session 1).bind fun v =>
      v.cache.find? fun x => x.tag == h1.tag && x.seq == h1.seq).isSome = true ∧
    (∀ k ∈ [0x40, 0x41], (cached.session 1).map (fun v => v.takes h1 (operate k)) = some true) ∧
    ((cached.session 1).map fun v =>
      (v.cache.find? fun x => x.tag == (8 : Word) && x.seq == (1 : Word)).isNone &&
        decide (v.highest = some 1)) = some true ∧
    (let v := sessOf 32 false
     (withSess v).session 1 = some v ∧ v.highest = some 32 ∧ 32 < (hSeq 33).seq.toNat ∧
       32 ≤ v.cache.length ∧ (∀ e ∈ v.cache, e.done = none) ∧ v.takes (hSeq 33) (operate 0x40) = true ∧
       v.cache.find? (fun x => x.tag == (hSeq 33).tag && x.seq == (hSeq 33).seq) = none) := by
  decide +kernel

def udp : Origin := .udp 0xC0A86001 5000
def hU : Hdr := { h0 with origin := udp }

theorem witness_ResponseMailbox :
    hU.origin = .udp 0xC0A86001 5000 ∧ h0.origin = .usb ∧
    (s0.unit (procUnit s0.por.active)).upset = 0 ∧ s0.por.prp = false ∧
    Tab.ok .fresh s0.cvu = true ∧ s0.por.hold = false ∧
    { s0 with por := { s0.por with hold := true } }.por.hold = true ∧
    (0 : Nat) ≠ procUnit s0.por.active := by decide +kernel

theorem witness_NewRequestEntersTheCache :
    (entered s0 h1 (operate 0x40)).isSome = true ∧
    (entered s0 h0 (observe 1 true)).isSome = true ∧ Tab.ok none s0.por.sessions = true ∧
    h0.session = 0 ∧ h1.session ≠ 0 ∧
    (∀ n ∈ [3, 32], let s := withSess (sessOf n true)
     (entered s (hSeq 40) (operate 0x40)).isSome = true ∧
       s.session 1 = some (sessOf n true) ∧ (sessOf n true).cache.length = n ∧
       (sessOf n true).cache.Nodup) := by decide +kernel

theorem witness_MailboxFrameRunsItsCommand :
    (∀ s ∈ [State.reset, boxed 16 0 .reset], s.porchUp = true ∧ s.por.hold = false ∧
      (s.unit (procUnit s.por.active)).upset = 0 ∧ Tab.ok .fresh s.cvu = true ∧
      ∀ u < 19, (s.unit u).due = false) ∧
    State.reset.noBox hU.session = false ∧ (boxed 16 0 .reset).noBox hU.session = true ∧
    (commandOf 1 hU []).isSome = true ∧ (commandOf 0xFFFF hU []).isNone = true ∧
    hU.origin = .udp 0xC0A86001 5000 ∧ h0.origin = .usb ∧ ([] : List Byte).length < 20 ∧
    (let b : List Byte := List.replicate 20 0
     b.length = 20 + numAt b 14 2 ∧ numAt b 14 2 ≤ 1004 ∧
       numAt b (16 + numAt b 14 2) 4 ≠ crc32c (b.take (16 + numAt b 14 2))) ∧
    unstuff [0x7D] = none ∧
    (let w := mailWire udp false
     w.origin = .udp 0xC0A86001 5000 ∧ { w with tagged := true }.tagged = true ∧
       { w with fragment := true }.fragment = true ∧ { w with port := 7 }.port ≠ 39500#16) := by
  decide +kernel

theorem witness_ObserveCommandsAnswer :
    ad s0 h0 (observe 0x01 true) 0 = true ∧ ad s0 h0 (observe 0x02 true) 0 = true ∧
    ad s1 h0 (observe 0x31 false) 0 = true ∧ s1.img false = some img0 ∧
    s1.instImg false (numAt [0, 0] 0 2) = some inst0 ∧
    ad s0 h0 (observe 0x60 true) 0 = true ∧ ad s0 h0 (observe 0x61 true) 0 = true ∧
    ad s0 h0 (observe 0x70 true) 0 = true ∧
    ad s0 h0 (observe 0x80 false) 0 = true := by decide +kernel

/-- An image whose function 9 is a sea function. -/
def img9 : Image := { img0 with sfuncs := [{ num := 9, prio := 0, rank := 0, rooms := [0] }] }
def s9 : State := { s1 with cfg := { s1.cfg with image := some img9 } }

theorem witness_ObserveCommandsAnswer_sea :
    ad s9 h0 (observe 0x31 false) 0 = true ∧ s9.img false = some img9 ∧
    s9.instImg false (numAt [0, 9] 0 2) = none ∧
    (img9.sfuncs.find? fun y => y.num == numAt [0, 9] 0 2).isSome = true := by decide +kernel

/-! ### Witnesses: sessions, streams, images -/

def hC : Hdr := { h1 with seq := 2 }

/-- Session 1 waits for its MAC; the device has a host secret. -/
def chal : State := State.reset.setSession 1 (some { origin := .usb, challenge := some ([], 0), highest := none, cache := [], lastAt := 0 })
def keyed (s : State) : State := { s with por := { s.por with secret := List.replicate 32 1#8 } }
def opens : Kind := { observe 0x10 true with opens := true }

theorem witness_SessionsOpenAndEnd :
    State.reset.por.lockedAt = none ∧
    ad State.reset h0 (observe 0x10 true) 0 = true ∧ State.reset.session 1 = none ∧ (s0.session 1).isSome = true ∧ s0.session 2 = none ∧
    (∀ u ∈ [chal, keyed chal], u.por.lockedAt = none ∧ h1.session ≠ 0 ∧
      ad u h1 opens 1 = true ∧
      (((adm u h1 opens).session 1).bind Session.challenge).isSome = true) ∧
    chal.cfg.sealNow = 0 ∧ chal.por.secret.all (fun x => x == 0#8) = true ∧
    ¬((keyed chal).por.secret.all (fun x => x == 0#8) = true) ∧
    (hmac256 (keyed chal).por.secret []).length = 32 := by decide +kernel

theorem witness_SessionsOpenAndEnd_sealed :
    (let u := { chal with cfg := { chal.cfg with sealNow := 1 } }
     ad u h1 opens 1 = true ∧ u.cfg.sealNow ≠ 0) := by decide +kernel

theorem witness_SessionsOpenAndEnd_ends :
    (let k : Kind := { operate 0x11 with loader := true }
     ad s0 h1 k 1 = true) ∧
    (let u := at_ 120000000000 s0
     u.porchUp = true ∧ (u.session 1).map Session.challenge = some none ∧
       (u.session 1).map Session.lastAt = some 0 ∧ u.por.streams = []) ∧
    (let u := at_ 2000000000 chal
     u.porchUp = true ∧ (u.session 1).map Session.challenge = some (some ([], 0))) ∧
    (let u := at_ 12000000000 { s0 with por := { s0.por with lockedAt := some 0 } }
     u.alive = true ∧ u.por.lockedAt = some 0 ∧ 0 + 12000000000 ≤ u.tb) ∧
    Tab.ok none s0.por.sessions = true := by decide +kernel

/-- STREAM_OPEN of converter 0, all channels, every entry, to UDP port 5001. -/
def openBody : List Byte := [0, 0, 0x13, 0x89, 0xFF, 0, 0, 1]
def hS : Hdr := { h1 with origin := udp }
def sU : State := s1.setSession 1 (some { origin := udp, challenge := none, highest := none, cache := [], lastAt := 0 })
def streaming (q : List StreamEntry) : State := s0.setStream 0 (some { session := 1, conv := 0, usb := true, dest := .usb, mask := 0xFF, dec := 1, seen := 0, packet := 0, dropped := 0, queue := q })

theorem witness_StreamsOpenSendAndClose :
    ad sU hS (operate 0x90) 1 = true ∧
    streamShaped openBody = true ∧
    (streamDest hS (numAt openBody 1 1 == 1) (numAt openBody 2 2)).isSome = true ∧
    (adm sU hS (operate 0x90)).stream 0 = none ∧
    (let u := adm sU hS (operate 0x90)
     u.rateSum (numAt openBody 1 1 == 1) +
       u.rateOf (numAt openBody 0 1) (numAt openBody 4 1) (numAt openBody 6 2) ≤ 60000000) ∧
    ad (streaming []) h1 (operate 0x91) 1 = true ∧
    ((adm (streaming []) h1 (operate 0x91)).stream 0).isSome = true ∧
    (let e : StreamEntry := { word := 0, seq := 1, tick := 0, wrote := 0 }
     let u := at_ 200000 (streaming [e])
     u.porchUp = true ∧ ((u.stream 0).bind fun x => x.queue.head?) = some e ∧
       e.wrote + 200000 ≤ u.tb) := by decide +kernel

/-- The fixed part of an ARP request and an address of a sender. -/
def arpFront : List Byte := [0, 1, 8, 0, 6, 4, 0, 1] ++ List.replicate 16 0

theorem witness_StreamsOpenSendAndClose_ports :
    State.reset.porchUp = true ∧ arpFront.length = 24 ∧
    arpFront.take 8 = [0#8, 1#8, 8#8, 0#8, 6#8, 4#8, 0#8, 1#8] ∧
    (State.reset.por.h1.take 4).length = 4 ∧ 4 ≤ [0#8, 1#8, 0#8, 1#8].length ∧
    (let u := at_ 400000000 { s0 with por := { s0.por with prp := true } }
     u.por.prp = true ∧ u.por.prpAt + 400000000 ≤ u.tb ∧ u.porchUp = true ∧
       Sent.prpSupervision.onHost = true) ∧
    State.reset.por.prp = false ∧ (Sent.mailbox .usb []).onHost = false := by decide +kernel

/-- A load of 8 bytes into slot 0, `n` of them written. -/
def loading (n : Nat) : State :=
  { s0 with cfg := { s0.cfg with load := some { session := 1, slot := 0, len := 8, next := n, lastAt := 0 } } }

theorem witness_ImageLoadsKeepTheSlotMemory :
    (let u := adm s0 h1 (engineer 0x20)
     ad s0 h1 (engineer 0x20) 1 = true ∧ 8 ≤ 8388608 ∧ u.cfg.load = none ∧
       u.cfg.running = none ∧ u.cfg.image = none ∧ (u.slot (1 - u.nv.active)).st ≠ .staged) ∧
    (let u := adm s1 h1 (engineer 0x20)
     ad s1 h1 (engineer 0x20) 1 = true ∧ u.cfg.load = none ∧ u.cfg.running = none ∧
       u.cfg.image.isSome = true ∧ (u.slot (1 - u.cfg.slot)).st ≠ .staged) ∧
    (let u := adm (loading 0) h1 (engineer 0x21)
     ad (loading 0) h1 (engineer 0x21) 1 = true ∧ u.cfg.load.map Load.session = some 1 ∧
       u.cfg.load.map Load.next = some 0 ∧ 0 + [1#8, 2#8].length ≤ 8 ∧
       Tab.ok .empty u.nv.slots = true ∧ (u.slot 0).mem.wf = true) ∧
    (let u := adm (loading 4) h1 (engineer 0x21)
     ad (loading 4) h1 (engineer 0x21) 1 = true ∧
       (u.slot 0).mem.readList 0 4 = [0#8, 0#8, 0#8, 0#8] ∧
       0 + [0#8, 0#8, 0#8, 0#8].length ≤ 4 ∧ 4 ≤ 8) ∧
    (let u := adm (loading 8) h1 (engineer 0x22)
     ad (loading 8) h1 (engineer 0x22) 1 = true ∧
       u.cfg.load.map (fun l => l.next == l.len) = some true) := by decide +kernel

/-- Slot 0 holds the bytes of an image without sections, in the given state. -/
def slotted (st : SlotSt) : State :=
  s0.setSlot 0 { st := st, len := 132, mem := [(0, 0x4B), (1, 0x53), (2, 0x43), (3, 0x46), (4, 1), (6, 0x96), (7, 0x64)] }

theorem witness_ValidationRuns :
    (let u := adm (slotted .loaded) h1 (engineer 0x23)
     ad (slotted .loaded) h1 (engineer 0x23) 1 = true ∧
       (u.slot 0).st ∈ [SlotSt.loaded, .valid, .invalid] ∧ u.cfg.running = none) ∧
    (let u := { s0 with cfg := { s0.cfg with running := some (0, 1) } }
     u.alive = true ∧ u.cfg.running = some (0, 1)) := by decide +kernel

theorem witness_StagingReadinessAndAbandonment :
    (let u := adm (slotted .valid) h1 (engineer 0x24)
     ad (slotted .valid) h1 (engineer 0x24) 1 = true ∧ (u.slot 0).st = .valid ∧
       u.cfg.staged = none ∧ u.busy = false ∧ u.cfg.running = none ∧
       (u.slotImage 0).isSome = true ∧ u.eng.thresh = 0 ∧
       ((u.slotImage 0).map fun m => u.spareOk m && u.fitOk m) = some true) ∧
    (let u := { s0 with cfg := { s0.cfg with staged := some img0 },
                        pwr := { s0.pwr with opsec := 10 } }
     u.alive = true ∧ u.cfg.staged = some img0 ∧ img0.hdr.shadow ≤ u.pwr.opsec - u.cfg.clock0) ∧
    (let u := adm (loading 0) h1 (engineer 0x26)
     ad (loading 0) h1 (engineer 0x26) 1 = true ∧ u.cfg.load.map Load.session = some 1) ∧
    (let v := { s0 with cfg := { s0.cfg with staged := some img0 } }
     let u := adm v h1 (engineer 0x26)
     ad v h1 (engineer 0x26) 1 = true ∧ u.cfg.load = none ∧ u.cfg.staged.isSome = true) ∧
    (let u := at_ 120000000000 (loading 0)
     u.cfg.load.map Load.lastAt = some 0 ∧ u.alive = true) := by decide +kernel

/-- A staged image that is ready, with a hand-over pending at tick 0 or none. -/
def staging (o : Option Handover) (code : Byte) : State :=
  { s0 with cfg := { s0.cfg with staged := some img0, ready := true, handover := o, sealNow := code } }
def ho : Handover := { force := false, op := 1, at_ := 0 }

theorem witness_HandOver :
    (let u := adm (staging none 0) h1 (engineer 0x25)
     ad (staging none 0) h1 (engineer 0x25) 1 = true ∧ u.cfg.staged.isSome = true ∧
       u.cfg.ready = true ∧ u.cfg.handover = none ∧ u.busy = false) ∧
    (staging (some ho) 0).cfg.handover = some ho ∧ (staging (some ho) 0).cfg.staged = some img0 ∧
    ho.at_ ≤ (staging (some ho) 0).tb ∧ (staging (some ho) 0).ticking = true ∧
    (staging (some ho) 0).bumps false = 0 ∧ (staging (some ho) 1).cfg.sealNow ≠ 0 ∧
    Tab.ok .empty (staging (some ho) 0).nv.slots = true ∧
    (let u := { staging (some ho) 0 with cfg := { (staging (some ho) 0).cfg with image := some img0 } }
     u.cfg.image.isSome = true ∧ u.cfg.slot = 0 ∧
       { u with cfg := { u.cfg with stagedSlot := 1 } }.cfg.stagedSlot ≠ 0) := by
  decide +kernel

/-- Images whose output 0 has the trip masks alone for a source, which command it ON: the running one, the
staged one. -/
def imgOn : Image := { img0 with ocfg := [0x88000000] ++ List.replicate 63 0x80000000 }
def bumping (force : Bool) : State :=
  { s1 with cfg := { s1.cfg with image := some img0, staged := some imgOn,
                                 handover := some { ho with force := force } } }

theorem witness_HandOver_bumps :
    (∀ force : Bool, (bumping force).cfg.sealNow = 0 ∧ (bumping force).bumps force = 1 ∧
      (bumping force).ticking = true) ∧
    (let u := { bumping true with cfg := { (bumping true).cfg with image := some imgOn, staged := some img0 } }
     u.bumps true = 0 ∧ u.bumps false = 1) := by decide +kernel

theorem witness_SealAndCover :
    s0.alive = true ∧ (1 : Byte) ≠ s0.cfg.sealNow ∧ s0.cfg.coverOpen = false ∧
    (0 : Byte) ≠ (staging none 1).cfg.sealNow ∧
    (let u := at_ 20000000 { s0 with cfg := { s0.cfg with coverOpen := true, coverAt := some 0 } }
     u.alive = true ∧ u.cfg.coverAt = some 0 ∧ 0 + 20000000 ≤ u.now) := by decide +kernel

/-! ### Witnesses: engines and the debugger -/

/-- The state with an image in use. -/
def run (m : Image) (s : State) : State :=
  { s with cfg := { s.cfg with image := some m },
           fld := { s.fld with cfg := m.fieldCfg, pulseCfg := m.fieldCfg } }

/-- Instance 0 carried by engine 0, as it stands before its first window. -/
def ins0 : Inst :=
  { st := FnSt.start inst0, engine := some 0, status := 0, started := false, moving := false,
    restore := false, wins := [], left := none, ckBad := false, spec := none, lastHash := none, lastWin := 0, lastAt := 0,
    prevOuts := 0, hold := none, safe := false, ckpt := none, ckIn := .a, from_ := none, began := 0,
    resets := [] }

/-- The same with HOLDW 1. -/
def instH : InstImg := { inst0 with word := 0x80400000 }

/-- The running device with instance 0 in the state `v`. -/
def withInst (v : Inst) : State := s1.setInst false 0 (some v)

/-- A window of instance 0 that began at tick 0 on engine 0. -/
def win0 : Window :=
  { start := 0, snap := s1.snapshot false img0 inst0 ins0, resets := [], eng := 0, flags := [],
    passA := none }

/-- Output 5 has a cause and is not commanded. -/
def failed5 : State :=
  { s1 with lgc := { s1.lgc with outs := [(5, { OutForm.start with cause := 8 })] } }

theorem witness_ResetsReachTheirTarget :
    (let u := adm (withInst ins0) h1 (operate 0x30)
     ad (withInst ins0) h1 (operate 0x30) 1 = true ∧ h1.staged = false ∧
       u.instImg false 0 = some inst0 ∧ inst0.hostreset = true ∧
       (u.inst false 0).map Inst.engine = some (some 0)) ∧
    (let u := adm failed5 h1 (operate 0x30)
     ad failed5 h1 (operate 0x30) 1 = true ∧ (u.oform 5).cause ≠ 0 ∧ u.bothOff 5 = true) := by
  decide +kernel

/-- Engine 2 in a state, with what else holds of it. -/
def eng2 (v : Engine) (s : State) : State := s.setEngine 2 v
def engSt (x : EngSt) : State := eng2 { Engine.start with st := x } s0

theorem witness_SplitAndJoin :
    (let u := adm s0 h1 (operate 0x40)
     ad s0 h1 (operate 0x40) 1 = true ∧ u.migrating = false ∧ 2 ∈ u.inService ∧
       u.splitFits 2 false = true) ∧
    (∀ b : Bool, let u := eng2 { Engine.start with st := .draining, forDebug := b } s0
     (u.engine 2).st = .draining ∧ u.ticking = true ∧ u.tb % 50000 = 0 ∧ u.eng.insts = [] ∧
       (u.engine 2).forDebug = b) ∧
    (let u := adm (engSt .split) h1 (operate 0x41)
     ad (engSt .split) h1 (operate 0x41) 1 = true ∧ (u.engine 2).st = .split) := by decide +kernel

/-- Engine 2 in its self-test, for a reason and with so many transients before. -/
def testing (w : TestWhy) (tr : List Nat) : State :=
  eng2 { Engine.start with st := .testing, why := w, trans := tr } s0

theorem witness_EngineSelfTestVerdicts :
    (∀ w ∈ [TestWhy.window [.engine], .window [.cmp .a], .window [.engine, .cmp .b], .join 1, .auto],
      ∀ tr ∈ [[], [0, 0]], let u := testing w tr
      (u.engine 2).st = .testing ∧ u.powered (engDom (engSide 2)) = true ∧
        (u.unit 2).failed = false ∧ (u.engine 2).why = w ∧ Tab.ok .start u.eng.engines = true) ∧
    (let u := testing (.window [.engine, .engine, .engine]) []
     ([Charge.engine, .engine, .engine].foldl (fun a c => a.charge 2 c) u |>.engine 2).trans.length = 3) ∧
    (0 :: within24h [] 0).length < 3 ∧ 3 ≤ (0 :: within24h [0, 0] 0).length := by decide +kernel

theorem witness_DebuggerAttachAndDetach :
    (let u := adm s0 h1 (engineer 0xA0)
     ad s0 h1 (engineer 0xA0) 1 = true ∧ u.migrating = false ∧ u.eng.attached = none ∧
       (u.engine 2).st ∉ [EngSt.suspect, .testing, .retired, .off]) ∧
    (let v := { engSt .debug with eng := { (engSt .debug).eng with attached := some 2 } }
     let u := adm v h1 (engineer 0xA1)
     ad v h1 (engineer 0xA1) 1 = true ∧ (u.engine 2).st = .debug ∧ u.eng.attached = some 2) ∧
    (let u := eng2 { Engine.start with st := .debug, breaks := [0x10] } s0
     (u.engine 2).st = .debug ∧ (u.engine 2).halted = false ∧ (u.engine 2).breaks ≠ [] ∧
       Tab.ok .start u.takeDues.eng.engines = true) := by decide +kernel

/-- Engine 2 in DEBUG and halted. -/
def halted2 : State := eng2 { Engine.start with st := .debug, halted := true } s0

theorem witness_DebuggerOperations :
    (let u := adm halted2 h1 (engineer 0xA0)
     ad halted2 h1 (engineer 0xA0) 1 = true ∧ (u.engine 2).st = .debug ∧
       (u.engine 2).halted = true ∧ ((u.engine 2).breaks.filter fun x => x != 0x10).length < 8 ∧
       1 ≤ (4 : Half).toNat ∧ (0 : Word).toNat + (4 : Half).toNat ≤ spaceSize 1 ∧
       (spaceSize 1 - 1) + 1 ≤ spaceSize 1 ∧ (1 : DebugSpace).toNat < 4 ∧ Tab.ok [] (u.engine 2).spaces = true ∧
       Tab.ok none (Tab.get [] (u.engine 2).spaces 1) = true) ∧
    (let u := adm s0 h1 (engineer 0xA0)
     ad s0 h1 (engineer 0xA0) 1 = true ∧ (u.engine 2).st ≠ .debug) := by decide +kernel

theorem witness_WindowsStartOnTheBoundary :
    (let u := at_ 50000 (withInst ins0)
     u.img false = some img0 ∧ u.instImg false 0 = some inst0 ∧ u.inst false 0 = some ins0 ∧
       inst0.prio ≠ 2 ∧ ins0.moving = false ∧ ins0.engine = some 0 ∧ 0 ∈ u.inService ∧
       u.judging = true ∧ u.ticking = true ∧ 8 ≤ u.pwr.step ∧ u.tb % inst0.ticks = 0 ∧
       ins0.wins.length < 2 ∧ (∀ w ∈ ins0.wins, w.start ≠ u.tb) ∧ ins0.started = false ∧
       Tab.ok none u.eng.insts = true ∧ Tab.ok .start u.eng.engines = true ∧
       Tab.ok .fresh u.cvu = true ∧ (u.unit 0).upset = 0) ∧
    (at_ 1 (withInst ins0)).tb % inst0.ticks ≠ 0 ∧ 1600000 % inst0.ticks = 0 := by decide +kernel

/-- One write of pass A, and pass B's expression for it. -/
def wrA : List (Word × Word) := [(1, 1)]
def wrB : List (Word × PassB) := [(1, .native 1)]

theorem witness_CommitTakesTheAgreedResult :
    (∀ x ∈ [inst0, { inst0 with word := 0x81000000 }], let v := { ins0 with wins := [win0] }
     let m := { img0 with insts := [x] }
     let u := at_ 40000 ((run m s0).setInst false 0 (some v))
     u.img false = some m ∧ u.instImg false 0 = some x ∧ u.inst false 0 = some v ∧
       x.num = 0 ∧ v.wins = win0 :: [] ∧ u.alive = true ∧ u.tb ≤ win0.start + x.ticks + 10000 ∧
       (u.unit win0.eng).fault = false ∧ (u.unit win0.eng).upset = 0 ∧ Tab.ok .fresh u.cvu = true ∧
       (let p := win0.passA.getD (PassA.of 0 0 wrA)
        p.rail' = ~~~p.rail ∧ p.faulty = false) ∧ win0.passA = none ∧
       u.judging = true ∧ u.cmpOk .a = true ∧ u.cmpOk .b = true ∧
       wrB = wrA.map (fun e => (e.1, .native e.2)) ∧
       decodeWrites (snapCoded win0.snap) wrB = some [(1, 1)] ∧
       (win0.passA.getD (PassA.of 0 0 wrA)).rail.toNat = signature 0 0 [(1, 1)] ∧
       decodeWrites (snapCoded win0.snap) [(1, .native 3)] = some [(1, 3)] ∧
       (win0.passA.getD (PassA.of 0 0 wrA)).rail.toNat ≠ signature 0 0 [(1, 3)] ∧
       decodeWrites (snapCoded win0.snap) [(1, .raw 1)] = none ∧
       ((u.engine 0).judged + 1) % max (bf img0.engCmp 24 16) 1 ≠ 0 ∧
       Tab.ok none u.eng.insts = true ∧ Tab.ok .zero u.eng.masks = true ∧ u.ckmFor 0 = true) ∧
    inst0.prio ≠ 2 ∧ { inst0 with word := 0x81000000 }.prio = 2 ∧
    (let u := s0.setEngine 0 { s0.engine 0 with judged := bf img0.engCmp 24 16 - 1 }
     ((u.engine 0).judged + 1) % max (bf img0.engCmp 24 16) 1 = 0 ∧
     (PassA.of 0 0 wrA).rail.toNat = signature 0 0 [(1, 1)] ∧
     (PassA.of 0 0 wrA).rail.toNat ≠ signature 0 0 [(1, 3)] ^^^ 2 ^ ((u.engine 0).skews % 32)) ∧
    (let u := { s0 with eng := { s0.eng with cmpA := .retired, cmpB := .retired } }
     u.judging = false) := by decide +kernel

theorem witness_CommitTakesTheAgreedResult_urgent :
    (let x : UrgAsk := { tick := 0, eng := 0, conv := 0, ch := 0 }
     let u := { s0 with lgc := { s0.lgc with urg := [x, { x with eng := 2 }] } }
     (u.lgc.urg.Pairwise fun x y => x.tick < y.tick ∨ (x.tick = y.tick ∧ x.eng ≤ y.eng)) ∧
       ∀ x ∈ u.lgc.urg, x.tick ≤ u.tb) := by decide +kernel

theorem witness_FailedWindowsHoldThenGoSafe :
    (let v := { ins0 with wins := [win0] }
     let u := at_ 50000 (withInst v)
     u.instImg false 0 = some inst0 ∧ u.inst false 0 = some v ∧ u.alive = true ∧
       v.wins = win0 :: [] ∧ inst0.prio ≠ 2 ∧ win0.start + inst0.ticks ≤ u.tb ∧ inst0.num = 0 ∧
       Tab.ok none u.eng.insts = true ∧ Tab.ok .start u.eng.engines = true ∧ v.safe = false ∧
       ¬(v.ckpt.isSome = true) ∧ (u.engine win0.eng).st = .spare ∧ Tab.ok .fresh u.cvu = true) ∧
    (let v := { ins0 with wins := [win0], ckpt := some (FnSt.start instH, 0) }
     let m := { img0 with insts := [instH] }
     let u := at_ 50000 ((run m s0).setInst false 0 (some v))
     u.instImg false 0 = some instH ∧ u.inst false 0 = some v ∧ v.wins = win0 :: [] ∧
       win0.start + instH.ticks ≤ u.tb ∧ instH.holdw = true ∧ u.ckmOk v.ckIn = true ∧
       instH.num = 0) ∧
    (let v := { ins0 with hold := some 0 }
     (withInst v).inst false 0 = some v ∧ v.hold = some 0 ∧ 0 ≤ (withInst v).tb) ∧
    (let v := { ins0 with started := true }
     (withInst v).inst false 0 = some v ∧ v.moving = false ∧ v.wins = [] ∧ v.started = true ∧
       ((withInst v).unit 0).upset = 0 ∧ Tab.ok .fresh (withInst v).cvu = true ∧ inst0.prio ≠ 2 ∧
       v.engine = some 0 ∧ 0 ∈ (withInst v).inService ∧ (withInst v).alive = true ∧ inst0.type ≠ 0x0E ∧
       (withInst v).eng.insts = [(0, some v)]) ∧
    (let v := { ins0 with moving := true, restore := true, ckpt := some (FnSt.start inst0, 0) }
     (withInst v).inst false 0 = some v ∧ v.moving = true ∧ v.restore = true ∧
       v.ckBad = false ∧ ((withInst v).unit 0).upset = 0 ∧ Tab.ok .fresh (withInst v).cvu = true ∧
       v.ckpt = some (FnSt.start inst0, 0) ∧ (withInst v).ckmOk v.ckIn = true ∧
       0 ∈ (withInst v).inService ∧ v.wins = [] ∧ v.engine = some 0 ∧ (withInst v).alive = true ∧
       (withInst v).movesLater inst0 = false) := by decide +kernel

/-! ### Witnesses: calibration, recorder, fuses, peers and firmware -/

/-- A calibration session of channel 0 in the given phase. -/
def calib (ph : CalPhase) (n : Nat) (bad : Bool) (full : Int) : Cal :=
  { session := 1, chan := 0, phase := ph, count := n, sum := 0, bad := bad, since := 0, zero := 0,
    full := full, applied := 0, op := 1, lastCmd := 0 }

/-- R173: of one tick the lower engine goes first, and a channel of another engine is not converted. -/
theorem test_urgent_requests_in_order :
    (let m := { img0 with convs := [{ conv0 with chans := [{ cfg := 0, band := 0, par := 0 },
       { cfg := 0x01000000, band := 0, par := 0 }] }] }
     let u := (s0.askUrgent false m 1 [1, 0]).askUrgent false m 0 [0, 1]
     u.lgc.urg = [{ tick := s0.tb, eng := 0, conv := 0, ch := 0 },
                  { tick := s0.tb, eng := 1, conv := 0, ch := 1 }]) := by decide +kernel

/-- An image with channel 0 in range 0, its newest entry fresh, and a calibration session. -/
def imgC : Image := { img0 with convs := [{ conv0 with chans := [{ cfg := 0x00000064, band := 0, par := 0 }] }] }
def calSt (k : Option Cal) : State :=
  ((run imgC s0).setCal k).setChan 0 { Chan.start with lastAt := some 0 }

theorem witness_CalibrationSession :
    (let u := adm (calSt none) h1 (operate 0x50)
     ad (calSt none) h1 (operate 0x50) 1 = true ∧ u.rangeOf 0 = some 0 ∧ u.cnv.cal = none) ∧
    (∀ ph ∈ [CalPhase.zeroed, .filled], let k := calib ph 0 false 0
     let u := adm (calSt (some k)) h1 (operate 0x51)
     ad (calSt (some k)) h1 (operate 0x51) 1 = true ∧ u.rangeOf 0 = some 0 ∧
       appliedOk 0 (10000000#32 : Word).toInt = true ∧ u.cnv.cal = some k ∧ k.session = 1 ∧
       k.chan = 0) ∧
    (∀ ph ∈ [CalPhase.zeroing, .filling], let k := calib ph 1024 false 0
     (calSt (some k)).cnv.cal = some k ∧ k.bad = false ∧ (calSt (some k)).isStale 0 = false ∧
       1024 ≤ k.count) ∧
    (calib .zeroing 0 true 0).bad = true ∧
    (let k := { calib .filled 0 false (25000 * 1024) with applied := 10000000 * 2500 }
     let u := adm (calSt (some k)) h1 (operate 0x52)
     ad (calSt (some k)) h1 (operate 0x52) 1 = true ∧ u.cnv.cal = some k ∧ k.phase = .filled ∧
       k.record.isSome = true ∧ Tab.ok .unity u.nv.cal = true ∧ Tab.ok .fresh u.cvu = true ∧
       (u.unit (procUnit u.por.active)).upset = 0) ∧
    ad (calSt (some (calib .zeroed 0 false 0))) h1 (operate 0x53) 1 = true ∧
    (let u := at_ 120000000000 (calSt (some (calib .zeroed 0 false 0)))
     u.cnv.cal.isSome = true ∧ u.alive = true) := by decide +kernel

/-- A CLEAR record, and an ordinary one. -/
def clearRec : Rec := { startedRec with code := 1, seq := 2 }

/-- A full calibration whose record is taken. -/
theorem witness_CalibrationSession_record :
    (let k := { calib .filled 0 false (25000 * 1024) with applied := 10000000 * 2500 }
     k.record.isSome = true) ∧
    (calib .zeroing 1024 false 0).lastCmd + 120000000000 ≤ (at_ 120000000000 s0).tb := by decide +kernel

/-- The foundation is full. -/
def fullFound : State := 
  { s0 with nv := { s0.nv with found := List.replicate 4096 { startedRec with crc := 0 } },
            rcd := { s0.rcd with next := 5000 } }

theorem witness_RecorderClearsAndFlushes :
    (let v := { s0 with rcd := { s0.rcd with buf := [clearRec] } }
     let u := adm v h1 (observe 0x62 false)
     ad v h1 (observe 0x62 false) 1 = true ∧ u.newestRec = some clearRec ∧ clearRec.code = 1) ∧
    (let v := { s0 with rcd := { s0.rcd with flushing := true } }
     v.rcd.flushing = true ∧ v.alive = true ∧ 3 < v.pwr.step ∧ v.rcd.hidden = false ∧
       v.rcd.failed = none ∧ v.nv.found.getLast?.map Rec.broken ≠ some true ∧
       v.nv.circ.getLast?.map Rec.broken ≠ some true ∧
       ∀ n : Fin 3, let o : FlushOutcome := { fails := n, stored := 1 }
         o.fails.val ≠ 2 ∨ o.fails.val = 2) ∧
    (let v := at_ 2000000000 { s0 with rcd := { s0.rcd with buf := [clearRec] } }
     v.alive = true ∧ v.rcd.flushed + 2000000000 ≤ v.tb ∧ v.rcd.failed = none ∧ v.rcd.buf ≠ []) := by
  decide +kernel

set_option maxRecDepth 20000 in
theorem witness_RecorderClearsAndFlushes_clear :
    (let u := adm fullFound h1 (observe 0x62 false)
     ad fullFound h1 (observe 0x62 false) 1 = true ∧
       (u.newestRec.map fun r => decide (r.code = 1)) = some false ∧ u.alive = true ∧
       u.rcd.failed = none ∧ u.rcd.buf.length < 512 ∧ u.rcd.lost = 0 ∧
       u.nv.found.length = 4096 ∧ 4096 < u.rcd.next ∧ (∀ x ∈ u.rcd.buf, x.seq ≠ u.rcd.next) ∧
       (u.unit 18).upset = 0 ∧ Tab.ok .fresh u.cvu = true) := by decide +kernel

/-- A blow of bit 3 of word 49 is being made, in the programming window. -/
def blowing : State :=
  { s0 with nv := { s0.nv with blows := [{ word := 49, bit := 3, pending := false, advance := true, again := false, arose := 0 }] },
            fus := { s0.fus with blowing := true } }

set_option maxRecDepth 20000 in
theorem witness_FusesAdvanceAndBlow :
    (let u := adm s0 h1 (engineer 0x71)
     ad s0 h1 (engineer 0x71) 1 = true ∧ 0 ≤ u.advValue 0 ∧ u.advValue 1 < 2 ∧
       u.fus.window = true ∧ u.aboveFirmware 0 = false) ∧
    (blowing.nv.blows.length = 1 ∧ blowing.fus.blowing = true ∧ blowing.alive = true ∧
      Tab.ok .blank blowing.nv.rows = true ∧ Tab.ok .blank blowing.nv.redir = true ∧
      Tab.get .blank blowing.nv.redir 0 = .blank ∧ Tab.get .blank blowing.nv.rows (128 + 0) = .blank) ∧
    (s0.alive = true ∧ s0.fus.window = true ∧ s0.fus.blowing = false ∧
      3200 ≤ 3300 ∧ 3300 ≤ 3400 ∧ ¬(3200 ≤ 3100)) := by decide +kernel

theorem witness_PeerLists :
    (let u := adm s1 h1 (engineer 0x81)
     ad s1 h1 (engineer 0x81) 1 = true ∧ 5 ≠ u.uid ∧ u.peerState 5 ≠ 1 ∧ 5 ∉ u.nv.accept ∧
       u.nv.accept.length < 16 ∧ 0 = u.uid) ∧
    (let v := { s1 with nv := { s1.nv with accept := 5 :: List.replicate 15 9, expel := List.replicate 16 9 } }
     let a := adm v h1 (engineer 0x81)
     let b := adm v h1 (engineer 0x82)
     ad v h1 (engineer 0x81) 1 = true ∧ 5 ≠ a.uid ∧ 5 ∈ a.nv.accept ∧
       6 ≠ a.uid ∧ a.peerState 6 ≠ 1 ∧ 6 ∉ a.nv.accept ∧ 16 ≤ a.nv.accept.length ∧
       ad v h1 (engineer 0x82) 1 = true ∧ 6 ≠ b.uid ∧ 6 ∉ b.nv.expel ∧ 16 ≤ b.nv.expel.length) ∧
    (let u := adm s1 h1 (engineer 0x82)
     ad s1 h1 (engineer 0x82) 1 = true ∧ 5 ∉ u.nv.expel ∧ u.nv.expel.length < 16) ∧
    (let v := { s1 with nv := { s1.nv with expel := [5] } }
     let u := adm v h1 (engineer 0x82)
     ad v h1 (engineer 0x82) 1 = true ∧ 5 ≠ u.uid ∧ 5 ∈ u.nv.expel) := by decide +kernel

/-- A firmware load of 8 bytes in the given phase. -/
def fwSt (ph : FwPhase) : State :=
  { s0 with por := { s0.por with fw := some { len := 8, next := 4, phase := ph, op := 1, data := [] } } }

theorem witness_FirmwareLoadsAndSwitches :
    (let u := adm s0 h1 (fwKind 0xB0)
     ad s0 h1 (fwKind 0xB0) 1 = true ∧ u.inLoader = false ∧ u.por.fw = none ∧
       (u.proc (otherSide u.por.active)).st = .standby) ∧
    (let u := adm (fwSt .loading) h1 (fwKind 0xB1)
     ad (fwSt .loading) h1 (fwKind 0xB1) 1 = true ∧
       (u.por.fw.map fun f => decide (f.phase = .loading) && decide (f.next + 4 ≤ f.len) && f.data.wf) =
         some true) ∧
    ad (fwSt .loading) h1 (fwKind 0xB2) 1 = true ∧
    ((fwSt .checking).porchUp = true ∧ (fwSt .checking).inLoader = false ∧
      (fwSt .checking).por.fw.isSome = true) ∧
    (let u := adm (fwSt (.checked 1 0)) h1 (fwKind 0xB3)
     ad (fwSt (.checked 1 0)) h1 (fwKind 0xB3) 1 = true ∧ u.inLoader = false ∧
       (u.proc (otherSide u.por.active)).st = .standby ∧ u.cfg.load = none ∧
       u.cfg.running = none ∧ u.cnv.cal = none ∧ u.pwr.pfail = false) := by decide +kernel

theorem witness_PorchSwitchesOver :
    (s0.porchUp = true ∧ s0.inLoader = false ∧ (s0.proc (otherSide s0.por.active)).st = .standby ∧
      s0.alive = true ∧ s0.por.prp = false) ∧
    (s0.pwr.opsec :: within24h (s0.proc .b).losses s0.pwr.opsec).length < 3 ∧
    (let v := s0.setProc .b { st := .standby, losses := [0, 0] }
     v.porchUp = true ∧ v.inLoader = false ∧ (v.proc (otherSide v.por.active)).st = .standby ∧
       3 ≤ (v.pwr.opsec :: within24h (v.proc .b).losses v.pwr.opsec).length) ∧
    (let v := s0.setProc .b { st := .lost, losses := [] }
     v.alive = true ∧ v.powered 1 = true ∧ (v.proc .b).st = .lost ∧ v.bankOk .b = true ∧
       (v.proc (otherSide .b)).st = .active) := by decide +kernel

/-! ### Witnesses: registers, timers and check-value units -/

theorem witness_RegisterAccessByTheHost :
    (let u := adm s0 h1 (observe 0x03 true)
     ad s0 h1 (observe 0x03 true) 1 = true ∧ u.inLoader = false ∧ u.pwr.result ≠ 6 ∧
       ∀ a ∈ [0, 0x30000], addrOk a = true ∧ u.admitted h1.session (regLevel false a) = true) ∧
    (let u := adm s0 h1 (observe 0x04 true)
     ad s0 h1 (observe 0x04 true) 1 = true ∧ u.inLoader = false ∧ u.pwr.result ≠ 6 ∧
       (∀ a ∈ [0, 0x10014, 0x60040], addrOk a = true ∧
         u.admitted h1.session (regLevel true a) = true) ∧
       (u.writeReg .porch true 0x60040 0).2 = stOk ∧
       (u.writeReg .porch true 0x10014 0x007).2 ≠ stOk ∧ addrOk 2 = false) ∧
    (let u := adm s0 h0 (observe 0x04 true)
     ad s0 h0 (observe 0x04 true) 0 = true ∧ u.pwr.result ≠ 6 ∧
       ∃ a ∈ [0x60040], addrOk a = true ∧ u.admitted h0.session (regLevel true a) = false) := by decide +kernel

theorem witness_RegisterWritesAreTheCommands :
    s0.alive = true ∧ s0.unitOn 0 = true ∧ bitOf (1 : Word) 0 = true ∧
    ((0x30008 : Nat) / 0x10000 ∉ [1, 3, 4, 5, 6] ∨ addrOk 2 = false) ∧
    (4 = 4 ∧ (0x40 : Nat) / 0x40 = 1 ∧ s0.unitOf (.engine 0) ≠ some 1) := by decide +kernel

/-- Converter 0 in triggered mode, its first list entry released by CNV_GO. -/
def convT : ConvImg := { conv := 0, cfg := 0x106, list := [0x10], chans := [] }

theorem witness_CountersTriggersAndSnapshots :
    s0.alive = true ∧ Tab.ok (0, 0, 0) s0.cnv.snaps = true ∧
    (let u := run { img0 with convs := [convT] } s0
     (u.fld.cfg.convs.find? fun x => x.conv == 0) = some convT ∧ Tab.ok .start u.cnv.convs = true ∧
       bf convT.cfg 1 0 = 2 ∧ bf convT.cfg 3 2 = 1 ∧ bitOf (nth convT.list (u.conv 0).next 0) 4 = true ∧
       (u.conv 0).release = false ∧ (u.conv 0).failed = false) ∧
    (s1.fld.cfg.convs.find? fun x => x.conv == 0) = some conv0 ∧ bf conv0.cfg 1 0 ≠ 2 := by
  decide +kernel

theorem witness_TimebaseReadsAndSnapshots :
    s0.alive = true ∧ Tab.ok .fresh s0.tmr.readers = true ∧
    s0.reader .porch = some 0 ∧ Tab.ok 0#32 (s0.readerSt 0).scnt = true ∧
    s0.reader (.inst false 0) = none ∧
    (withInst ins0).inst false 0 = some ins0 ∧ ins0.moving = false ∧
    (let v := { ins0 with moving := true, engine := some 1, from_ := some 0 }
     let u := (withInst v).setEngine 0 { Engine.start with st := .draining }
     u.inst false 0 = some v ∧ v.moving = true ∧ v.from_ = some 0 ∧
       (u.engine 0).st = .draining) := by decide +kernel

/-- Timer 3, owned by the porch, in the given state. -/
def tim (t : Timer) : State := s0.setTimer 3 { t with cfg := 0x30000000, period := 10 }

theorem witness_TimerControl :
    (∀ x ∈ [TmrSt.idle, .armed, .running, .done], let s := tim { Timer.unused with st := x }
     let u := s.takeDues
     s.alive = true ∧ Tab.ok .unused s.tmr.timers = true ∧
       (∀ y ∈ s.tmr.timers, y.2.endDue = false ∧ y.2.cmpDue0 = false ∧ y.2.cmpDue1 = false) ∧
       (u.timer 3).owned .porch = true ∧
       (u.timer 3).st = x ∧ u.frozen 3 = false ∧ (u.timer 3).capStamp ≠ some u.tb ∧
       (u.timer 3).queue.length < 4 ∧ (u.timer 3).owned (.engine 0) = false) ∧
    Alone (tim .unused) 3 ∧
    4 ≤ ((tim { Timer.unused with st := .running, queue := [0, 1, 2, 3] }).timer 3).queue.length := by
  refine ⟨by decide +kernel, ⟨by decide, by decide +kernel, fun _ => by decide +kernel⟩, by decide +kernel⟩

theorem witness_TimersCountAndEnd :
    (let u := tim { Timer.unused with st := .running }
     let t := u.timer 3
     u.pending = [] ∧ u.ticking = true ∧ u.tmr.timers = [(3, t)] ∧ t.casc = false ∧ t ≠ .unused ∧
       t.st = .running ∧ u.frozen 3 = false ∧ t.latched = false ∧ t.late = false ∧
       t.endDue = false ∧ t.cmpDue0 = false ∧ t.cmpDue1 = false ∧ t.count < t.period ∧
       t.phase < t.presc ∧ t.phase + 1 = t.presc ∧ u.pwr.off = false) ∧
    (let u := s0.setTimer 3 { Timer.unused with st := .running, cfg := 0x30000001, period := 2 }
     (u.timer 3).phase + 1 < (u.timer 3).presc) ∧
    (let u := tim { Timer.unused with st := .running, endDue := true, cmpDue0 := true, cmpDue1 := true }
     u.alive = true ∧ u.frozen 3 = false ∧ (u.timer 3).st = .running ∧
       Tab.ok .unused u.tmr.timers = true ∧ (u.timer 3).endDue = true ∧ (u.timer 3).cmpDue0 = true ∧
       (u.timer 3).cmpDue1 = true) ∧
    Alone (tim { Timer.unused with st := .running, endDue := true }) 3 := by
  refine ⟨by decide +kernel, by decide +kernel, by decide +kernel, by decide, by decide +kernel, fun _ => by decide +kernel⟩

theorem witness_CheckValueUnits :
    (∀ c ∈ [Cvu.fresh, { Cvu.fresh with alive := true }], let s := s0.setUnit 0 c
     s.unitOn 0 = true ∧ Tab.ok .fresh s.cvu = true ∧ (∀ k < 19, (s.unit k).due = false) ∧
       s.unit 0 = c ∧ c.upset = 0 ∧ (0 : Fin 19) ≠ 18 ∧ (s.unit 18).upset = 0 ∧ c.fault = false ∧
       (within24h c.stamps s.pwr.opsec).length < 2) ∧
    (let d := { Cvu.fresh with active := some 0, fault := true }
     d.active = some 0 ∧ d.fault = true) := by decide +kernel

theorem witness_CheckAlgorithmsAndTheirResult :
    (let c := { Cvu.fresh with poly := 0 }.init
     c.active = some 0 ∧ c.fault = false ∧ c.reg < 2 ^ (crcAlg 0).width) := by decide +kernel

theorem witness_HostReachesNoCheckUnit :
    0x40004 / 0x10000 = 4 ∧ 0x40004 % 4 = 0 ∧
    (let u := adm s0 h1 (observe 0x04 true)
     ad s0 h1 (observe 0x04 true) 1 = true ∧ u.inLoader = false) := by decide +kernel

/-- A recorder that holds `n` pending records and has dropped `k`. -/
def held (n k : Nat) : State :=
  { s0 with rcd := { s0.rcd with buf := List.replicate n clearRec, lost := k } }

theorem witness_FullBufferDropsRecords :
    (∀ s ∈ [s0, held 512 0, held 511 0, held 510 1], s.alive = true ∧ s.rcd.failed = none ∧
      (s.unit 18).upset = 0 ∧ Tab.ok .fresh s.cvu = true) ∧ 512 ≤ (held 512 0).rcd.buf.length ∧
    (held 511 0).rcd.buf.length < 512 ∧ (held 511 0).rcd.lost = 0 ∧
    (held 510 1).rcd.buf.length < 511 ∧ (held 510 1).rcd.lost ≠ 0 := by decide +kernel

/-! ### Witnesses: supplies, domains, references and start-up -/

/-- Start-up with nothing found. -/
def sound : StartOutcome :=
  { oscBad := [], regBad := [], roomsBad := [], roomsFixed := [], calBad := [], fxBad := false, engBad := [], cmpBad := [],
    ckmBad := [], mxBad := [], memBad := [], inBad := [], outBad := [], linksBad := [], fsBad := [], ppBad := [], portsBad := [], plost := false,
    cvuBad := [], convBad := [], slicesBad := [], storeCapMs := 500 }

/-- Table 12.4, Table 14.4: a matrix copy is out, an engine whose unit fails is retired, a failed output
comparator leaves its output FAULTED. -/
theorem test_startup_bad_parts :
    (let u := s0.step4 { sound with mxBad := [.a], cvuBad := [3] }
     u.mx .a = false ∧ u.mx .b = true ∧ (u.engine 3).st = .retired ∧ (u.engine 2).st = .spare) ∧
    (let u := s1.startField 0 { sound with outBad := [5] }
     (u.fout 5).cause = 10 ∧ (u.fout 6).cause = 0) := by decide +kernel

/-- The device with its power figures changed. -/
def pw (f : Pwr → Pwr) : State := { s0 with pwr := f s0.pwr }

/-- A supply that has gone. -/
def gone : Supply := { st := .under, volt := 0, runUnder := 0, runOver := 0, runGood := 0 }

theorem witness_SuppliesAndSwitchOff :
    (s0.alive = true ∧ s0.pwr.off = false ∧ s0.pwr.pfail = false ∧ (s0.supply .a).st = .ok ∧
      (18000 : Int) ≤ 24000 ∧ (24000 : Int) ≤ 30000) ∧
    (let u := pw fun p => { p with supA := { p.supA with st := .ok, runUnder := 10 }, supB := gone }
     u.alive = true ∧ u.pwr.off = false ∧ u.pwr.pfail = false ∧ (u.supply .a).st = .ok ∧
       10 ≤ (u.supply .a).runUnder ∧ u.supplyOk (otherSide .a) = false ∧ u.cfg.staged = none ∧
       u.cfg.load = none ∧ (-1000 : Int) ≤ 17999 ∧ (17999 : Int) < 18000) ∧
    (let u := pw fun p => { p with pfail := true, supA := gone, supB := gone }
     u.alive = true ∧ u.pwr.off = false ∧ u.pwr.pfail = true ∧ Tab.ok .ready u.pwr.doms = true ∧
       Tab.ok .fresh u.cvu = true) ∧
    (let u := at_ 1000000 (pw fun p => { p with off := true })
     u.alive = true ∧ u.pwr.off = true ∧ u.pwr.fieldFell = false ∧
       u.pwr.offAt + 1000000 ≤ u.now ∧ Tab.ok .ready u.pwr.doms = true) ∧
    (∀ c ∈ [(true, false, 8000000), (true, true, 6000000), (false, false, 0)], ∀ off : Bool,
      let u := at_ c.2.2 (pw fun p => { p with off := off, pfail := true, supA := gone, supB := gone,
                                               charged := c.1, weak := c.2.1, holdup := 300 })
      u.alive = true ∧ (u.pwr.off = true ∨ u.pwr.pfail = true) ∧ u.supplyOk .a = false ∧
        u.supplyOk .b = false ∧ (if u.pwr.off then u.pwr.offAt else u.pwr.failAt) +
          (if u.pwr.charged = false then 0 else if u.pwr.weak then 20000 * u.pwr.holdup else 8000000) ≤
            u.now ∧ u.pwr.fieldFell = false) := by decide +kernel

/-- The device in step `n` of start-up. -/
def step_ (n : Nat) : State := pw fun p => { p with step := n, result := 0 }

theorem witness_StartUpAndOperatingTime :
    (∀ n ∈ [1, 2, 3, 4, 5, 6, 7, 8, 9], let u := step_ n
     u.alive = true ∧ u.pwr.off = false ∧ u.pwr.step = n ∧ u.pwr.result = 0 ∧
       u.cfg.image = none ∧ u.cfg.staged = none ∧ Tab.ok .ready u.pwr.doms = true ∧
       u.nv.blows = [] ∧ u.fuseFault = false ∧
       (∀ q ∈ [Side.a, .b], u.isRetired (14 + sideNat q) = false ∧
         (u.unit (16 + sideNat q)).failed = false ∧ u.bankOk q = true ∧
         u.isRetired (8 + sideNat q) = false) ∧
       u.sea.imap = [] ∧ u.allRetired 2 = false ∧ u.allRetired 3 = false ∧ (u.dom 4).st = .on ∧
       (u.dom 5).st = .on ∧ Tab.ok .start u.sea.rooms = true ∧ Tab.ok .start u.eng.engines = true ∧
       Tab.get 0#32 u.fus.shadow 102 = 0 ∧ u.startable.2 = none ∧ u.fus.window = true ∧
       u.eng.ckmOut = [] ∧
       (∀ b ∈ [10, 11, 12, 13], u.isRetired b = false) ∧
       (∀ k ∈ [12, 13, 14, 15], (u.unit k).failed = false) ∧ u.discovered = true ∧
       u.willRun = false) ∧
    sound.oscBad = [] ∧ sound.regBad = [] ∧ sound.cvuBad = [] ∧
    (let u := { step_ 2 with nv := { s0.nv with blows := [{ word := 49, bit := 3, pending := true, advance := false, again := false, arose := 0 }] } }
     sound.plost = false ∧ ∀ x ∈ u.nv.blows, x.bit < 32) ∧
    (∀ k, k < 19 → (s0.unit k).due = false) ∧
    (let u := pw fun p => { p with opsec := 86400 }
     u.pwr.holdupAt + 86400 ≤ u.pwr.opsec ∧ u.pwr.off = false) ∧
    (let u := at_ 200000000 s0
     u.supplyOk .a = true ∧ u.pwr.opTick + 200000000 ≤ u.now) ∧
    (let u := at_ 200000000 (pw fun p => { p with supA := gone, supB := gone })
     u.supplyOk .a = false ∧ u.supplyOk .b = false ∧ u.pwr.opTick + 200000000 ≤ u.now) := by
  decide +kernel

/-- The device with image `m` and `fabP` in step 7, whose connection has had no frame; with instance 0
placed in step 8. -/
def inStep (n : Nat) (m : Image) : State :=
  { run m (step_ n) with eng := { s0.eng with insts := [(0, some ins0)] } }
def fab7 : FabricImg :=
  { fab0 with consumed := [{ uid := 5, conn := 2, dual := false, control := false, taintfs := false,
                             period := 1, plen := 1, n := 3, layout := 7, failsafe := [0] }] }

theorem witness_StartUpAndOperatingTime_run :
    (let u := inStep 7 { img0 with fabric := some fab7 }
     u.pwr.step = 7 ∧ u.discovered = false ∧ (at_ 70000000 u).discovered = true ∧
       u.cfg.image ≠ none) ∧
    (let u := inStep 8 img0
     u.pwr.step = 8 ∧ u.willRun = true ∧ u.pwr.off = false) ∧
    (let u := s1.chargeUnits.autoJoin
     (u.showAll.map Prod.fst).Nodup ∧ u.showAll ≠ [] ∧ Tab.ok FnShow.none u.svc.fns = true ∧
       9 ≤ u.pwr.step ∧ u.seqsIn ≠ 0 ∧ (step_ 3).chargeUnits.autoJoin.pwr.step < 9 ∧
       9 ≤ s0.chargeUnits.autoJoin.pwr.step ∧ s0.chargeUnits.autoJoin.cfg.image = none) := by
  decide +kernel

/-- The bytes of an image with its three mandatory sections, all zero, and their check values. -/
def section_ (type : Nat) (n : Nat) : List Byte :=
  let x := be16 type ++ [0, 0] ++ be32 n ++ be32 0
  x ++ be32 (crc32c (x ++ List.replicate n 0)) ++ List.replicate n 0
def fileBytes (seal_ : Byte) : List Byte :=
  let ss := section_ 1 32 ++ section_ 2 768 ++ section_ 3 792
  let hdr := [0x4B, 0x53, 0x43, 0x46, 1, 0, 0x96, 0x64, 0, 0, seal_, 1] ++ be32 1 ++
    be32 (128 + ss.length + 4) ++ be16 3 ++ be16 10 ++ List.replicate 104 0
  hdr ++ ss ++ be32 (crcOf 2#2 (hdr ++ ss))
def filed (code now : Byte) : State :=
  let bs := fileBytes code
  let v := (step_ 5).setSlot 0 { st := .running, mem := Memory.writeList [] 0 bs, len := bs.length }
  { v with cfg := { v.cfg with sealNow := now } }

set_option maxRecDepth 100000 in
theorem witness_StartUpAndOperatingTime_image :
    (filed 7 0).startable.2.map (fun m => m.hdr.sealCode) = some 7 ∧ (filed 7 0).cfg.staged = none ∧
    Tab.ok .empty (filed 7 0).nv.slots = true ∧ (filed 7 9).cfg.sealNow = 9 := by decide +kernel

/-- Domain 2 in the given state. -/
def dom2 (v : Domain) : State := s0.setDom 2 v

theorem witness_DomainsGoDownAndUp :
    (s0.alive = true ∧ Tab.ok .ready s0.pwr.doms = true ∧ s0.porchUp = true ∧
      s0.switchingBut 6 = false ∧ s0.migrating = false ∧ s0.pwr.pfail = false ∧
      s0.cfg.handover = none ∧
      s0.downWhy 6 = 0 ∧ (s0.dom 6).st = .on ∧ 2 ≤ (6#3 : BitVec 3).toNat ∧
      (6#3 : BitVec 3).toNat ≤ 6) ∧
    (let u := dom2 { Domain.ready with st := .offCmd }
     u.alive = true ∧ (u.dom 2).st = .offCmd ∧ u.switchingBut 2 = false ∧ u.cfg.handover = none) ∧
    (s0.setDom 5 { Domain.ready with st := .offFault }).downWhy 4 ≠ 0 ∧
    (∀ v ∈ [{ Domain.ready with st := .offRetired }, { Domain.ready with st := .offFault, held := true }],
      let u := dom2 v
      u.alive = true ∧ Tab.ok .ready u.pwr.doms = true ∧ u.porchUp = true ∧ u.switchingBut 2 = false ∧
        u.migrating = false ∧ u.pwr.pfail = false ∧ u.cfg.handover = none ∧
        ((u.dom 2).st = .offRetired ∨ ((u.dom 2).st = .offFault ∧ (u.dom 2).held = true))) ∧
    (dom2 { Domain.ready with st := .comingUp }).switchingBut 3 = true ∧
    (pw fun p => { p with pfail := true }).pwr.pfail = true ∧
    (∀ d : Fin 8, ((s0.setDom d.val { Domain.ready with st := .goingDown }).dom d.val).st = .goingDown) ∧
    (∀ d : Fin 8, let u := s0.setDom d.val { Domain.ready with st := .comingUp }
     (u.dom d.val).st = .comingUp ∧ u.alive = true ∧ Tab.ok .ready u.pwr.doms = true ∧
       u.fuseFault = false ∧ u.bankOk .a = true ∧ u.isRetired 14 = false ∧ u.isRetired 12 = false ∧
       u.sea.imap = [] ∧ u.cfg.staged = none ∧ Tab.ok .start u.sea.rooms = true ∧
       Tab.ok .start u.eng.engines = true ∧ u.pwr.osc.stopped = false ∧
       Tab.ok .start u.lnk.ports = true) ∧
    (s0.allRetired 2 = false ∧ s1.cfg.image = some img0 ∧ bitOf (nth img0.fieldCfg.ocfg 5 0) 31 = true) ∧
    (0 :: within24h [] 0).length = 1 ∧ 2 ≤ (0 :: within24h [0] 0).length ∧ (s0.dom 0).st = .on ∧
    (let u := dom2 { Domain.ready with st := .offFault, retryAt := some 0 }
     (u.dom 2).retryAt = some 0 ∧ 0 ≤ u.now ∧ (u.dom 2).st = .offFault ∧ (u.dom 2).held = false ∧
       u.pwr.off = false) := by decide +kernel

theorem witness_ReferencesOfTheTimebase :
    (s0.ticking = true ∧ s0.oscIn .a = true ∧ s0.oscIn .b = true ∧ s0.pwr.osc.holdover = none ∧
      s0.osc .b = .standby ∧ s0.osc .a = .selected ∧ s0.pwr.osc.woscLost = false) ∧
    (let u := pw fun p => { p with osc := { p.osc with holdover := some (.b, 0) } }
     u.ticking = true ∧ u.pwr.osc.holdover = some (.b, 0)) ∧
    (let u := pw fun p => { p with osc := { p.osc with woscLost := true } }
     u.ticking = true ∧ u.oscIn .a = true ∧ u.oscIn .b = true ∧ u.pwr.osc.holdover = none ∧
       u.pwr.osc.woscLost = true ∧ u.osc .b = .standby ∧ u.osc (otherSide .b) = .selected) ∧
    (∀ since ∈ [none, some 0], let u := at_ 2000000 (pw fun p => { p with
       osc := { p.osc with b := .lost, loneSince := since } })
     u.ticking = true ∧ u.oscIn .a = true ∧ u.oscIn (otherSide .a) = false ∧
       u.pwr.osc.woscLost = false ∧ u.pwr.osc.loneSince = since ∧ 0 + 2000000 ≤ u.tb) ∧
    (1000 : Int).natAbs ≤ 1000 ∧ 1000 < (1001 : Int).natAbs ∧ 5000 < (6000 : Int).natAbs ∧
    ((6000 : Int) - 5500).natAbs ≤ 1000 := by decide +kernel

/-! ### Witnesses: the logic sea -/

/-- The running device with image room 0 in physical room 0, which holds `v`. -/
def sea0 (v : Room) : State :=
  { s1 with sea := { s1.sea with imap := [(0, { IRoom.none with room := some 0 })], rooms := [(0, v)] } }
def room (st : RoomSt) (c : Cells) : Room := { Room.start with st := st, cells := c }
def running : Cells := startCells room0 0

theorem witness_RoomsEvaluateAndHold :
    (let u := at_ 200000 (sea0 (room .active running))
     u.evaluable 0 = some (0, 0, room0) ∧ Tab.ok .start u.sea.rooms = true ∧
       Tab.ok .none u.sea.imap = true ∧ (u.room 0).st ≠ .held ∧
       (u.irm 0).room = some 0 ∧ (u.room 0).differs = false ∧ u.takeDues.evalDue 0 0 room0 = true ∧
       (u.room 0).cells.loaded = true ∧ (u.room 0).cells.lastEval + 200000 ≤ u.tb) ∧
    (let u := sea0 { room .held { running with committed := true } with heldAs := .active }
     u.evaluable 0 = some (0, 0, room0) ∧ (u.room 0).st = .held ∧ (u.irm 0).mirror = none ∧
       (u.irm 0).building = none ∧ (u.room 0).cells.loaded = true ∧ u.cfg.staged = none ∧
       (u.irm 0).failedAt = none ∧ (u.room 0).cells.committed = true) ∧
    (let c := { running with dly := [(0, some 0)], ldDly := [(0, some 0)] }
     let u := at_ 600000 (sea0 (room .active c))
     u.evaluable 0 = some (0, 0, room0) ∧
       (room0.sites.find? fun y => y.site == 0) = room0.sites.head? ∧
       Tab.get none (u.room 0).cells.dly 0 = some 0 ∧ u.ticking = true ∧
       (0 / 200 + 1) * 200 + 3 * 200 ≤ u.tb ∧ (u.room 0).cells.expired.contains 0 = false ∧
       (room0.lds.find? fun y => y.unit == 0) = room0.lds.head? ∧
       Tab.get none (u.room 0).cells.ldDly 0 = some 0 ∧
       (0 / 200000 + 1) * 200000 + 2 * 200000 ≤ u.tb ∧
       (u.room 0).cells.expired.contains 1000 = false ∧
       s1.tb < (0 / 200 + 1) * 200 + 3 * 200) := by decide +kernel

/-- Image room 0 as `v` says, in the running device. -/
def seaI (v : IRoom) : State := { s1 with sea := { s1.sea with imap := [(0, v)] } }

theorem witness_RoomsAreRewrittenMirroredAndTested :
    (let u := seaI { IRoom.none with room := some 0, building := some (40, 0) }
     u.alive = true ∧ u.roomOn 40 = true ∧ u.part 40 = some (0, 2) ∧ (u.irm 0).built = false ∧
       (u.irm 0).room = some 0 ∧ (u.room 0).st ≠ .held) ∧
    (let u := seaI { IRoom.none with room := some 0, rewrite := some (7, 0), failedAt := some 0 }
     u.part 7 = some (0, 3) ∧ u.keyImg 0 = some room0 ∧ (u.room 7).cells.loaded = false) ∧
    (s0.part 9 = none ∧ (s0.room 9).st = .free ∧
      ((s0.setRoom 9 (room .failed .start)).room 9).st = .failed ∧
      (List.range 64).all fun r => decide ((s0.room r).st ≠ .testing)) ∧
    (let u := s0.setRoom 9 (room .testing .start)
     (u.room 9).st = .testing ∧ Tab.ok .start u.sea.rooms = true ∧ (u.room 9).afterFail = false ∧
       u.cfg.staged = none ∧ u.sea.imap = [] ∧ (u.room 9).spares < 5 ∧ 4 ≤ (u.room 9).spares) ∧
    (∀ tr ∈ [[], [0, 0]], let u := s0.setRoom 9 { room .testing .start with afterFail := true, trans := tr }
     (u.room 9).st = .testing ∧ Tab.ok .start u.sea.rooms = true ∧ (u.room 9).afterFail = true ∧
       u.roomOn 9 = true ∧ (u.room 9).trans = tr) ∧ (within24h [] 0).length < 2 ∧
    2 ≤ (within24h [0, 0] 0).length ∧
    (let u := at_ 200000 (seaI { IRoom.none with room := some 0, failedAt := some 0 })
     u.keyImg 0 = some room0 ∧ (u.irm 0).failedAt = some 0 ∧ (u.irm 0).demand = false ∧
       0 + ticksMs room0.hold ≤ u.tb ∧ (u.irm 64).failedAt = none ∧
       Tab.ok .none u.sea.imap = true) ∧
    (let v := { sea0 (room .active running) with lgc := { s1.lgc with ins :=
       [(0, { InForm.start with invalid := true, sagAt := some 0 })] } }
     let u := at_ 2000000 v
     u.evaluable 0 = some (0, 0, room0) ∧ (u.form 0).sagAt = some 0 ∧
       (u.form 0).invalid = true ∧ 0 + ticksMs 10 ≤ u.tb) ∧
    (s0.powered (seaDom .a) = true ∧ s0.powered (seaDom .b) = true ∧
      s0.powered (engDom .a) = true ∧ s0.powered (engDom .b) = true) := by decide +kernel

/-! ### Witnesses: inputs, outputs, links and converters -/

/-- The running device with one terminal, one input and one counter of sequencer A as given. -/
def term0 (v : Term) : State := s1.setTerm .a 0 v
def inp0 (v : SeqIn) : State := s1.setInp .a 0 v

theorem witness_InputsAreFilteredDebouncedAndCounted :
    (s1.fieldOn = true ∧ Tab.ok .low s1.fld.terms = true) ∧
    (let u := at_ 400 (term0 { Term.low with level := true })
     u.lives .a = true ∧ (u.term .a 0).level ≠ (u.term .a 0).filt ∧
       (u.term .a 0).since + 400 ≤ u.tb ∧ Tab.ok .low u.fld.terms = true ∧
       s1.tb < (s1.term .a 0).since + 400) ∧
    (let m := { img0 with icfg := List.replicate 192 5 }
     let u := at_ 1000 ((run m s1).setInp .a 0 { SeqIn.start with judged := true })
     u.lives .a = true ∧ u.inUse 0 = true ∧ Tab.ok .start u.fld.ins = true ∧
       (u.inp .a 0).cause = 0 ∧ (u.inp .a 0).judged ≠ (u.inp .a 0).deb ∧
       (u.inp .a 0).judgedAt / 200 + u.debounceUs 0 ≤ u.tb / 200 ∧
       s1.tb / 200 < (u.inp .a 0).judgedAt / 200 + u.debounceUs 0) ∧
    (let m := { img0 with icfg := List.replicate 192 0x80000000 }
     let u := at_ 400 ((run m s1).setInp .a 0 { SeqIn.start with judged := true })
     u.inUse 0 = true ∧ bf (u.icfg 0) 31 30 = 2 ∧ (u.inp .a 0).open_ = true ∧
       (u.inp .a 0).judged = true ∧ (u.term .a 0).filt = false ∧
       (u.term .a 0).filtAt + 400 + ticksUs (bf (u.icfg 0) 25 16) ≤ u.tb) ∧
    (s1.lives .a = true ∧ Tab.ok .start s1.fld.cnts = true ∧ s1.cntMode 0 = 3 ∧
      (s1.fcnt .a 0).gateAt + ticksMs (bf (s1.ccfg 0) 31 16) ≤ s1.tb ∧ s1.cntMode 1 = 4 ∧
      (at_ 400 s1).lives .a = true ∧ (at_ 400 s1).cntMode 1 = 4 ∧
      (s1.fcnt .a 1).riseAt.getD (s1.fcnt .a 1).gateAt + ticksMs (bf (s1.ccfg 1) 31 16) + 400 ≤ (at_ 400 s1).tb) ∧
    (let u := at_ 4000000 { s1 with lgc := { s1.lgc with ins := [(0, { InForm.start with diffAt := some 0 })] } }
     0 ∈ u.inputsOf ∧ Tab.ok .start u.lgc.ins = true ∧ u.lgc.inBad.contains 0 = false ∧
       (u.form 0).diffAt = some 0 ∧
       (u.form 0).disagree = false ∧ 0 + 4000000 ≤ u.tb) ∧
    (let u := at_ 20000000 { s1 with lgc := { s1.lgc with ins :=
       [(0, { InForm.start with agreeAt := some 0, disagree := true })] } }
     (u.form 0).agreeAt = some 0 ∧ (u.form 0).disagree = true ∧ 0 + 20000000 ≤ u.tb) := by
  decide +kernel

/-- The running device with output 5 as given. -/
def out5 (v : FOut) : State := s1.setFout 5 v
def onOut : FOut := { FOut.start with phase := .load, img := true }

theorem witness_OutputFaultsOpenTheSwitches :
    (let u := out5 onOut
     u.fieldOn = true ∧ Tab.ok .start u.fld.outs = true ∧ (u.fout 5).retest = none ∧ (u.fout 5).cause = 0 ∧ u.single 5 = false) ∧
    (let u := at_ 1 (out5 { onOut with cause := 8 })
     (u.fout 5).cause ≠ 0 ∧ (u.fout 5).faultAt < u.tb) ∧
    (let u := at_ 4000000 (out5 { onOut with disP := some 0 })
     (u.fout 5).disP = some 0 ∧ u.lives .a = true ∧ u.lives .b = true ∧ (u.fout 5).cause = 0 ∧
       (u.fout 5).retest = none ∧ u.fieldOn = true ∧ 0 + 4000000 ≤ u.tb ∧ s1.tb < 0 + 4000000) ∧
    (let u := at_ 200001 (out5 onOut)
     u.fld.accepted = some 0 ∧ u.fld.silent = none ∧ u.lives .a = true ∧
       u.pwr.osc.stopped = false ∧ 0 + u.silenceTicks < u.tb ∧ s1.tb ≤ 0 + u.silenceTicks ∧
       u.outHold 5 = false ∧ (u.fout 5).phase = .load ∧ (u.fout 5).pulse ≠ .dark ∧
       (u.fout 5).pulse ≠ .lsDark ∧ (u.fout 5).cause = 0 ∧ (u.fout 5).retest = none) ∧
    (let m := { img0 with ocfg := List.replicate 64 0xA0000001 }
     let v := run m (out5 onOut)
     let u := at_ 2000000 { v with fld := { v.fld with silent := some 0 } }
     u.fld.silent = some 0 ∧ u.outHold 5 = true ∧ Tab.ok .start u.fld.outs = true ∧
       (u.fout 5).silOpen = false ∧ u.lives .a = true ∧
       0 + ticksMs (10 * bf (u.ocfg 5) 9 0) ≤ u.tb ∧ (u.fout 5).cause = 0 ∧
       (u.fout 5).phase = .load ∧ (u.fout 5).pulse = .none) ∧
    (let u := at_ 20000 (s1.setSeq .a { Seq.start with st := .stopped 0 })
     u.fld.seqA.st = .stopped 0 ∧ 0 + 20000 ≤ u.tb ∧ u.lives .b = true ∧
       u.fld.seqB.solo = false ∧ Tab.ok .start u.fld.outs = true) ∧
    (let r : Retest := { frame := 0, bad := 0, aborted := false }
     let v := out5 { FOut.start with cause := 8, retest := some r }
     let u := { v with fld := { v.fld with frame := 3 } }
     u.lives .a = true ∧ Tab.ok .start u.fld.outs = true ∧ Tab.ok [] u.lgc.orst = true ∧
       (u.fout 5).retest = some r ∧ r.aborted = false ∧ r.frame + 3 ≤ u.fld.frame ∧ v.fld.frame < r.frame + 3) := by
  decide +kernel

theorem witness_PulsesSuppliesAndSequencers :
    (s1.fieldOn = true ∧ s1.fld.pulseCfg = s1.fld.cfg ∧ s1.tb / s1.fld.cfg.period = s1.fld.frame ∧
      (at_ 3200000 s1).tb / s1.fld.cfg.period ≠ s1.fld.frame) ∧
    (let u := at_ 3200000 (out5 onOut)
     let x := fun pt => u.fld.frame * u.fld.pulseCfg.period + u.fld.pulseCfg.pointOff 5 pt
     u.lives .a = true ∧ Tab.ok .start u.fld.outs = true ∧ u.pwr.osc.stopped = false ∧
       (u.fout 5).lastPt < x .b ∧ (u.fout 5).lastPt < x .e ∧ x .e + 400 ≤ u.tb ∧
       x .b ≤ u.tb ∧ (u.fout 5).retest = none ∧ s1.tb < x .b) ∧
    (let u := out5 { onOut with lastPt := 6400000 }
     let x := fun pt => u.fld.frame * u.fld.pulseCfg.period + u.fld.pulseCfg.pointOff 5 pt
     ∀ pt ∈ [PulsePoint.b, .b30, .e, .e30], x pt ≤ (u.fout 5).lastPt ∧ x pt < u.fld.pulseCfg.period ∧
       x pt + 400 ≤ (at_ 6400000 u).tb ∧ u.tb < x pt + (if pt = .b30 ∨ pt = .e30 then 400 else 0)) ∧
    (s1.lives .a = true ∧ Tab.ok .start s1.fld.groups = true ∧ (s1.grp .a 0).lastAt = none ∧
      (s1.grp .a 0).st = .normal ∧ s1.fld.cfg.gthr = 0xC0A0 ∧
      ((s1.setGrp .a 0 { SeqGroup.start with lastAt := some 0 }).grp .a 0).lastAt = some 0) ∧
    2 ≤ ({ SeqGroup.start with runRev := 2 }).runRev ∧
    (let u := run { img0 with ocfg := List.replicate 64 0x90000000 } s1
     (u.fout 5).lineA.lastAt = none ∧
     (∀ n ∈ [1999, 2000], let v := at_ n (u.setFout 5 { u.fout 5 with lineA := { (u.fout 5).lineA with lastAt := some 0 } })
       v.lives .a = true ∧ (v.fout 5).phase = .idle ∧ v.outLsense 5 = true ∧ v.single 5 = false ∧
         v.fld.pulseCfg.slotOf v.tb ≠ 5 ∧ (v.fout 5).lineA.lastAt = some 0) ∧
     u.lives .a = true ∧ (u.fout 5).phase = .idle ∧ u.outLsense 5 = true ∧ u.single 5 = false ∧
       u.fld.pulseCfg.slotOf u.tb ≠ 5) ∧
    (Tab.get .start s1.fld.sums 0).excess = decide (600 < 500) ∧
    (let u := at_ 2000 (s1.setSeq .b { Seq.start with st := .stopped 0 })
     u.lives .a = true ∧ (u.seq (otherSide .a)).st = .stopped 0 ∧ 0 + 2000 ≤ u.tb) := by
  decide +kernel

/-- A result of channel 0, alone in a block on link A. -/
def ent0 : Entry :=
  { ch := 0, ow := false, oob := false, urgent := false, value := 5, seq := 0, tick := 0, raw := 5,
    sat := false, judged := false, fire := false, brk := false, slices := 3, phase := 0 }
def fly0 : Flight :=
  { conv := 0, blk := { fire := false, slices := 2, phase := 0, entries := [ent0] }, begun := false }
def flying : State := { s1 with cnv := { s1.cnv with flyA := [fly0] } }

theorem witness_LinkFramesAreLaunchedAndJudged :
    ((at_ 1 s1).tb % 2000 ≠ 0 ∧ s1.ticking = true ∧ s1.tb % 2000 = 0 ∧
      s1.lgc.upAt ≠ some s1.tb ∧ s1.lgc.downAt ≠ some s1.tb ∧
      (∀ q ∈ [Side.a, .b], (s1.link q).due = none ∧ (s1.link q).retired = false ∧
        (s1.seq q).selfFault = false ∧ s1.mx q = true) ∧ Tab.ok .start s1.fld.ins = true ∧
      s1.pwr.off = false ∧ 6 ≤ s1.pwr.step ∧ s1.cfg.staged = none) ∧
    (let u := after .uplinkLaunch s1
     (u.link .a).up.map Up.tick = some 0 ∧ u.tb ≤ 0 + 1000 ∧ 0 + 1000 < (at_ 1001 u).tb ∧
       u.mx .a = true ∧ (u.link .a).st ≠ .faulty ∧ (u.link .a).due = some 0 ∧
       (u.link .a).retired = false ∧ (u.unit (12 + 2 * sideNat .a)).due = false ∧
       0 + 1000 ≤ (at_ 1001 u).tb ∧ u.alive = true) ∧
    (let u := after .downlinkFrame s1
     (u.link .a).down.map Down.tb = some 0 ∧ u.tb ≤ 0 + 1000 ∧ u.lives .a = true ∧
       (u.link .a).down.map Down.spoiled = some false ∧ (at_ 1001 u).tb = 1001) ∧
    (s1.cfg.image = some img0 ∧ 9 ≤ s1.pwr.step) ∧
    (let u := { s1 with cfg := { s1.cfg with staged := some img0 } }
     u.cfg.staged = some img0 ∧ u.lives .a = true ∧ u.mx .a = true) ∧
    (nextBlock flying.cnv.flyA = some 0 ∧ nextBlock flying.cnv.flyA ≠ some 1 ∧
      takeFlight 0 flying.cnv.flyA = some (fly0, []) ∧ flying.mx .a = true ∧
      (flying.link .a).st ≠ .faulty ∧ (flying.link .a).retired = false ∧
      fly0.got flying.tb [] = some fly0.blk ∧ fly0.got flying.tb [0, 0, 0, 0, 1] = none ∧
      (flying.cnv.heldB.find? fun h => h.of fly0) = none ∧ flying.memIn .a = true ∧
      flying.lives .a = true ∧ fly0.blk.entries = [ent0] ∧ fly0.blk.fire = false ∧
      Tab.ok .start flying.cnv.chans = true ∧ Tab.ok .start flying.cnv.bufA = true) := by decide +kernel

theorem witness_LinkFramesAreLaunchedAndJudged_fire :
    (let f := { fly0 with blk := { fly0.blk with fire := true } }
     let u := { s1 with cnv := { s1.cnv with flyA := [f] } }
     nextBlock u.cnv.flyA = some 0 ∧ takeFlight 0 u.cnv.flyA = some (f, []) ∧ u.mx .a = true ∧
       u.lives .a = true ∧ f.got u.tb [] = some f.blk ∧
       (u.cnv.heldB.find? fun h => h.of f) = none ∧ f.blk.entries = [ent0] ∧ f.blk.fire = true) ∧
    UnitClean (after .uplinkLaunch s1) (13 + 2 * sideNat .a) :=
  ⟨by decide +kernel, by unfold UnitClean; decide +kernel⟩

/-- An image with trigger 0 on input 0, whose mask opens output 5; a frame of link A reports that it
fired. -/
def imgT : Image :=
  { img0 with trigs := [{ word := 0, thr := 0, sense := 1 }], ocfg := List.replicate 64 0x88000000 }
def fired : State :=
  let u := run imgT s0
  after .uplinkLaunch { u with
    fld := { u.fld with trigA := 1 }
    eng := { u.eng with masks := [(0, { Mask.zero with mask := 0x20 })] } }

theorem witness_LinkFramesAreLaunchedAndJudged_trip :
    (fired.link .a).up.map (fun f => f.trig.getLsbD 0) = some true ∧
    (fired.link .a).up.map Up.tick = some 0 ∧ fired.tb ≤ 0 + 1000 ∧ fired.mx .a = true ∧
    fired.mx .b = true ∧ (fired.link .a).retired = false ∧ (fired.link .a).st ≠ .faulty ∧
    UnitClean fired (13 + 2 * sideNat .a) ∧ (fired.unit (12 + 2 * sideNat .a)).due = false ∧
    fired.lastUp (otherSide .a) = none ∧ Tab.ok .zero fired.eng.masks = true ∧
    fired.cfg.image = some imgT ∧ bf (0 : Word) 31 28 ≠ 2 ∧ (fired.maskNow 0).getLsbD 5 = true ∧
    bitOf (imgT.ow 5) 27 = true := by
  unfold UnitClean; decide +kernel

/-- Converter 0 as given, in the running device. -/
def cv0 (v : Cnv1) : State := s1.setConv 0 v
def conv1 (diag : Bool) : Conv :=
  { slice := 0, ch := 0, diag := diag, kind := .list 0, started := 0, brk := false, slices := 3,
    phase := 0 }

theorem witness_ConvertersSampleAndCheck :
    (let u := at_ 33 (cv0 { Cnv1.start with startAt := some 0 })
     u.convImg 0 = some conv0 ∧ u.fieldOn = true ∧ convMode conv0 = 1 ∧
       (u.conv 0).failed = false ∧ (u.conv 0).retired = [] ∧ (u.conv 0).heldBack = false ∧
       (u.conv 0).urgent = [] ∧ (u.conv 0).release = false ∧ (u.conv 0).run = [] ∧
       (u.conv 0).startAt = some 0 ∧ Tab.ok .start u.cnv.convs = true ∧ 0 + nth [33, 33, 34] (0 % 3) 33 ≤ u.tb ∧
       s1.tb < 0 + nth [33, 33, 34] (0 % 3) 33) ∧
    (∀ b : Bool, let u := at_ 10 (cv0 { Cnv1.start with run := [conv1 b] })
     (u.conv 0).run = conv1 b :: [] ∧ (conv1 b).started + 10 ≤ u.tb ∧
       (u.conv 0).failed = false ∧ (conv1 b).diag = b ∧ Tab.ok .start u.cnv.convs = true ∧
       Tab.ok .start u.cnv.chans = true ∧ (u.chImg 0).confirm = false ∧ u.fieldOn = true ∧
       s1.tb < (conv1 b).started + 10) ∧
    (Option.map coefOk none).getD true = true ∧ coefOk (0, 0, 0) = false ∧
    (let u := at_ 300 (cv0 { Cnv1.start with form := [ent0] })
     (u.conv 0).form = [ent0] ∧ u.fieldOn = true ∧ Tab.ok .start u.cnv.convs = true ∧ ent0.tick + 300 ≤ u.tb ∧ (u.conv 0).waitA = false ∧
       (u.conv 0).waitB = false ∧ s1.tb < ent0.tick + 300) ∧
    (∀ w : Bool, let u := cv0 { Cnv1.start with waitA := w }
     (u.conv 0).waitA = w ∧ (u.conv 0).heldBack = false ∧ u.fieldOn = true ∧
       u.mayBegin 0 .a w = !w ∧ u.mayBegin 0 .b false = true) ∧
    (∀ h : Bool, ∀ fm ∈ [[], [ent0]], let v := cv0 { Cnv1.start with waitA := true, heldBack := h, form := fm }
     let u := { v with cnv := { v.cnv with flyA := [fly0] } }
     u.mayBegin 0 .a (u.conv 0).waitA = true ∧ u.mayBegin 0 .b (u.conv 0).waitB = true ∧
       (u.conv 0).heldBack = h ∧ Tab.ok .start u.cnv.convs = true ∧ (u.conv 0).form = fm ∧
       u.lives .a = true ∧ u.fieldOn = true) ∧
    (s1.conv 0).refAt = none ∧ (s1.conv 0).failed = false ∧ (s1.chan 1).lastAt = none ∧
    (let u := at_ 1 (s1.setChan 0 { Chan.start with lastAt := some 0 })
     (u.chan 0).lastAt = some 0 ∧ 0 + ticksUs (10 * (u.chImg 0).maxage) < u.tb ∧
       s1.tb ≤ 0 + ticksUs (10 * (u.chImg 0).maxage)) := by decide +kernel

theorem witness_ConvertersSampleAndCheck_urgent :
    (∀ n ∈ [4, 5], let u := at_ n (cv0 { Cnv1.start with urgent := [(1, false), (2, true)], urgFrom := 5, run := [conv1 false] })
     u.convImg 0 = some conv0 ∧ u.fieldOn = true ∧ convMode conv0 ≠ 0 ∧ convMode conv0 ≠ 2 ∧
       (u.conv 0).failed = false ∧ (u.conv 0).retired.contains 2 = false ∧
       (u.conv 0).heldBack = false ∧ Tab.ok .start u.cnv.convs = true ∧ (u.conv 0).urgFrom = 5 ∧
       (u.conv 0).urgent = [(1, false), (2, true)] ∧ (u.conv 0).startAt ≠ some u.tb ∧
       (u.conv 0).abortable u.tb = some (conv1 false) ∧
       (∀ x ∈ (u.conv 0).run.filter (fun x => decide (some (conv1 false) ≠ some x)),
         x.slice ≠ (conv1 false).slice) ∧ (conv1 false).kind = .list 0) ∧
    (let u := cv0 { Cnv1.start with urgent := [(1, true)], startAt := some 0 }
     (u.conv 0).startAt = some u.tb) ∧
    (∀ b : Bool, ∀ l ∈ [[], [(1, false)]],
     let u := (run { img0 with convs := [convT] } s0).setConv 0 { Cnv1.start with release := b, urgent := l }
     u.convImg 0 = some convT ∧ convMode convT = 2 ∧ bitOf (nth convT.list (u.conv 0).next 0) 4 = true ∧
       u.fieldOn = true ∧ (u.conv 0).failed = false ∧ (u.conv 0).retired.contains 2 = false ∧
       (u.conv 0).heldBack = false ∧ Tab.ok .start u.cnv.convs = true ∧ (u.conv 0).release = b ∧
       (u.conv 0).urgent = l ∧ ∀ x ∈ (u.conv 0).run, x.slice ≠ 2) := by decide +kernel

/-- Channel 0 with a band of 10 to 20, with or without CONFIRM. -/
def banded (confirm : Bool) (ch : Chan) (k : Conv) : State :=
  let c : ChImg := { cfg := if confirm then 0x10000000 else 0, band := 0x0014000A, par := 0 }
  let u := run { img0 with convs := [{ conv0 with chans := [c] }] } s0
  at_ 10 ((u.setConv 0 { Cnv1.start with run := [k] }).setChan 0 ch)
def low : Sample := { sig := 0, coef := none }

theorem witness_ConvertersSampleAndCheck_outside :
    (∀ b : Bool, ∀ k ∈ [conv1 false, { conv1 false with kind := .recheck }],
     let u := banded b { Chan.start with unconf := decide (k.kind = .recheck) } k
     let i := u.chImg 0
     let v := (u.calAt 0 10).apply (resultCode low i.range) (saturated low i.range)
     (u.conv 0).run = k :: [] ∧ k.started + 10 ≤ u.tb ∧ u.fieldOn = true ∧
       (u.conv 0).failed = false ∧ (low.coef.map coefOk).getD true = true ∧ k.diag = false ∧
       i.confirm = b ∧ (u.chan 0).outside = false ∧ i.inside v = false ∧ (u.conv 0).form = [] ∧
       (u.conv 0).waitA = false ∧ (u.conv 0).waitB = false ∧ u.lives .a = true ∧
       Tab.ok .start u.cnv.convs = true ∧ Tab.ok .start u.cnv.chans = true ∧
       (u.chan 0).unconf = decide (k.kind = .recheck)) ∧
    ((banded true .start (conv1 false)).chImg 0).inside 15 = true := by decide +kernel

/-! ### Witnesses: the Renig link -/

def port0 (v : Port) : State := s1.setPort 0 v
def greeting : List Byte := mkFrame 3 1 48 0x3FFF 0x104 false (be64 5 ++ be16 0x104 ++ [0, 0] ++ be32 0 ++ be64 0 ++ be32 0 ++ be32 0 ++ be32 0)
def lsa5 : Lsa :=
  { uid := 5, addr := 0x104, seq := 1, master := false, standby := false, taint := false, links := [],
    lastAt := 0 }
def lsaFrame : List Byte := mkFrame 1 2 48 0x3FFF 0x104 false lsa5.bytes
/-- The same at the end of its way, and one of another fabric. -/
def lsaLast : List Byte := mkFrame 1 2 1 0x3FFF 0x104 false lsa5.bytes
def lsaFar : List Byte := mkFrame 1 2 48 0x3FFF 0x204 false { lsa5 with addr := 0x204 }.bytes

set_option maxRecDepth 10000 in
theorem witness_GreetingsAndTopology :
    (let u := port0 { Port.start with st := .down, run := 1 }
     Tab.ok .start u.lnk.ports = true ∧ u.portLive 0 = true ∧ (u.port 0).sentAt = none ∧
       (u.port 0).busyTo ≤ u.tb ∧ u.ticking = true ∧ readFrame [] = none ∧
       ((readFrame greeting).map fun x => decide (x.cls = 3 ∧ x.kind = 1 ∧ x.body.length = 36) &&
         numAt x.body 16 8 == u.uid && decide (numAt x.body 0 8 ∉ u.nv.expel) &&
         decide (Port.delay { u.port 0 with delays := (helloDelay (u.tb % 2 ^ 32) (numAt x.body 28 4) (numAt x.body 32 4) :: (u.port 0).delays).take 16 } ≤ 200)) = some true) ∧
    (let u := port0 { Port.start with st := .up, busyTo := 9 }
     u.portLive 0 = true ∧ (u.port 0).sentAt = none ∧ u.ticking = true ∧ u.tb < (u.port 0).busyTo ∧
       (u.port 0).safeQ.length < 32) ∧
    (let u := port0 { Port.start with st := .up, helloAt := some 0, sentAt := some 0 }
     u.portLive 0 = true ∧ (u.port 0).sentAt = some 0 ∧ u.tb < 0 + 200000 ∧
       (u.port 0).helloAt = some 0 ∧ u.tb < 0 + 700000 ∧ 0 + 700000 ≤ (at_ 700000 u).tb) ∧
    (let u := port0 { Port.start with st := .up, winAt := 7 }
     ((readFrame lsaFrame).map fun x => decide (x.cls = 1 ∧ x.kind = 2 ∧
       readLsa x.body u.tb = some lsa5)) = some true ∧ u.portRole 0 = 1 ∧ lsa5.uid ≠ u.uid ∧
       lsa5.addr < 32768 ∧ Tab.ok .start u.lnk.ports = true ∧
       lsa5.uid ∉ u.nv.expel ∧ (u.lnk.db.find? fun y => y.uid == lsa5.uid) = none ∧
       u.tb % 50000 = 0 ∧ (u.port 0).winAt ≠ u.tb ∧ (at_ 1 u).tb % 50000 ≠ 0) ∧
    (([lsa5].find? fun y => y.uid == 5) = some lsa5 ∧ seqNewer 1 lsa5.seq = false) ∧
    (let u := (port0 { Port.start with st := .up })
     let v := { u with lnk := { u.lnk with lsaDue := true } }
     v.linkOn = true ∧ v.ownAddr.isSome = true ∧ v.lnk.lsaDue = true ∧ v.role = 0 ∧
       v.upPorts 1 = [0] ∧ (v.port 0).busyTo ≤ v.tb) ∧
    (let u := at_ 700000000 { s1 with lnk := { s1.lnk with db := [lsa5] } }
     u.linkOn = true ∧ lsa5 ∈ u.lnk.db ∧ lsa5.uid = (5#64 : Long).toNat ∧
       lsa5.lastAt + 700000000 ≤ u.tb) ∧
    (s1.lnk.routeDue = none ∧ s1.routesDue.lnk.routeDue.isSome = true ∧ s1.cfg.staged = none ∧
      s1.fab = some fab0 ∧ Tab.ok .start s1.lnk.prod = true) := by decide +kernel

theorem witness_GreetingsAndTopology_flood :
    (let u := (port0 { Port.start with st := .up }).setPort 1 { Port.start with st := .up }
     (∀ p, p < 4 → UnitClean u (8 + p)) ∧ u.fab = some fab0 ∧ lsa5.addr / 256 = fab0.fabric ∧
       u.ownAddr.isSome = true ∧ (u.upPorts 1).filter (fun q => q != 0) = [1] ∧
       (u.port 1).busyTo ≤ u.tb ∧
       ((readFrame lsaFrame).map fun x => decide (1 < x.ttl)) = some true ∧
       ((readFrame lsaLast).map fun x => decide (x.cls = 1 ∧ x.kind = 2 ∧ x.ttl ≤ 1 ∧
         readLsa x.body u.tb = some lsa5)) = some true ∧
       ((readFrame lsaFar).map fun x => decide (x.cls = 1 ∧ x.kind = 2 ∧
         readLsa x.body u.tb = some { lsa5 with addr := 0x204 } ∧ 0x204 / 256 ≠ fab0.fabric)) =
         some true) := by
  unfold UnitClean; decide +kernel

/-- A device that produces connection 1 for UID 5 and consumes connection 2 of UID 5; the third is
a control connection. -/
def fabP : FabricImg :=
  { fab0 with produced := [{ conn := 1, dual := false, control := false, period := 1, plen := 1, layout := 7, consumers := [5], sources := [] }],
              consumed := [{ uid := 5, conn := 2, dual := false, control := false, taintfs := false, period := 1, plen := 1, n := 3, layout := 7, failsafe := [0] }] }
def fabC : FabricImg :=
  { fab0 with consumed := [{ uid := 5, conn := 3, dual := false, control := true, taintfs := false, period := 1, plen := 1, n := 3, layout := 7, failsafe := [0] }] }
def linked (f : FabricImg) : State :=
  let u := (run { img0 with fabric := some f } s0).setPort 0 { Port.start with st := .up }
  { u with lnk := { u.lnk with prod := [(0, { Prod.start with routes := [[{ rt := false, legs := [[0], [0]] }]] })],
                               cons := [(0, { Cons.start with st := .live, alive := some 4, lastAt := some 0 })] } }
/-- A copy of connection 2 with ALIVE 5 at its destination: its body before the check value. -/
def copyBody : List Byte := sdataHead false 0 1 [0] 1 false 0 ++ [2, 1, 0, 7, 0, 5, 0xAA]
def copyFrame (dst : Nat) (b : List Byte) : List Byte :=
  mkFrame 0 1 48 dst 0x104 false (b ++ be32 (scrc dst 0x104 b))
def onward : List Byte := sdataHead false 0 1 [0, 0] 1 false 0 ++ [2, 1, 0, 7, 0, 5, 0xAA]

/-- What the statement asks of a frame that port 0 takes in. -/
def taken (u : State) (f : List Byte) (p : Frame → Bool) : Bool :=
  ((readFrame f).map fun x => u.portLive 0 && u.admits 0 x && p x) == some true

set_option maxRecDepth 10000 in
theorem witness_ConnectionsCarryTheirValues :
    (let u := linked fabP
     u.fab = some fabP ∧ u.cfg.handover = none ∧ u.ownAddr = some 0x103 ∧ fabP.produced[0]?.isSome = true ∧
       u.tb % (1 * 50000) = 0 ∧ (at_ 1 u).tb % (1 * 50000) ≠ 0 ∧ u.linkOn = true ∧
       u.ticking = true ∧ 7 ≤ u.pwr.step ∧ (Tab.get Prod.start u.lnk.prod 0).lastAt ≠ some u.tb ∧
       Tab.ok .start u.lnk.prod = true ∧ Tab.ok .start u.lnk.ports = true ∧
       nth (Tab.get Prod.start u.lnk.prod 0).routes 0 [] = [{ rt := false, legs := [[0], [0]] }] ∧
       u.addrFor 5 = some 0x104 ∧ (u.port 0).st = .up ∧ (u.port 0).busyTo ≤ u.tb) ∧
    (let u := linked fabP
     taken u (copyFrame 0x103 copyBody) (fun x =>
       decide (x.cls = 0 ∧ x.kind = 1 ∧ 20 ≤ x.body.length ∧ some x.dst = u.ownAddr ∧
         byteAt x.body 1 % 32 ≤ byteAt x.body 0 % 32 ∧ byteAt x.body 10 = 2 ∧
         some (x.src / 256 % 64) = u.fab.map FabricImg.fabric ∧ u.uidAt x.src = some 5 ∧
         byteAt x.body 11 = 1 ∧ numAt x.body 12 2 = 7 ∧ x.body.length = 20 + 1 ∧
         numAt x.body (16 + 1) 4 = scrc x.dst x.src x.body ∧
         numAt x.body 8 2 + (u.port 0).delay / 2 ≤ 1500 * byteAt x.body 6 ∧
         (u.memberAt x.src = true ∨ ∀ l ∈ u.lnk.db, l.addr ≠ x.src) ∧ numAt x.body 14 2 = 5 ∧
         byteAt x.body 7 < 128 ∧ x.taint = false)) = true ∧
       u.cfg.staged = none ∧ (u.consList false).map (fun e => (e.1, e.2.conn)) = [(0, 2)] ∧
       5 ∉ u.nv.expel ∧ Tab.ok .start u.lnk.cons = true ∧ (u.cons 0).st = .live ∧
       (u.cons 0).alive = some 4 ∧ (5 + 65536 - 4) % 65536 ≤ 3 ∧ 1 ≤ (5 + 65536 - 4) % 65536) ∧
    taken (linked fabP) (copyFrame 0x105 onward) (fun x =>
      decide (byteAt x.body 0 % 32 < byteAt x.body 1 % 32 ∧ byteAt x.body 1 % 32 ≤ 16 ∧ 1 < x.ttl)) =
        true ∧
    (let u := linked fabC
     taken u (mkFrame 1 0x10 48 0x103 0x104 false [4, 0, 3, 1, 9]) (fun x =>
       decide (x.cls = 1 ∧ x.kind = 0x10 ∧ x.body.length = 4 + byteAt x.body 3 ∧
         1 ≤ byteAt x.body 3 ∧ byteAt x.body 3 ≤ 100 ∧ 1000 < numAt x.body 0 2)) = true ∧
     taken u (mkFrame 1 0x10 48 0x103 0x104 false [0, 0, 3, 1, 9]) (fun x =>
       decide (numAt x.body 0 2 ≤ 1000 ∧ some x.dst = u.ownAddr) &&
         (u.consList false).all fun e => e.2.control && e.2.conn == byteAt x.body 2 &&
           u.ctlAddr e.2.uid.toNat == some x.src && e.2.plen == byteAt x.body 3 &&
           (match u.holder x.src with | some n => u.feeds n e.2 | none => true)) = true ∧
     (u.consList false).length = 1 ∧ Tab.ok .none u.lnk.control = true ∧ u.cfg.staged = none ∧
     taken u (mkFrame 2 0x20 48 0x103 0x104 false [0, 1, 1, 0, 9]) (fun x =>
       decide (x.cls = 2 ∧ x.kind = 0x20 ∧ x.body.length = 4 + byteAt x.body 2 ∧
         some x.dst = u.ownAddr)) = true ∧
     taken u (mkFrame 2 0x20 48 0x203 0x104 false [0, 1, 1, 0, 9]) (fun x =>
       decide (some x.dst ≠ u.ownAddr ∧
         some (x.dst / 256 % 64) ≠ u.fab.map FabricImg.fabric)) = true) ∧
    (let u := at_ 150001 (linked fabP)
     u.alive = true ∧ Tab.ok .start u.lnk.cons = true ∧ u.cfg.staged = none ∧ (u.consImg false 0).map ConsImg.control = some false ∧
       (u.cons 0).lastAt = some 0 ∧ (u.cons 0).st ≠ .wait ∧ (u.cons 0).st ≠ .failsafe ∧
       0 + 3 * 1 * 50000 < u.tb ∧ (linked fabP).tb ≤ 0 + 3 * 1 * 50000) := by decide +kernel

theorem witness_ConnectionsCarryTheirValues_units :
    (∀ q, q < 4 → UnitClean (linked fabP) (8 + q)) ∧ UnitClean s1 (8 + 0) := by
  unfold UnitClean; decide +kernel

/-- A safety frame that waits since tick 0, a control and a bulk frame. -/
def waitS : Waiting := { frame := copyFrame 0x105 onward, since := 0 }
def waitC : Waiting := { frame := mkFrame 1 0x10 48 0x105 0x104 false [0, 0, 3, 1, 9], since := 0 }
def waitB : Waiting := { frame := mkFrame 2 0x20 48 0x105 0x104 false [0, 0, 1, 0, 9], since := 0 }

set_option maxRecDepth 10000 in
theorem witness_PortQueuesAreServedByClass :
    (let u := port0 { Port.start with st := .up, busyTo := 9 }
     Tab.ok .start u.lnk.ports = true ∧ u.tb < (u.port 0).busyTo ∧ byteAt waitC.frame 0 / 64 = 1 ∧
       byteAt waitB.frame 0 / 64 = 2 ∧ byteAt waitS.frame 0 / 64 = 0) ∧
    (let u := port0 { Port.start with st := .up, safeQ := [waitS] }
     (u.port 0).busyTo ≤ u.tb ∧ (u.port 0).safeQ = waitS :: [] ∧ (u.port 0).ctrlQ = [] ∧
       (u.port 1).safeQ = [] ∧ (u.port 1).ctrlQ = [] ∧ (u.port 1).bulkQ = []) ∧
    (let u := port0 { Port.start with st := .up, ctrlQ := [waitC], bulkQ := [waitB] }
     (∀ c ∈ (u.port 0).ctrlQ, c.age u.tb ≤ 1000) ∧ (u.port 0).safeQ = [] ∧
       (u.port 0).ctrlQ = waitC :: [] ∧ (u.port 0).bulkQ = waitB :: [] ∧
       (u.port 0).ctrlShare ≤ 3 * (u.port 0).bulkShare) ∧
    (let u := port0 { Port.start with st := .up, ctrlQ := [waitC], bulkQ := [waitB], ctrlShare := 1 }
     3 * (u.port 0).bulkShare < (u.port 0).ctrlShare) ∧
    ((readFrame waitS.frame).map fun x => decide (x.cls = 0 ∧ 10 ≤ x.body.length)) = some true ∧
    (s0.pending = [] ∧ s0.ticking = true ∧ s0.linkOn = true ∧ s0.tmr.timers = [] ∧
      s0.pwr.off = false ∧ s0.por.boxes = []) := by
  decide +kernel

/-- The device runs a small image, nothing stands in its sea and none of its inputs is used. -/
theorem witness_HostSetsNoOutput :
    Canonical s1 ∧ (requestOf (.engineSplit h1 [0])).isSome = true ∧ (0x60040 : Word) ≠ 0x10014 ∧
    (∀ k r, k < 64 → (s1.irm k).room = some r → r ∉ s1.freeRooms ∧ r ∉ s1.stagedRooms) ∧
    ∃ t, exec (.registerWrite .porch 0x60040 0) s1 = .next t := by
  refine ⟨by unfold Canonical FieldTables LogicTables PorchTables; decide +kernel, rfl, by decide,
    fun k r hk e => ?_, _, rfl⟩
  have : ∀ k < 64, (s1.irm k).room = none := by decide +kernel
  simp [this k hk] at e

/-- R370: of three control and three bulk frames of one length, control goes first, then bulk, then
control until it has had three times the bytes of bulk. -/
theorem test_ports_share :
    (let v : Port := { Port.start with ctrlQ := [waitC, waitC, waitC, waitC, waitC], bulkQ := [waitB, waitB] }
     let go (n : Nat) (v : Port) : List Nat := (n.fold (fun _ _ (a : List Nat × Port) =>
       match a.2.next with
       | some (w, u) => (a.1 ++ [byteAt w.frame 0 / 64], u)
       | none => a) ([], v)).1
     go 6 v) = [1, 2, 1, 1, 1, 2] := by decide +kernel

/-- R353, R367: a copy of 33 bytes takes 185 ticks, and 200 ticks of waiting add 1 µs to ACC. -/
theorem test_waiting_copy :
    frameTicks waitS.frame = 185 ∧
      numAt ((at_ 200 s1).departing 0 waitS) 16 2 = numAt waitS.frame 16 2 + 100 := by decide +kernel

end Sys2Proof.Tests
end

/-! Local writes to registers (R4, R5): what a write reaches in each block, and that it is there what
the command of the register does (O37). -/

namespace Sys2Proof.Machine

/-! ### One write by address -/

/-- A command of a live device that acts only while the CELLAR domain is alive, acts. -/
theorem next_of_alive {s : State} (h : s.alive = true) (t : State) :
    (.next (if s.alive then t else s) : Host.Outcome State Fault Refusal) = .next t := by
  rw [if_pos h]

section Live
variable {s : State} (h : s.alive = true) (w : Agent) (v : Word)
include h

theorem exec_registerWrite {a : Nat} (ha : a < 2 ^ 32) :
    exec (.registerWrite w (BitVec.ofNat 32 a) v) s =
      .next (if addrOk a = true then (s.writeReg w false a v).1 else s) := by
  change execRegisterWrite w (BitVec.ofNat 32 a) v s = _
  rw [execRegisterWrite, h, BitVec.toNat_ofNat, Nat.mod_eq_of_lt ha, Bool.true_and]

theorem exec_registerWrite_valid {a : Nat} (ha : addrOk a = true) :
    exec (.registerWrite w (BitVec.ofNat 32 a) v) s = .next (s.writeReg w false a v).1 := by
  have hlt : a < 2 ^ 32 := by
    simp only [addrOk, Bool.and_eq_true, decide_eq_true_eq] at ha
    omega
  rw [exec_registerWrite h w v hlt, if_pos ha]

/-- Whether or not the address is valid, a write that its block ignores changes nothing. -/
theorem exec_registerWrite_ignored {a : Nat} (ha : a < 2 ^ 32) (hs : (s.writeReg w false a v).1 = s) :
    exec (.registerWrite w (BitVec.ofNat 32 a) v) s = .next s := by
  rw [exec_registerWrite h w v ha, hs, ite_self]

end Live

/-- An aligned address of a block that can be written is valid (R30). -/
theorem addrOk_of_block {a : Nat} (hb : 3 ≤ a / 0x10000 ∧ a / 0x10000 ≤ 6) (h4 : a % 4 = 0) :
    addrOk a = true := by
  have h7 : a / 0x10000 ≠ 7 ∧ a / 0x10000 ≠ 0xE ∧ a / 0x10000 ≠ 0xF := by omega
  have hlt : a < 0x140000 := by omega
  simp [addrOk, h4, hlt, h7]

section Blocks
variable (s : State) (w : Agent) (v : Word) {a : Nat}

theorem State.writeReg_tmr (hb : a / 0x10000 = 3) :
    (s.writeReg w false a v).1 = s.writeTmr w (a % 0x10000) v := by simp only [State.writeReg, hb]

theorem State.writeReg_cvu (hb : a / 0x10000 = 4) :
    (s.writeReg w false a v).1 = s.writeCvu w false (a % 0x10000) v := by simp only [State.writeReg, hb]

theorem State.writeReg_fld (hb : a / 0x10000 = 5) :
    (s.writeReg w false a v).1 = s.writeFld w (a % 0x10000) v := by simp only [State.writeReg, hb]

theorem State.writeReg_cnv (hb : a / 0x10000 = 6) :
    (s.writeReg w false a v).1 = s.writeCnv w (a % 0x10000) v := by simp only [State.writeReg, hb]

theorem State.writeReg_readOnlyBlock (hb : a / 0x10000 ∉ [1, 3, 4, 5, 6]) :
    (s.writeReg w false a v).1 = s := by
  simp only [List.mem_cons, List.not_mem_nil, or_false, not_or] at hb
  unfold State.writeReg
  split
  case h_6 => rfl
  all_goals omega

/-- In the PWR_ block only the porch's write of PWR_DOMCTL acts (R273). -/
theorem State.writeReg_pwr_ignored (hb : a / 0x10000 = 1) (hw : a ≠ 0x10014 ∨ w ≠ .porch) :
    (s.writeReg w false a v).1 = s := by
  have hn : ¬(a % 0x10000 = 0x14 ∧ w = .porch) := fun ⟨ho, hp⟩ =>
    hw.elim (fun ha => ha (by omega)) (fun hq => hq hp)
  simp only [State.writeReg, hb, if_neg hn]

theorem State.writeReg_cvu_notOwner (hb : a / 0x10000 = 4)
    (hw : s.unitOf w ≠ some (a % 0x10000 / 0x40)) : (s.writeReg w false a v).1 = s := by
  rw [State.writeReg_cvu s w v hb, State.writeCvu, if_neg Bool.false_ne_true, if_neg hw]

end Blocks

/-! ### Rows of registers -/

theorem rowAt_entry {base n i : Nat} (hi : i < n) : rowAt base n (base + 4 * i) = some i := by
  rw [rowAt, if_pos (by omega)]
  congr 1
  omega

theorem rowAt_outside {base n o : Nat} (ho : o < base ∨ base + 4 * n ≤ o) : rowAt base n o = none :=
  if_neg (by omega)

/-! ### Timers (R281 to R288, R294) -/

@[simp] theorem State.takeDues_tb (s : State) : s.takeDues.tb = s.tb :=
  (kept_eq (State.takeDues_kept s)).2.1

theorem State.writeTmr_timer (s : State) (w : Agent) (v : Word) {n o : Nat} (hn : n < 64) (ho : o < 64) :
    s.writeTmr w (0x1000 + 64 * n + o) v = s.takeDues.writeTimer w n o v := by
  have hi : (0x1000 + 64 * n + o - 0x1000) / 0x40 = n := by omega
  have hr : (0x1000 + 64 * n + o) % 0x40 = o := by omega
  exact (if_pos (by omega)).trans (by rw [hi, hr])

/-- Outside the timers' own registers only the two words of TMR_GO and of TMR_SNAP take a write. -/
theorem State.writeTmr_ignored (s : State) (w : Agent) (v : Word) {o : Nat} (hgo : o < 0x10 ∨ 0x20 ≤ o)
    (ht : o < 0x1000 ∨ 0x2000 ≤ o) : s.writeTmr w o v = s.takeDues := by
  unfold State.writeTmr
  rw [if_neg (by omega)]
  split
  case h_5 => rfl
  all_goals omega

/-- The flags of TMR_STAT: for the owner one written 1 is cleared unless it was set at this very tick. -/
theorem State.statWrite_takeDues (s : State) (w : Agent) (n : Nat) (v : Word) :
    s.takeDues.statWrite w n v =
      (let t := s.takeDues.timer n
       let f := fun (b : Nat) (was : Bool) => was && (!bitOf v b ||
         Tab.get none s.takeDues.flagSet (timerFlag n b) == some s.tb)
       if t.owned w = true then s.takeDues.setTimer n { t with
         cf0 := f 2 t.cf0, cf1 := f 3 t.cf1, capovf := f 4 t.capovf, gomiss := f 5 t.gomiss,
         terr := f 6 t.terr } else s.takeDues) := by
  simp only [State.statWrite, State.w1c, State.takeDues_tb, State.updTimer]

section TimerBlock
variable {s : State} (h : s.alive = true) (w : Agent) (v : Word)
include h

theorem exec_registerWrite_tmr {a : Nat} (hb : a / 0x10000 = 3) (h4 : a % 4 = 0) :
    exec (.registerWrite w (BitVec.ofNat 32 a) v) s = .next (s.writeTmr w (a % 0x10000) v) := by
  rw [exec_registerWrite_valid h w v (addrOk_of_block (by omega) h4), State.writeReg_tmr s w v hb]

theorem exec_registerWrite_timer (n : Fin 64) {o : Nat} (ho : o < 64) (h4 : o % 4 = 0) :
    exec (.registerWrite w (BitVec.ofNat 32 (0x31000 + 64 * n.val + o)) v) s =
      .next (s.takeDues.writeTimer w n o v) := by
  have ha : (0x31000 + 64 * n.val + o) % 0x10000 = 0x1000 + 64 * n.val + o := by omega
  rw [exec_registerWrite_tmr h w v (by omega) (by omega), ha, State.writeTmr_timer s w v n.isLt ho]

/-- A TMR_CTL word that acts as one update of the timers is the command of that update. -/
theorem exec_registerWrite_ctl (n : Fin 64) {t : State} (ht : s.takeDues.ctlWrite w n v = t) :
    exec (.registerWrite w (BitVec.ofNat 32 (0x31000 + 64 * n.val + 0x08)) v) s =
      .next (if s.alive then t else s) := by
  rw [exec_registerWrite_timer h w v n (by decide) rfl, next_of_alive h, ← ht]
  rfl

theorem exec_registerWrite_timer_readOnly (n : Fin 64) {o : Nat}
    (ho : o ∈ [0x00, 0x04, 0x10, 0x20, 0x24, 0x28, 0x2C, 0x30, 0x34, 0x38, 0x3C]) :
    exec (.registerWrite w (BitVec.ofNat 32 (0x31000 + 64 * n.val + o)) v) s = .next s.takeDues := by
  fin_cases ho <;> exact exec_registerWrite_timer h w v n (by decide) rfl

end TimerBlock

section OneBit
variable (s : State) (w : Agent) (n : Nat)

theorem State.ctlWrite_pop : s.ctlWrite w n 0x20 = s.tmrPop w n := by simp [State.ctlWrite, bitOf]

theorem State.ctlWrite_capsw : s.ctlWrite w n 0x10 = s.tmrCapsw w n := by simp [State.ctlWrite, bitOf]

theorem State.ctlWrite_stop : s.ctlWrite w n 0x08 = s.tmrStop w n := by simp [State.ctlWrite, bitOf]

theorem State.ctlWrite_start : s.ctlWrite w n 0x04 = s.tmrStart w n := by simp [State.ctlWrite, bitOf]

theorem State.ctlWrite_arm : s.ctlWrite w n 0x02 = s.tmrArm w n := by simp [State.ctlWrite, bitOf]

end OneBit

/-! ### Converters (R175, R177, R188) -/

section CnvBlock
variable (s : State) (w : Agent) (v : Word)

theorem State.writeCnv_stat {c : Nat} (hc : c < 4) :
    s.writeCnv w (0x10 + 4 * c) v = s.cnvStatWrite c v := by
  rw [State.writeCnv, rowAt_entry hc]

theorem State.writeCnv_chst {c : Nat} (hc : c < 32) :
    s.writeCnv w (0xB00 + 4 * c) v = s.chstWrite w c v := by
  rw [State.writeCnv, rowAt_outside (by omega), rowAt_entry hc]

theorem State.writeCnv_ignored {o : Nat} (hst : o < 0x10 ∨ 0x20 ≤ o) (hgo : o ≠ 0x40) (hsn : o ≠ 0x44)
    (hch : o < 0xB00 ∨ 0xB80 ≤ o) : s.writeCnv w o v = s := by
  rw [State.writeCnv, rowAt_outside (by omega), rowAt_outside (by omega)]
  simp only [if_neg hgo, if_neg hsn]

variable {s}

theorem exec_registerWrite_cnv (h : s.alive = true) {a : Nat} (hb : a / 0x10000 = 6) (h4 : a % 4 = 0) :
    exec (.registerWrite w (BitVec.ofNat 32 a) v) s = .next (s.writeCnv w (a % 0x10000) v) := by
  rw [exec_registerWrite_valid h w v (addrOk_of_block (by omega) h4), State.writeReg_cnv s w v hb]

theorem exec_registerWrite_cnvStat (h : s.alive = true) (c : Fin 4) :
    exec (.registerWrite w (BitVec.ofNat 32 (0x60010 + 4 * c.val)) v) s =
      .next (s.cnvStatWrite c v) := by
  have ha : (0x60010 + 4 * c.val) % 0x10000 = 0x10 + 4 * c.val := by omega
  rw [exec_registerWrite_cnv w v h (by omega) (by omega), ha, State.writeCnv_stat s w v c.isLt]

theorem exec_registerWrite_chst (h : s.alive = true) (c : Fin 32) :
    exec (.registerWrite w (BitVec.ofNat 32 (0x60B00 + 4 * c.val)) v) s =
      .next (s.chstWrite w c v) := by
  have ha : (0x60B00 + 4 * c.val) % 0x10000 = 0xB00 + 4 * c.val := by omega
  rw [exec_registerWrite_cnv w v h (by omega) (by omega), ha, State.writeCnv_chst s w v c.isLt]

theorem exec_registerWrite_cnv_ignored (h : s.alive = true) {o : Nat} (ho : o < 0x10000)
    (hst : o < 0x10 ∨ 0x20 ≤ o) (hgo : o ≠ 0x40) (hsn : o ≠ 0x44) (hch : o < 0xB00 ∨ 0xB80 ≤ o) :
    exec (.registerWrite w (BitVec.ofNat 32 (0x60000 + o)) v) s = .next s := by
  have ha : (0x60000 + o) % 0x10000 = o := by omega
  refine exec_registerWrite_ignored h w v (by omega) ?_
  rw [State.writeReg_cnv s w v (by omega), ha, State.writeCnv_ignored s w v hst hgo hsn hch]

end CnvBlock

/-! ### Counters (R79) -/

/-- The counters that the porch owns as a writer are those that COUNTER_CLEAR clears. -/
theorem State.ownsCounter_porch (s : State) {m : Nat} (hm : m < 128) :
    s.ownsCounter .porch m = s.porchCounter m := by
  rw [State.ownsCounter, State.porchCounter]
  cases s.img false with
  | none => rfl
  | some i => simp [hm, State.codeOwns]

theorem State.cclrWrite_porch (s : State) {p : Nat} (hp : p < 4) (v : Word) :
    s.cclrWrite .porch p v = s.counterClear p v := by
  refine congrArg (fun add => { s with lgc := { s.lgc with cclr := s.lgc.cclr ||| add } })
    (List.foldl_ext _ _ _ fun acc j hj => ?_)
  have hm : 32 * p + j < 128 := by have := List.mem_range.mp hj; omega
  rw [State.ownsCounter_porch s hm]

/-- The owner's write of FLD_CSTAT asks for the clear of each flag written 1 that was not set at this
very tick. -/
theorem State.cstatWrite_eq (s : State) (w : Agent) (m : Nat) (v : Word) :
    s.cstatWrite w m v =
      (let f := fun b => bitOf v b && !(Tab.get none s.flagSet (counterFlag m b) == some s.tb)
       if s.ownsCounter w m = true then
         s.clearFlags { num := m, wrap := f 0, qerr := f 1, excess := f 5 } else s) := by
  simp only [State.cstatWrite, State.w1c, Bool.true_and, Bool.not_or, Bool.not_not]

section FldBlock
variable (s : State) (w : Agent) (v : Word)

theorem State.writeFld_cstat {m : Nat} (hm : m < 128) :
    s.writeFld w (0x1600 + 4 * m) v = s.cstatWrite w m v := by
  rw [State.writeFld, rowAt_entry hm]

theorem State.writeFld_cclr {p : Nat} (hp : p < 4) :
    s.writeFld w (0x1800 + 4 * p) v = s.cclrWrite w p v := by
  rw [State.writeFld, rowAt_outside (by omega), rowAt_entry hp]

theorem State.writeFld_ignored {o : Nat} (ho : o < 0x1600 ∨ 0x1810 ≤ o) : s.writeFld w o v = s := by
  rw [State.writeFld, rowAt_outside (by omega), rowAt_outside (by omega)]

variable {s}

theorem exec_registerWrite_fld (h : s.alive = true) {a : Nat} (hb : a / 0x10000 = 5) (h4 : a % 4 = 0) :
    exec (.registerWrite w (BitVec.ofNat 32 a) v) s = .next (s.writeFld w (a % 0x10000) v) := by
  rw [exec_registerWrite_valid h w v (addrOk_of_block (by omega) h4), State.writeReg_fld s w v hb]

theorem exec_registerWrite_cclr (h : s.alive = true) (p : Fin 4) :
    exec (.registerWrite w (BitVec.ofNat 32 (0x51800 + 4 * p.val)) v) s =
      .next (s.cclrWrite w p v) := by
  have ha : (0x51800 + 4 * p.val) % 0x10000 = 0x1800 + 4 * p.val := by omega
  rw [exec_registerWrite_fld w v h (by omega) (by omega), ha, State.writeFld_cclr s w v p.isLt]

theorem exec_registerWrite_cstat (h : s.alive = true) (m : Fin 128) :
    exec (.registerWrite w (BitVec.ofNat 32 (0x51600 + 4 * m.val)) v) s =
      .next (s.cstatWrite w m v) := by
  have ha : (0x51600 + 4 * m.val) % 0x10000 = 0x1600 + 4 * m.val := by omega
  rw [exec_registerWrite_fld w v h (by omega) (by omega), ha, State.writeFld_cstat s w v m.isLt]

theorem exec_registerWrite_fld_ignored (h : s.alive = true) {o : Nat} (hlt : o < 0x10000)
    (ho : o < 0x1600 ∨ 0x1810 ≤ o) :
    exec (.registerWrite w (BitVec.ofNat 32 (0x50000 + o)) v) s = .next s := by
  have ha : (0x50000 + o) % 0x10000 = o := by omega
  refine exec_registerWrite_ignored h w v (by omega) ?_
  rw [State.writeReg_fld s w v (by omega), ha, State.writeFld_ignored s w v ho]

end FldBlock

/-! ### Check-value units (R306) -/

theorem State.writeUnit_init (s : State) {u : Nat} {v : Word} (hon : s.unitOn u = true)
    (hv : bitOf v 0 = true) : s.writeUnit u 0x04 v = s.initUnit u := by
  simp [State.writeUnit, hon, hv]

theorem State.writeCvu_owner (s : State) (v : Word) {w : Agent} {u o : Nat} (ho : o < 64)
    (hw : s.unitOf w = some u) :
    s.writeCvu w false (64 * u + o) v = (s.writeUnit u o v).chargeUnits := by
  have hu : (64 * u + o) / 0x40 = u := by omega
  have hr : (64 * u + o) % 0x40 = o := by omega
  rw [State.writeCvu, if_neg Bool.false_ne_true, hu, hr, if_pos hw]

theorem exec_registerWrite_cvuInit {s : State} {v : Word} (h : s.alive = true) (e : Fin 8)
    (hv : bitOf v 0 = true) (hon : s.unitOn e.val = true) :
    exec (.registerWrite (.engine e) (BitVec.ofNat 32 (0x40004 + 64 * e.val)) v) s =
      exec (.cvuInit ⟨e.val, by omega⟩) s := by
  have ha : (0x40004 + 64 * e.val) % 0x10000 = 64 * e.val + 0x04 := by omega
  have hcmd : exec (.cvuInit ⟨e.val, by omega⟩) s = .next (s.initUnit e.val).chargeUnits :=
    congrArg Host.Outcome.next (if_pos hon)
  rw [exec_registerWrite_valid h _ v (addrOk_of_block (by omega) (by omega)),
    State.writeReg_cvu s _ v (by omega), ha, State.writeCvu_owner s v (by decide) rfl,
    State.writeUnit_init s hon hv, hcmd]

/-! ### Writes without effect -/

theorem exec_registerWrite_noEffect {s : State} (h : s.alive = true) (w : Agent) (v : Word) {a : Nat}
    (ha : a < 2 ^ 32) (hno : a / 0x10000 ∉ [1, 3, 4, 5, 6] ∨ addrOk a = false ∨
      (a / 0x10000 = 1 ∧ (a ≠ 0x10014 ∨ w ≠ .porch)) ∨
      (a / 0x10000 = 4 ∧ s.unitOf w ≠ some (a % 0x10000 / 0x40))) :
    exec (.registerWrite w (BitVec.ofNat 32 a) v) s = .next s := by
  rcases hno with hblock | hbad | ⟨hpwr, hw⟩ | ⟨hcvu, hw⟩
  · exact exec_registerWrite_ignored h w v ha (State.writeReg_readOnlyBlock s w v hblock)
  · rw [exec_registerWrite h w v ha, hbad, if_neg Bool.false_ne_true]
  · exact exec_registerWrite_ignored h w v ha (State.writeReg_pwr_ignored s w v hpwr hw)
  · exact exec_registerWrite_ignored h w v ha (State.writeReg_cvu_notOwner s w v hcvu hw)

/-- Settles O37, register by register: both sides are the same update of a live device's state. -/
theorem registerWritesAreTheCommands : Obligations.RegisterWritesAreTheCommands := by
  intro s w v h write
  have timer := fun (n : Fin 64) (o : Nat) (ho : o < 64) (h4 : o % 4 = 0) =>
    exec_registerWrite_timer h w v n ho h4
  have live := fun t => (next_of_alive h t).symm
  refine ⟨fun n => ⟨?_, ?_, ?_, ?_, ?_, ?_, ?_, ?_, ?_, ?_, fun o ho => ?_⟩, ?_, ?_, ?_, ?_,
    fun o ho hgo ht h4 => ?_, ?_, ?_, fun c => ?_, fun c => ?_, fun o ho hst hgo hsn hch => ?_,
    fun p => ?_, fun m => ?_, fun o hlt ho => ?_, fun e hv hon => ?_, fun a ha hno => ?_⟩
  -- the registers of timer `n`
  · exact (timer n 0x14 (by decide) rfl).trans (live _)
  · exact (timer n 0x18 (by decide) rfl).trans (live _)
  · exact (timer n 0x1C (by decide) rfl).trans (live _)
  · exact exec_registerWrite_ctl h w _ n (State.ctlWrite_pop ..)
  · exact exec_registerWrite_ctl h w _ n (State.ctlWrite_capsw ..)
  · exact exec_registerWrite_ctl h w _ n (State.ctlWrite_stop ..)
  · exact exec_registerWrite_ctl h w _ n (State.ctlWrite_start ..)
  · exact exec_registerWrite_ctl h w _ n (State.ctlWrite_arm ..)
  · exact timer n 0x08 (by decide) rfl
  · exact (timer n 0x0C (by decide) rfl).trans (congrArg _ (State.statWrite_takeDues s w n v))
  · exact exec_registerWrite_timer_readOnly h w v n ho
  -- TMR_GO, TMR_SNAP and what is read-only beside them
  · exact (exec_registerWrite_tmr h w v rfl rfl).trans (live _)
  · exact (exec_registerWrite_tmr h w v rfl rfl).trans (live _)
  · exact (exec_registerWrite_tmr h w v rfl rfl).trans (live _)
  · exact (exec_registerWrite_tmr h w v rfl rfl).trans (live _)
  · have ha : (0x30000 + o) % 0x10000 = o := by omega
    exact (exec_registerWrite_tmr h w v (by omega) (by omega)).trans
      (by rw [ha, State.writeTmr_ignored s w v hgo ht])
  -- converters
  · exact (exec_registerWrite_cnv w v h rfl rfl).trans (live _)
  · exact (exec_registerWrite_cnv w v h rfl rfl).trans (live _)
  · exact exec_registerWrite_cnvStat w v h c
  · exact exec_registerWrite_chst w v h c
  · exact exec_registerWrite_cnv_ignored w v h ho hst hgo hsn hch
  -- counters
  · exact (exec_registerWrite_cclr .porch v h p).trans
      ((congrArg _ (State.cclrWrite_porch s p.isLt v)).trans (live _))
  · exact (exec_registerWrite_cstat w v h m).trans (congrArg _ (State.cstatWrite_eq s w m v))
  · exact exec_registerWrite_fld_ignored w v h hlt ho
  -- check-value units, and the rest
  · exact exec_registerWrite_cvuInit h e hv hon
  · exact exec_registerWrite_noEffect h w v ha hno

end Sys2Proof.Machine

/-! What the output matrix is formed from (R19), and the operations that leave all of it alone. -/

namespace Sys2Proof.Machine

/-- What a command for an output is formed from, consumed connections apart (R19). -/
def State.wiring (s : State) : Option Image × Nat × List TripLatch × List TripLatch × Tab (Option Inst) × Sea :=
  (s.cfg.image, s.pwr.step, s.lgc.tripA, s.lgc.tripB, s.eng.insts, s.sea)

/-- What a command for an output is formed from (R19). -/
def State.sources (s : State) :
    (Option Image × Nat × List TripLatch × List TripLatch × Tab (Option Inst) × Sea) × Tab Cons :=
  (s.wiring, s.lnk.cons)

@[simp] theorem wiring_mk (p t f se fl nv pw fu rc tm cv fi lg cn sea en sv cf po ln) :
    (State.mk p t f se fl nv pw fu rc tm cv fi lg cn sea en sv cf po ln).wiring =
      (cf.image, pw.step, lg.tripA, lg.tripB, en.insts, sea) := rfl

@[simp] theorem wiring_eta (s : State) :
    (s.cfg.image, s.pwr.step, s.lgc.tripA, s.lgc.tripB, s.eng.insts, s.sea) = s.wiring := rfl

@[simp] theorem sources_mk (p t f se fl nv pw fu rc tm cv fi lg cn sea en sv cf po ln) :
    (State.mk p t f se fl nv pw fu rc tm cv fi lg cn sea en sv cf po ln).sources =
      ((cf.image, pw.step, lg.tripA, lg.tripB, en.insts, sea), ln.cons) := (rfl)

@[simp] theorem sources_eta (s : State) : (s.wiring, s.lnk.cons) = s.sources := rfl

theorem wiring_of_sources {s t : State} (h : t.sources = s.sources) : t.wiring = s.wiring :=
  congrArg Prod.fst h

@[simp] theorem sources_ite (c : Prop) [Decidable c] (a b : State) :
    (if c then a else b).sources = if c then a.sources else b.sources := by split <;> rfl

@[simp] theorem foldl_sources {α : Type} (f : State → α → State) (h : ∀ a x, (f a x).sources = a.sources)
    (l : List α) (s : State) : (l.foldl f s).sources = s.sources := by
  induction l generalizing s with
  | nil => rfl
  | cons x l ih => rw [List.foldl_cons, ih, h]

theorem sources_of_recorded {s t : State} (h : Recorded s t) : t.sources = s.sources := by
  unfold Recorded at h
  rw [h]
  rfl

section
variable (s : State)

/-! ### Records, check-value units, fuses and operations -/

@[simp] theorem State.record_sources (c v : Nat) (p : List Byte) (b : Bool) (k : Option Nat) :
    (s.record c v p b k).sources = s.sources := sources_of_recorded (record_recorded s c v p b k)

@[simp] theorem State.recFail_sources (w : RecFail) : (s.recFail w).sources = s.sources :=
  sources_of_recorded (recFail_recorded s w)

@[simp] theorem State.runUnit_sources (u : Nat) (f : Cvu → Cvu) : (s.runUnit u f).sources = s.sources :=
  sources_of_recorded (runUnit_recorded s u f)

@[simp] theorem State.setUnit_sources (u : Nat) (c : Cvu) : (s.setUnit u c).sources = s.sources := rfl

@[simp] theorem State.noteFlag_sources (k : Nat) : (s.noteFlag k).sources = s.sources := rfl

@[simp] theorem State.takeFree_sources : s.takeFree.sources = s.sources := rfl

@[simp] theorem State.finish_sources (op st : Nat) (b : List Byte) : (s.finish op st b).sources = s.sources := by
  simp [State.finish]

@[simp] theorem State.addBlow_sources (x : Blow) : (s.addBlow x).sources = s.sources := rfl

@[simp] theorem State.fuseKick_sources : s.fuseKick.sources = s.sources := by simp [State.fuseKick]

@[simp] theorem State.retireBit_sources (b : Nat) : (s.retireBit b).sources = s.sources := by
  simp [State.retireBit, State.blow, State.setShadow]

@[simp] theorem State.fuseAdvance_sources (c t op : Nat) : (s.fuseAdvance c t op).1.sources = s.sources := by
  simp [State.fuseAdvance, State.addSteps]

/-! ### The porch -/

@[simp] theorem State.setSession_sources (k : Nat) (v : Option Session) :
    (s.setSession k v).sources = s.sources := rfl

@[simp] theorem State.setStream_sources (k : Nat) (v : Option Stream) :
    (s.setStream k v).sources = s.sources := rfl

@[simp] theorem State.setCal_sources (k : Option Cal) : (s.setCal k).sources = s.sources := rfl

@[simp] theorem State.setSlot_sources (k : Nat) (v : Slot) : (s.setSlot k v).sources = s.sources := rfl

@[simp] theorem State.setProc_sources (q : Side) (v : Proc) : (s.setProc q v).sources = s.sources := by
  cases q <;> rfl

@[simp] theorem State.post_sources (x : Sent) : (s.post x).sources = s.sources := by simp [State.post]

@[simp] theorem State.respond_sources (h : Hdr) (o st : Nat) (b : List Byte) :
    (s.respond h o st b).sources = s.sources := by
  rw [respond_eq]
  rfl

@[simp] theorem State.respondBare_sources (h : Hdr) (o st : Nat) (b : List Byte) :
    (s.respondBare h o st b).sources = s.sources := by simp [State.respondBare, State.response]

@[simp] theorem State.touch_sources (k : Nat) : (s.touch k).sources = s.sources := by
  unfold State.touch
  split <;> rfl

@[simp] theorem State.heard_sources (k : Nat) (own : Bool) : (s.heard k own).sources = s.sources := by
  unfold State.heard
  split
  · exact State.touch_sources s k
  · rfl

@[simp] theorem State.abandonLoad_sources (who : Nat → Bool) : (s.abandonLoad who).sources = s.sources := by
  unfold State.abandonLoad
  (repeat' split) <;> rfl

@[simp] theorem State.closeSession_sources (k : Nat) : (s.closeSession k).sources = s.sources :=
  State.abandonLoad_sources _ _

@[simp] theorem State.answerChallenge_sources (h : Hdr) (k : Nat) (mac : List Byte) :
    (s.answerChallenge h k mac).1.sources = s.sources := by
  unfold State.answerChallenge
  (repeat' split) <;> simp [State.failMac, State.sessionRecord]

@[simp] theorem State.sessionOpen_sources (h : Hdr) (b : List Byte) :
    (s.sessionOpen h b).1.sources = s.sources := by
  unfold State.sessionOpen State.challenge
  (repeat' split) <;> simp

@[simp] theorem State.streamOpen_sources (h : Hdr) (b : List Byte) :
    (s.streamOpen h b).1.sources = s.sources := by
  unfold State.streamOpen
  dsimp only
  (repeat' split) <;> rfl

@[simp] theorem State.calFull_sources (n c : Nat) (v : Int) (op : Nat) :
    (s.calFull n c v op).1.sources = s.sources := by
  unfold State.calFull
  (repeat' split) <;> rfl

@[simp] theorem State.calCommit_sources (n c : Nat) : (s.calCommit n c).1.sources = s.sources := by
  unfold State.calCommit
  (repeat' split) <;> simp

@[simp] theorem State.recClear_sources (n ip : Nat) : (s.recClear n ip).1.sources = s.sources := by
  have h (t old : State) : (t.clearedSince old).1.sources = t.sources := by
    unfold State.clearedSince
    split <;> rfl
  unfold State.recClear
  (repeat' split) <;> simp [h]

@[simp] theorem State.imageChunk_sources (n off : Nat) (d : List Byte) :
    (s.imageChunk n off d).1.sources = s.sources := by
  unfold State.imageChunk
  dsimp only
  (repeat' split) <;> rfl

@[simp] theorem State.imageEnd_sources (n : Nat) : (s.imageEnd n).1.sources = s.sources := by
  unfold State.imageEnd
  (repeat' split) <;> rfl

@[simp] theorem State.functionQuery_sources (st : Bool) (f : Nat) :
    (s.functionQuery st f).1.sources = s.sources := by
  unfold State.functionQuery
  (repeat' split) <;> rfl

@[simp] theorem State.fwBegin_sources (n : Nat) : (s.fwBegin n).1.sources = s.sources := by
  simp [State.fwBegin, State.putSpare]

@[simp] theorem State.fwChunk_sources (o : Nat) (d : List Byte) : (s.fwChunk o d).1.sources = s.sources := by
  unfold State.fwChunk
  (repeat' split) <;> rfl

@[simp] theorem State.fwEnd_sources (op : Nat) : (s.fwEnd op).1.sources = s.sources := by
  unfold State.fwEnd
  split <;> rfl

@[simp] theorem State.fwSwitch_sources (op : Nat) : (s.fwSwitch op).1.sources = s.sources := by
  unfold State.fwSwitch
  (repeat' split) <;> simp

/-! ### The loss of a processor, of a link and of a port -/

@[simp] theorem State.loseProc_sources (q : Side) : (s.loseProc q).sources = s.sources := by
  simp [State.loseProc]

@[simp] theorem State.dropPorchWork_sources : s.dropPorchWork.sources = s.sources := by
  simp [State.dropPorchWork, State.loseRun]

@[simp] theorem State.takeOver_sources (q : Side) (c k : Nat) (m : Bool) :
    (s.takeOver q c k m).sources = s.sources := by simp [State.takeOver]

@[simp] theorem State.endSwitch_sources (st : Nat) : (s.endSwitch st).sources = s.sources := by
  unfold State.endSwitch
  (repeat' split) <;> simp

@[simp] theorem State.loseActive_sources (c : Nat) : (s.loseActive c).sources = s.sources := by
  unfold State.loseActive State.porchOut
  dsimp only
  (repeat' split) <;> simp

@[simp] theorem State.setLink_sources (l : Side) (v : Link) : (s.setLink l v).sources = s.sources := by
  cases l <;> rfl

@[simp] theorem State.judgeFaulty_sources (l : Side) : (s.judgeFaulty l).sources = s.sources := by
  simp [State.judgeFaulty, State.linkRecord]

@[simp] theorem State.portTo_sources (p : Nat) (st : PortSt) : (s.portTo p st).sources = s.sources := by
  simp [State.portTo, State.departed, State.portRecord, State.routesDue, State.setPort]

/-! ### Peers -/

@[simp] theorem State.judgePeers_sources : s.judgePeers.sources = s.sources := by
  simp [State.judgePeers, State.judgeRoof, State.portRecord]

@[simp] theorem State.peerList_sources (u l e : Nat) : (s.peerList u l e).sources = s.sources := by
  simp [State.peerList]

@[simp] theorem State.keepClaim_sources (u : Nat) (a : Option Nat) : (s.keepClaim u a).sources = s.sources := by
  unfold State.keepClaim
  split <;> rfl

@[simp] theorem State.peerAccept_sources (u : Nat) : (s.peerAccept u).1.sources = s.sources := by
  simp [State.peerAccept, State.routesDue]

/-! ### Timers and converters -/

@[simp] theorem State.setTimer_sources (n : Nat) (t : Timer) : (s.setTimer n t).sources = s.sources := rfl

@[simp] theorem State.updTimer_sources (n : Nat) (f : Timer → Timer) : (s.updTimer n f).sources = s.sources := (rfl)

@[simp] theorem State.capture_sources (n : Nat) : (s.capture n).sources = s.sources := by simp [State.capture]

@[simp] theorem State.captureFrom_sources (k : Nat) (a e : Nat → Bool) (w : Timer → Bool) :
    (s.captureFrom k a e w).sources = s.sources := by simp [State.captureFrom]

@[simp] theorem State.onChain_sources (n : Nat) (f : Timer → Timer) : (s.onChain n f).sources = s.sources := by
  simp [State.onChain]

@[simp] theorem State.tmrStart_sources (w : Agent) (n : Nat) : (s.tmrStart w n).sources = s.sources := by
  simp [State.tmrStart, State.startOne, State.releaseTimer, State.endStop]

@[simp] theorem State.tbRead_sources (w : Agent) : (s.tbRead w).sources = s.sources := by
  unfold State.tbRead
  split <;> rfl

@[simp] theorem State.tmrSnap_sources (w : Agent) (lo hi : Word) : (s.tmrSnap w lo hi).sources = s.sources := by
  unfold State.tmrSnap
  split <;> rfl

@[simp] theorem State.triggerAll_sources (k : Nat) (f : ConvImg → Bool) :
    (s.triggerAll k f).sources = s.sources := by
  simp [State.triggerAll, State.cnvTrigger]

@[simp] theorem State.takeDues_sources : s.takeDues.sources = s.sources := by
  simp [State.takeDues, State.takeDue, State.takeCompare, State.takeEnd]

@[simp] theorem State.dropTimers_sources (st : Bool) (i : Nat) : (s.dropTimers st i).sources = s.sources := by
  simp [State.dropTimers]

@[simp] theorem State.idleTimers_sources (e : Nat) : (s.idleTimers e).sources = s.sources := by
  simp [State.idleTimers]

@[simp] theorem State.shadowTimers_sources (l m : List TimerImg) : (s.shadowTimers l m).sources = s.sources := by
  unfold State.shadowTimers
  refine foldl_sources _ (fun a n => ?_) _ s
  dsimp only
  split <;> rfl

/-! ### Registers -/

@[simp] theorem State.writeTmr_sources (w : Agent) (o : Nat) (v : Word) : (s.writeTmr w o v).sources = s.sources := by
  have htimer (t : State) (n o : Nat) : (t.writeTimer w n o v).sources = t.sources := by
    unfold State.writeTimer
    split <;> simp [State.ctlWrite, State.tmrPop, State.tmrCapsw, State.tmrStop, State.tmrArm, State.statWrite,
      State.periodWrite, State.compareWrite]
  unfold State.writeTmr
  (repeat' split) <;> simp [htimer, State.tmrGo]

@[simp] theorem State.writeFld_sources (w : Agent) (o : Nat) (v : Word) : (s.writeFld w o v).sources = s.sources := by
  unfold State.writeFld
  (repeat' split) <;> simp [State.cstatWrite, State.clearFlags, State.cclrWrite]

@[simp] theorem State.writeCnv_sources (w : Agent) (o : Nat) (v : Word) : (s.writeCnv w o v).sources = s.sources := by
  unfold State.writeCnv
  (repeat' split) <;>
    simp [State.cnvStatWrite, State.chstWrite, State.setConv, State.setChan, State.cnvGo, State.cnvSnap]

@[simp] theorem State.writeUnit_sources (u o : Nat) (v : Word) : (s.writeUnit u o v).sources = s.sources := by
  unfold State.writeUnit
  (repeat' split) <;> simp [State.initUnit]

@[simp] theorem State.readList_sources (b : Bool) (l : List Nat) : (s.readList b l).1.sources = s.sources := by
  induction l generalizing s with
  | nil => rfl
  | cons a l ih => simp only [State.readList, ih]; split <;> simp [State.afterRead]

@[simp] theorem State.readRegs_sources (h : Hdr) (b : List Byte) : (s.readRegs h b).1.sources = s.sources := by
  unfold State.readRegs
  (repeat' split) <;> simp

/-! ### Engines -/

@[simp] theorem State.setEngine_sources (e : Nat) (v : Engine) : (s.setEngine e v).sources = s.sources := rfl

@[simp] theorem State.setEngine_insts (e : Nat) (v : Engine) : (s.setEngine e v).eng.insts = s.eng.insts := rfl

@[simp] theorem State.setEngSt_sources (e : Nat) (st : EngSt) : (s.setEngSt e st).sources = s.sources := by
  simp [State.setEngSt]

@[simp] theorem State.taintRecord_sources (e v : Nat) : (s.taintRecord e v).sources = s.sources := by
  simp [State.taintRecord]

@[simp] theorem State.announce_sources : s.announce.sources = s.sources := rfl

@[simp] theorem State.suspectEngine_sources (e : Nat) (c : Charge) : (s.suspectEngine e c).sources = s.sources := by
  unfold State.suspectEngine
  dsimp only
  (repeat' split) <;> simp

@[simp] theorem State.dropResets_sources (v : Inst) : (s.dropResets v).sources = s.sources := by
  simp [State.dropResets]

@[simp] theorem State.dropStagedResets_sources : s.dropStagedResets.sources = s.sources := by
  unfold State.dropStagedResets
  refine foldl_sources _ (fun a e => ?_) _ s
  (repeat' split) <;> simp

@[simp] theorem State.logicRecord_sources (st : Bool) (i : InstImg) (a b : FnSt) :
    (s.logicRecord st i a b).sources = s.sources := by simp [State.logicRecord]

@[simp] theorem State.seeDiffer_sources : s.seeDiffer.sources = s.sources := by simp [State.seeDiffer]

@[simp] theorem State.shedRecord_sources (w : Word) : (s.shedRecord w).sources = s.sources := by
  simp [State.shedRecord]

@[simp] theorem State.debugOp_sources (e op sp a n : Nat) (d : List Byte) :
    (s.debugOp e op sp a n d).1.sources = s.sources := by
  unfold State.debugOp
  (repeat' split) <;> simp [State.runs, State.settleMemory]

end

end Sys2Proof.Machine

/-! Operations of the engines that take outputs of instances away and give none (R119, R127, R242, R247): they
place, shed and evict work, and begin joins and self-tests. -/

namespace Sys2Proof.Machine

/-- Output `o` of an entry of the table of instances, as the consumers of the running image read it. -/
def instBit (v : Option Inst) (o : Nat) : Bool :=
  match v with
  | none => false
  | some v => !v.safe && v.st.outs.getLsbD o

/-- From `s` to `t` nothing that commands an output changed but instances, and of their outputs none rose. -/
structure Eases (s t : State) : Prop where
  image : t.cfg.image = s.cfg.image
  step  : t.pwr.step = s.pwr.step
  tripA : t.lgc.tripA = s.lgc.tripA
  tripB : t.lgc.tripB = s.lgc.tripB
  sea   : t.sea = s.sea
  cons  : t.lnk.cons = s.lnk.cons
  insts : Tab.ok none s.eng.insts = true → Tab.ok none t.eng.insts = true ∧
    ∀ k o, instBit (Tab.get none t.eng.insts k) o = true → instBit (Tab.get none s.eng.insts k) o = true

theorem insts_of_sources {s t : State} (h : t.sources = s.sources) : t.eng.insts = s.eng.insts :=
  congrArg (·.1.2.2.2.2.1) h

theorem inst_of_sources {s t : State} (h : t.sources = s.sources) (st : Bool) (i : Nat) :
    t.inst st i = s.inst st i := by simp only [State.inst, insts_of_sources h]

theorem Eases.refl (s : State) : Eases s s := ⟨rfl, rfl, rfl, rfl, rfl, rfl, fun h => ⟨h, fun _ _ e => e⟩⟩

theorem Eases.of_sources {s t : State} (h : t.sources = s.sources) : Eases s t where
  image := congrArg (·.1.1) h
  step := congrArg (·.1.2.1) h
  tripA := congrArg (·.1.2.2.1) h
  tripB := congrArg (·.1.2.2.2.1) h
  sea := congrArg (·.1.2.2.2.2.2) h
  cons := congrArg (·.2) h
  insts ok := by
    rw [insts_of_sources h]
    exact ⟨ok, fun _ _ e => e⟩

theorem Eases.trans {s t u : State} (h : Eases s t) (k : Eases t u) : Eases s u where
  image := k.image.trans h.image
  step := k.step.trans h.step
  tripA := k.tripA.trans h.tripA
  tripB := k.tripB.trans h.tripB
  sea := k.sea.trans h.sea
  cons := k.cons.trans h.cons
  insts ok :=
    have ⟨okt, ht⟩ := h.insts ok
    have ⟨oku, hu⟩ := k.insts okt
    ⟨oku, fun n o e => ht n o (hu n o e)⟩

/-- What follows changes nothing that commands an output. -/
theorem Eases.still {s t u : State} (k : u.sources = t.sources) (h : Eases s t) : Eases s u :=
  h.trans (.of_sources k)

theorem Eases.foldl {α : Type} {f : State → α → State} (h : ∀ a x, Eases a (f a x)) (l : List α) (s : State) :
    Eases s (l.foldl f s) := by
  induction l generalizing s with
  | nil => exact .refl s
  | cons x l ih => exact (h s x).trans (ih _)

/-- One of the instances is written with outputs that it had. -/
theorem eases_setInst {s : State} {st : Bool} {i : Nat} {v : Inst}
    (h : ∀ o, instBit (some v) o = true → instBit (s.inst st i) o = true) : Eases s (s.setInst st i (some v)) := by
  refine ⟨rfl, rfl, rfl, rfl, rfl, rfl, fun ok => ⟨Tab.ok_set _ _ ok, fun k o => ?_⟩⟩
  change instBit (Tab.get none (Tab.set none s.eng.insts (instKey st i) (some v)) k) o = true → _
  rw [Tab.get_set ok]
  split
  · next e =>
    subst e
    exact h o
  · exact id

/-- One of the instances is written at demand. -/
theorem eases_setInst_safe {s : State} {st : Bool} {i : Nat} {v : Inst} (h : v.safe = true) :
    Eases s (s.setInst st i (some v)) :=
  eases_setInst fun o e => by simp [instBit, h] at e

theorem instImg_num {s : State} {st : Bool} {n : Nat} {i : InstImg} (h : s.instImg st n = some i) : i.num = n := by
  obtain ⟨m, -, hi⟩ := Option.bind_eq_some_iff.1 h
  simpa using List.find?_some hi

theorem toSafe_eases (s : State) (st : Bool) (i : InstImg) : Eases s (s.toSafe st i) := by
  unfold State.toSafe
  split
  · exact .refl s
  · refine .still (State.seeDiffer_sources _) (.still (State.logicRecord_sources ..) ?_)
    exact eases_setInst_safe rfl

theorem shedInst_eases (s : State) (key : Nat) : Eases s (s.shedInst key) := by
  unfold State.shedInst
  dsimp only
  split
  · next v i hv hi =>
    split
    · exact .refl s
    · have drop : Eases s (s.dropResets v) := .of_sources (State.dropResets_sources s v)
      refine .still (State.dropTimers_sources ..) (.trans (drop.trans ?_) (toSafe_eases _ _ i))
      refine eases_setInst fun o e => ?_
      rw [inst_of_sources (State.dropResets_sources s v), instImg_num hi, hv]
      exact e
  · exact .refl s

theorem placeInst_eases (s : State) (key e : Nat) : Eases s (s.placeInst key e) := by
  unfold State.placeInst
  dsimp only
  split
  · next v i hv hi =>
    have put (w : Inst) (hs : w.safe = v.safe) (ho : w.st = v.st) :
        Eases s (s.setInst (decide (1024 ≤ key)) i.num (some w)) := by
      refine eases_setInst fun o e => ?_
      rw [instImg_num hi, hv]
      simpa only [instBit, hs, ho] using e
    split
    · exact put _ rfl rfl
    · refine .trans ?_ (toSafe_eases _ _ i)
      exact put _ rfl rfl
  · exact .refl s

theorem evict_eases (s : State) (e : Nat) : Eases s (s.evict e) := by
  unfold State.evict
  refine .still (State.seeDiffer_sources _) (.still (State.shedRecord_sources ..) ?_)
  refine Eases.foldl (fun a x => ?_) s.eng.insts s
  split
  · exact .refl a
  · next v hv =>
    dsimp only
    split
    · exact .refl a
    · split
      · refine (Eases.of_sources (State.dropResets_sources a v)).trans ?_
        exact eases_setInst_safe rfl
      · exact .refl a

theorem applyPlan_eases (s : State) (p : Plan) : Eases s (s.applyPlan p) := by
  unfold State.applyPlan
  dsimp only
  have shed := Eases.foldl shedInst_eases p.shed s
  have place := Eases.foldl (fun a (x : Nat × Nat) => placeInst_eases a x.1 x.2) p.place (p.shed.foldl State.shedInst s)
  refine .still (State.shedRecord_sources ..) ?_
  exact (shed.trans place).trans (.of_sources rfl)

theorem replace_eases (s : State) : Eases s s.replace := by
  unfold State.replace
  dsimp only
  (repeat' split) <;> first | exact .refl s | exact applyPlan_eases s _

theorem startTest_eases (s : State) (e : Nat) (why : TestWhy) : Eases s (s.startTest e why) := by
  unfold State.startTest
  refine .still (State.setEngSt_sources ..) (.still (State.setEngine_sources ..) ?_)
  exact .still (State.idleTimers_sources ..) (evict_eases s e)

theorem joinOne_eases (s : State) (need : Bool) : Eases s (s.joinOne need) := by
  unfold State.joinOne
  dsimp only
  split
  · exact .refl s
  · split
    · exact startTest_eases s _ _
    · exact .refl s

theorem settleEngine_eases (s : State) (e : Nat) : Eases s (s.settleEngine e) := by
  have same {t : State} (h : t.sources = s.sources) : Eases s t := .of_sources h
  unfold State.settleEngine
  dsimp only
  split
  · split
    · exact (same (State.setEngSt_sources ..)).trans (replace_eases _)
    · exact .refl s
  · exact same (by simp)
  · exact same (by simp)
  · exact .refl s

theorem settle_eases (s : State) : Eases s s.settle := by
  unfold State.settle
  dsimp only
  have round (t : State) : Eases t ((List.range 8).foldl State.settleEngine t) := .foldl settleEngine_eases _ t
  exact ((round s).trans (round _)).trans (joinOne_eases _ _)

theorem resetInst_eases (s : State) (st : Bool) (i op : Nat) : Eases s (s.resetInst st i op).1 := by
  unfold State.resetInst
  split
  · exact .refl s
  · next v hv =>
    split
    · exact .refl s
    · refine eases_setInst fun o e => ?_
      rw [hv]
      exact e

theorem detachEngine_eases (s : State) (event : Nat) : Eases s (s.detachEngine event) := by
  unfold State.detachEngine
  split
  · exact .refl s
  · dsimp only
    refine Eases.trans (.of_sources ?_) (settle_eases _)
    simp only [State.announce_sources, State.taintRecord_sources]
    (repeat' split) <;> simp

end Sys2Proof.Machine

/-! Commands for outputs that do not rise (R19), and the end of staging (R323). -/

namespace Sys2Proof.Machine

/-! ### Tables cut off at a key -/

section
variable {α : Type} [DecidableEq α]

theorem Tab.okFrom_filter {d : α} {t : Tab α} {a : Nat} (p : Nat × α → Bool) (h : Tab.okFrom d a t = true) :
    Tab.okFrom d a (t.filter p) = true := by
  induction t generalizing a with
  | nil => rfl
  | cons e t ih =>
    simp only [Tab.okFrom, Bool.and_eq_true, decide_eq_true_eq] at h
    obtain ⟨⟨ha, hd⟩, ht⟩ := h
    rw [List.filter_cons]
    split
    · simp only [Tab.okFrom, Bool.and_eq_true, decide_eq_true_eq]
      exact ⟨⟨ha, hd⟩, ih ht⟩
    · exact ih (Tab.okFrom_mono ht (by omega))

theorem Tab.ok_filter {d : α} {t : Tab α} (p : Nat × α → Bool) (h : Tab.ok d t = true) :
    Tab.ok d (t.filter p) = true := Tab.okFrom_filter p h

theorem Tab.get_filter_lt_from {d : α} {t : Tab α} {a : Nat} (n k : Nat) (h : Tab.okFrom d a t = true) :
    Tab.get d (t.filter fun e => decide (e.1 < n)) k = if k < n then Tab.get d t k else d := by
  induction t generalizing a with
  | nil => simp [Tab.get]
  | cons e t ih =>
    simp only [Tab.okFrom, Bool.and_eq_true, decide_eq_true_eq] at h
    obtain ⟨-, ht⟩ := h
    rw [List.filter_cons]
    simp only [Tab.get, decide_eq_true_eq]
    by_cases he : e.1 < n
    · simp only [if_pos he, Tab.get, ih ht]
      grind
    · simp only [if_neg he, ih ht]
      have := fun hk : k < e.1 + 1 => Tab.get_below ht hk
      grind

/-- A table of the keys below `n`. -/
theorem Tab.get_filter_lt {d : α} {t : Tab α} (n k : Nat) (h : Tab.ok d t = true) :
    Tab.get d (t.filter fun e => decide (e.1 < n)) k = if k < n then Tab.get d t k else d :=
  Tab.get_filter_lt_from n k h

end

/-! ### Commands that do not rise -/

/-- From `s` to `t` no part of a command for an output rose. -/
structure Quiet (s t : State) : Prop where
  image : t.cfg.image = s.cfg.image
  step  : t.pwr.step = s.pwr.step
  tripA : t.lgc.tripA = s.lgc.tripA
  tripB : t.lgc.tripB = s.lgc.tripB
  inst  : ∀ i o, t.instOut false i o = true → s.instOut false i o = true
  latch : ∀ r l, r < 64 → t.latch false r l = s.latch false r l
  conn  : ∀ k b, k < 512 → t.connBit false k b = s.connBit false k b

theorem Quiet.refl (s : State) : Quiet s s :=
  ⟨rfl, rfl, rfl, rfl, fun _ _ e => e, fun _ _ _ => rfl, fun _ _ _ => rfl⟩

theorem Quiet.trans {s t u : State} (h : Quiet s t) (k : Quiet t u) : Quiet s u where
  image := k.image.trans h.image
  step := k.step.trans h.step
  tripA := k.tripA.trans h.tripA
  tripB := k.tripB.trans h.tripB
  inst i o e := h.inst i o (k.inst i o e)
  latch r l hr := (k.latch r l hr).trans (h.latch r l hr)
  conn n b hn := (k.conn n b hn).trans (h.conn n b hn)

/-- A field of `n` bits is below 2 ^ n. -/
theorem bf_lt (w : Word) (hi lo : Nat) : bf w hi lo < 2 ^ (hi + 1 - lo) := Nat.mod_lt _ (by positivity)

/-- R19: a command is ON only where all its sources are. -/
theorem command_iff (s : State) (st : Bool) (k : Nat) : s.command st k = true ↔
    ∃ m, s.img st = some m ∧ bitOf (m.ow k) 31 = true ∧ bf (m.ow k) 27 24 ≠ 0 ∧
      (bitOf (m.ow k) 24 = true → s.latch st (bf (m.oa k) 31 26) (bf (m.oa k) 25 20) = true) ∧
      (bitOf (m.ow k) 25 = true → s.instOut st (bf (m.ob k) 25 16) (bf (m.ob k) 3 0) = true) ∧
      (bitOf (m.ow k) 26 = true → s.connBit st (bf (m.oa k) 16 9) (bf (m.oa k) 8 0) = true) := by
  unfold State.command
  cases s.img st with
  | none => simp
  | some m =>
    simp only [Option.some.injEq, exists_eq_left', Bool.and_eq_true, Bool.or_eq_true, bne_iff_ne, ne_eq,
      Bool.not_eq_true', and_assoc]
    simp only [← Bool.not_eq_true, ← imp_iff_not_or]

theorem command_mono {s t : State} {k : Nat} (image : t.cfg.image = s.cfg.image)
    (inst : ∀ i o, t.instOut false i o = true → s.instOut false i o = true)
    (latch : ∀ r l, r < 64 → t.latch false r l = s.latch false r l)
    (conn : ∀ m, s.cfg.image = some m → bitOf (m.ow k) 26 = true →
      ∀ n b, n < 512 → t.connBit false n b = s.connBit false n b)
    (h : t.command false k = true) : s.command false k = true := by
  obtain ⟨m, hm, used, some, hl, hi, hc⟩ := (command_iff t false k).1 h
  have hm : s.cfg.image = .some m := image.symm.trans hm
  refine (command_iff s false k).2 ⟨m, hm, used, some, fun b => ?_, fun b => inst _ _ (hi b), fun b => ?_⟩
  · exact (latch _ _ (bf_lt _ 31 26)).symm.trans (hl b)
  · exact (conn m hm b _ _ ((bf_lt _ 16 9).trans (by norm_num))).symm.trans (hc b)

/-- R19: where nothing of a command rose, no matrix copy turned it ON. -/
theorem matrix_mono {s t : State} {q : Side} {k : Nat} (image : t.cfg.image = s.cfg.image)
    (step : t.pwr.step = s.pwr.step) (tripA : t.lgc.tripA = s.lgc.tripA) (tripB : t.lgc.tripB = s.lgc.tripB)
    (command : t.command false k = true → s.command false k = true) (h : t.matrix q k = true) :
    s.matrix q k = true := by
  have sourced : t.tripSourced k = s.tripSourced k := by
    simp only [State.tripSourced, State.img, image, Bool.false_eq_true, ↓reduceIte]
  have trips : t.trips q = s.trips q := by cases q <;> assumption
  simp only [State.matrix, Bool.and_eq_true, sourced, trips, step] at h ⊢
  obtain ⟨⟨on, started⟩, untripped⟩ := h
  exact ⟨⟨command on, started⟩, untripped⟩

theorem Quiet.matrix {s t : State} (h : Quiet s t) {q : Side} {k : Nat} (on : t.matrix q k = true) :
    s.matrix q k = true :=
  matrix_mono h.image h.step h.tripA h.tripB
    (command_mono h.image h.inst h.latch fun _ _ _ => h.conn) on

/-- The latches of the running image are read from it and from the sea. -/
theorem latch_congr {s t : State} {r : Nat} (image : t.cfg.image = s.cfg.image) (irm : t.irm r = s.irm r)
    (room : ∀ p, (s.irm r).room = some p → t.room p = s.room p) (l : Nat) :
    t.latch false r l = s.latch false r l := by
  have img : t.roomImg false r = s.roomImg false r := by
    simp only [State.roomImg, State.img, image, Bool.false_eq_true, ↓reduceIte]
  have key : roomKey false r = r := rfl
  simp only [State.latch, State.latchAs, img, key, irm, Bool.false_and, Bool.false_eq_true, ↓reduceIte]
  cases hr : (s.irm r).room with
  | none => rfl
  | some p => simp only [room p hr]

theorem Quiet.of_sources {s t : State} (h : t.sources = s.sources) : Quiet s t := by
  have sea : t.sea = s.sea := congrArg (·.1.2.2.2.2.2) h
  have image : t.cfg.image = s.cfg.image := congrArg (·.1.1) h
  refine ⟨image, congrArg (·.1.2.1) h, congrArg (·.1.2.2.1) h, congrArg (·.1.2.2.2.1) h, fun i o e => ?_,
    fun r l _ => latch_congr image ?_ (fun p _ => ?_) l, fun k b _ => ?_⟩
  · rwa [State.instOut, inst_of_sources h] at e
  · rw [State.irm, sea, State.irm]
  · rw [State.room, sea, State.room]
  · rw [State.connBit, State.cons, show t.lnk.cons = s.lnk.cons from congrArg (·.2) h, State.connBit, State.cons]

/-! ### What the commands of the porch keep true -/

/-- The tables that a command for an output is read from are in canonical form (log 103). -/
structure SourceTables (s : State) : Prop where
  insts : Tab.ok none s.eng.insts = true
  imap  : Tab.ok .none s.sea.imap = true
  rooms : Tab.ok .start s.sea.rooms = true
  cons  : Tab.ok .start s.lnk.cons = true

/-- No room of the running image lies in a room of `l`. -/
def State.apartFrom (s : State) (l : List Nat) : Prop :=
  ∀ k r, k < 64 → (s.irm k).room = some r → r ∉ l

/-- Nothing rose from `s` to `t`, and the tables keep their form. -/
def Mild (s t : State) : Prop := SourceTables s → SourceTables t ∧ Quiet s t

theorem Mild.trans {s t u : State} (h : Mild s t) (k : Mild t u) : Mild s u := fun ok =>
  have ⟨okt, qt⟩ := h ok
  have ⟨oku, qu⟩ := k okt
  ⟨oku, qt.trans qu⟩

theorem Eases.mild {s t : State} (h : Eases s t) : Mild s t := fun ok => by
  obtain ⟨oki, falls⟩ := h.insts ok.insts
  have irm (k : Nat) : t.irm k = s.irm k := by rw [State.irm, h.sea, State.irm]
  have room (p : Nat) : t.room p = s.room p := by rw [State.room, h.sea, State.room]
  refine ⟨⟨oki, h.sea ▸ ok.imap, h.sea ▸ ok.rooms, h.cons ▸ ok.cons⟩, ?_⟩
  refine ⟨h.image, h.step, h.tripA, h.tripB, fun i o => falls i o, fun r l _ => ?_, fun k b _ => ?_⟩
  · exact latch_congr h.image (irm r) (fun p _ => room p) l
  · rw [State.connBit, State.cons, h.cons, State.connBit, State.cons]

/-- What follows changes nothing that commands an output. -/
theorem Mild.still {s t u : State} (k : u.sources = t.sources) (h : Mild s t) : Mild s u :=
  h.trans (Eases.of_sources k).mild

/-! ### Physical rooms apart from the running image's -/

/-- From `s` to `t` nothing that commands an output changed but the rooms of `l` and the image rooms that are
staged. -/
structure Berths (l : List Nat) (s t : State) : Prop where
  image : t.cfg.image = s.cfg.image
  step  : t.pwr.step = s.pwr.step
  tripA : t.lgc.tripA = s.lgc.tripA
  tripB : t.lgc.tripB = s.lgc.tripB
  insts : t.eng.insts = s.eng.insts
  cons  : t.lnk.cons = s.lnk.cons
  imap  : Tab.ok .none s.sea.imap = true → Tab.ok .none t.sea.imap = true ∧ ∀ k < 64, t.irm k = s.irm k
  rooms : Tab.ok .start s.sea.rooms = true → Tab.ok .start t.sea.rooms = true ∧ ∀ p ∉ l, t.room p = s.room p

section
variable {l : List Nat}

theorem Berths.refl (s : State) : Berths l s s :=
  ⟨rfl, rfl, rfl, rfl, rfl, rfl, fun h => ⟨h, fun _ _ => rfl⟩, fun h => ⟨h, fun _ _ => rfl⟩⟩

theorem Berths.trans {s t u : State} (h : Berths l s t) (k : Berths l t u) : Berths l s u where
  image := k.image.trans h.image
  step := k.step.trans h.step
  tripA := k.tripA.trans h.tripA
  tripB := k.tripB.trans h.tripB
  insts := k.insts.trans h.insts
  cons := k.cons.trans h.cons
  imap ok :=
    have ⟨okt, et⟩ := h.imap ok
    have ⟨oku, eu⟩ := k.imap okt
    ⟨oku, fun n hn => (eu n hn).trans (et n hn)⟩
  rooms ok :=
    have ⟨okt, et⟩ := h.rooms ok
    have ⟨oku, eu⟩ := k.rooms okt
    ⟨oku, fun p hp => (eu p hp).trans (et p hp)⟩

theorem Berths.of_sources {s t : State} (h : t.sources = s.sources) : Berths l s t := by
  have sea : t.sea = s.sea := congrArg (·.1.2.2.2.2.2) h
  refine ⟨congrArg (·.1.1) h, congrArg (·.1.2.1) h, congrArg (·.1.2.2.1) h, congrArg (·.1.2.2.2.1) h,
    insts_of_sources h, congrArg (·.2) h, fun ok => ⟨by rwa [sea], fun k _ => ?_⟩,
    fun ok => ⟨by rwa [sea], fun p _ => ?_⟩⟩
  · rw [State.irm, sea, State.irm]
  · rw [State.room, sea, State.room]

theorem Berths.foldl {α : Type} {f : State → α → State} {xs : List α} (h : ∀ a, ∀ x ∈ xs, Berths l a (f a x))
    (s : State) : Berths l s (xs.foldl f s) := by
  induction xs generalizing s with
  | nil => exact .refl s
  | cons x xs ih =>
    exact (h s x List.mem_cons_self).trans (ih (fun a y hy => h a y (List.mem_cons_of_mem x hy)) _)

theorem setRoom_berths (s : State) {r : Nat} (hr : r ∈ l) (v : Room) : Berths l s (s.setRoom r v) := by
  refine ⟨rfl, rfl, rfl, rfl, rfl, rfl, fun ok => ⟨ok, fun _ _ => rfl⟩, fun ok => ⟨Tab.ok_set _ _ ok, fun p hp => ?_⟩⟩
  exact (Tab.get_set ok r p v).trans (if_neg fun e : p = r => hp (e ▸ hr))

theorem setIrm_berths (s : State) {key : Nat} (hk : 64 ≤ key) (v : IRoom) : Berths l s (s.setIrm key v) := by
  refine ⟨rfl, rfl, rfl, rfl, rfl, rfl, fun ok => ⟨Tab.ok_set _ _ ok, fun k hlt => ?_⟩, fun ok => ⟨ok, fun _ _ => rfl⟩⟩
  exact (Tab.get_set ok key k v).trans (if_neg (by omega))

theorem Berths.mild {s t : State} (h : Berths l s t) (apart : s.apartFrom l) : Mild s t := fun ok => by
  obtain ⟨okm, irm⟩ := h.imap ok.imap
  obtain ⟨okr, room⟩ := h.rooms ok.rooms
  refine ⟨⟨h.insts ▸ ok.insts, okm, okr, h.cons ▸ ok.cons⟩, ?_⟩
  refine ⟨h.image, h.step, h.tripA, h.tripB, fun i o e => ?_, fun r l hr => ?_, fun k b _ => ?_⟩
  · rwa [State.instOut, State.inst, h.insts] at e
  · exact latch_congr h.image (irm r hr) (fun p hp => room p (apart r p hr hp)) l
  · rw [State.connBit, State.cons, h.cons, State.connBit, State.cons]

end

/-! ### The end of staging -/

/-- The tables are in form, and the rooms of the running image lie apart from those of the staged one. -/
structure Berthed (s : State) : Prop where
  tables : SourceTables s
  apart  : s.apartFrom s.stagedRooms

/-- What an operation keeps that may end staging: nothing rises. -/
def Tame (s t : State) : Prop := Berthed s → Berthed t ∧ Quiet s t

theorem Tame.trans {s t u : State} (h : Tame s t) (k : Tame t u) : Tame s u := fun ok =>
  have ⟨okt, qt⟩ := h ok
  have ⟨oku, qu⟩ := k okt
  ⟨oku, qt.trans qu⟩

theorem Eases.tame {s t : State} (h : Eases s t) : Tame s t := fun ok => by
  obtain ⟨tables, quiet⟩ := h.mild ok.tables
  refine ⟨⟨tables, ?_⟩, quiet⟩
  have apart := ok.apart
  unfold State.apartFrom State.stagedRooms State.irm at *
  rwa [h.sea]

theorem Tame.of_sources {s t : State} (h : t.sources = s.sources) : Tame s t := (Eases.of_sources h).tame

theorem Tame.refl (s : State) : Tame s s := .of_sources rfl

theorem Tame.foldl {α : Type} {f : State → α → State} (h : ∀ a x, Tame a (f a x)) (l : List α) (s : State) :
    Tame s (l.foldl f s) := by
  induction l generalizing s with
  | nil => exact .refl s
  | cons x l ih => exact (h s x).trans (ih _)

theorem roomToTest_berths {l : List Nat} (s : State) {r : Nat} (hr : r ∈ l) (b : Bool) :
    Berths l s (s.roomToTest r b) := by
  unfold State.roomToTest
  dsimp only
  split
  · exact .refl s
  · exact setRoom_berths s hr _

/-- The state without its staged entries (R323). -/
def State.unstaged (s : State) : State :=
  { s with
    eng := { s.eng with insts := s.eng.insts.filter fun e => decide (e.1 < 1024),
                        masks := s.eng.masks.filter fun e => decide (e.1 < 32) }
    sea := { s.sea with imap := s.sea.imap.filter fun e => decide (e.1 < 64) }
    tmr := { s.tmr with timers := s.tmr.timers.filter fun e => !e.2.shadowed }
    lnk := { s.lnk with cons := s.lnk.cons.filter fun e => decide (e.1 < 512)
                        control := s.lnk.control.filter fun e => decide (e.1 < 512) }
    fld := { s.fld with seqA := { s.fld.seqA with loaded := false },
                        seqB := { s.fld.seqB with loaded := false } } }

theorem unstaged_mild (s : State) : Mild s s.unstaged := fun ok => by
  have irm (k : Nat) (hk : k < 64) : s.unstaged.irm k = s.irm k :=
    (Tab.get_filter_lt 64 k ok.imap).trans (if_pos hk)
  refine ⟨⟨Tab.ok_filter _ ok.insts, Tab.ok_filter _ ok.imap, ok.rooms, Tab.ok_filter _ ok.cons⟩,
    rfl, rfl, rfl, rfl, fun i o e => ?_, fun r l hr => ?_, fun k b hk => ?_⟩
  · change instBit (Tab.get none (s.eng.insts.filter fun e => decide (e.1 < 1024)) i) o = true at e
    rw [Tab.get_filter_lt 1024 i ok.insts] at e
    split at e
    · exact e
    · exact absurd e Bool.false_ne_true
  · exact latch_congr (s := s) (t := s.unstaged) rfl (irm r hr) (fun _ _ => rfl) l
  · change payloadBit (Tab.get .start (s.lnk.cons.filter fun e => decide (e.1 < 512)) k).val b = _
    rw [Tab.get_filter_lt 512 k ok.cons, if_pos hk]
    rfl

theorem unstaged_stagedRooms (s : State) : s.unstaged.stagedRooms = [] := by
  refine List.flatMap_eq_nil_iff.2 fun e he => if_pos ?_
  simpa using (List.mem_filter.1 he).2

theorem endStage_tame (s : State) (why : StageEnd) : Tame s (s.endStage why) := by
  unfold State.endStage
  split
  · exact .refl s
  · refine (Tame.of_sources (State.dropStagedResets_sources s)).trans ?_
    generalize s.dropStagedResets = s1
    have tested : Berths s1.stagedRooms s1 (s1.stagedRooms.foldl (fun a r => a.roomToTest r false) s1) :=
      .foldl (fun a r hr => roomToTest_berths a hr false) s1
    dsimp only
    generalize s1.stagedRooms.foldl (fun a r => a.roomToTest r false) s1 = s2 at tested ⊢
    have bare : Tame s1 s2.unstaged := fun ok => by
      obtain ⟨tables, quiet⟩ := ((tested.mild ok.apart).trans (unstaged_mild s2)) ok.tables
      refine ⟨⟨tables, fun k r _ _ => ?_⟩, quiet⟩
      rw [unstaged_stagedRooms]
      exact List.not_mem_nil
    refine bare.trans (.of_sources ?_)
    simp [State.setSlotSt]
    rfl

theorem redistribute_tame (s : State) : Tame s s.redistribute := by
  unfold State.redistribute
  dsimp only
  have ended : Tame s (if s.cfg.staged.isSome && stagingCosts s.inService (s.items true) then s.endStage .capacity
      else s) := by
    split
    · exact endStage_tame s _
    · exact .refl s
  generalize (if s.cfg.staged.isSome && stagingCosts s.inService (s.items true) then s.endStage .capacity else s) = s1
    at ended ⊢
  split
  · exact ended
  · exact ended.trans ((joinOne_eases s1 _).trans (applyPlan_eases _ _)).tame

/-- Table 14.4. -/
theorem chargeUnit_tame (s : State) (u : Nat) : Tame s (s.chargeUnit u) := by
  unfold State.chargeUnit
  dsimp only
  split
  · refine (Tame.of_sources (State.suspectEngine_sources s u .engine)).trans ?_
    exact (redistribute_tame _).trans (settle_eases _).tame
  · refine .of_sources ?_
    (repeat' split) <;> simp

theorem chargeUnits_tame (s : State) : Tame s s.chargeUnits := by
  refine .foldl (fun a u => ?_) (List.range 19) s
  split
  · exact (Tame.of_sources (State.setUnit_sources ..)).trans (chargeUnit_tame _ u)
  · exact .refl a

end Sys2Proof.Machine

/-! What the host's commands and the porch's register writes leave of a command for an output (R19, R335): nothing
rises, but for the connections of an expelled node (R362). -/

namespace Sys2Proof.Machine

/-! ### Staging (R320) -/

theorem mem_of_chooseRoom {free : List Nat} {old r : Nat} {apart : Option Side}
    (h : chooseRoom free old apart = some r) : r ∈ free := by
  simp only [chooseRoom, Option.or_eq_some_iff] at h
  have mem (x : List Nat) (hx : x = free.filter fun r => apart != some (roomSide r)) (hr : r ∈ x) : r ∈ free :=
    List.mem_of_mem_filter (hx ▸ hr)
  rcases h with (h | ⟨-, h⟩) | ⟨-, h⟩
  · exact mem _ rfl (List.mem_of_find?_eq_some h)
  · exact mem _ rfl (List.mem_of_find?_eq_some h)
  · exact mem _ rfl (List.mem_of_mem_head? h)

theorem mem_of_chooseMirror {free : List Nat} {old r : Nat} (h : chooseMirror free old = some r) : r ∈ free :=
  List.mem_of_find?_eq_some h

theorem mem_of_pickMirror {free : List Nat} {x : RoomImg × Nat} {r : Nat} (h : pickMirror free x = some r) :
    r ∈ free := by
  unfold pickMirror at h
  split at h
  · next c =>
    simp only [Bool.and_eq_true, List.contains_iff_mem] at c
    exact Option.some.inj h ▸ c.1
  · exact mem_of_chooseMirror h

/-- What is taken was free, and so is what is left. -/
theorem mem_of_takeRooms {α : Type} {pick : List Nat → α → Option Nat}
    (hp : ∀ free x r, pick free x = some r → r ∈ free) (xs : List α) (free : List Nat) :
    (∀ y ∈ (takeRooms pick xs free).1, ∀ r, y.2 = some r → r ∈ free) ∧
      ∀ r ∈ (takeRooms pick xs free).2, r ∈ free := by
  induction xs generalizing free with
  | nil => exact ⟨fun y hy => absurd hy List.not_mem_nil, fun r hr => hr⟩
  | cons x xs ih =>
    unfold takeRooms
    split
    · next p hx =>
      obtain ⟨taken, left⟩ := ih (free.erase p)
      refine ⟨fun y hy r hr => ?_, fun r hr => List.mem_of_mem_erase (left r hr)⟩
      rcases List.mem_cons.1 hy with rfl | hy
      · exact Option.some.inj hr ▸ hp _ _ _ hx
      · exact List.mem_of_mem_erase (taken y hy r hr)
    · obtain ⟨taken, left⟩ := ih free
      refine ⟨fun y hy r hr => ?_, left⟩
      rcases List.mem_cons.1 hy with rfl | hy
      · cases hr
      · exact taken y hy r hr

/-- The rooms of a staged image are found among the free ones (R320). -/
theorem mem_of_planStaged (m : Image) (free : List Nat) :
    (∀ x ∈ (planStaged m free).rooms, ∀ r, x.2 = some r → r ∈ free) ∧
      ∀ x ∈ (planStaged m free).mirrors, ∀ r, x.2 = some r → r ∈ free := by
  obtain ⟨taken, left⟩ := mem_of_takeRooms (pick := fun f (x : RoomImg) => chooseRoom f x.iroom none)
    (fun _ _ _ => mem_of_chooseRoom) m.rooms free
  refine ⟨taken, fun x hx r hr => left r ?_⟩
  exact (mem_of_takeRooms (fun _ _ _ => mem_of_pickMirror) _ _).1 x hx r hr

section
variable {l : List Nat}

theorem putRoom_berths (s : State) (key : Nat) {r : Nat} (hr : r ∈ l) (m : RoomImg) (b : Bool) :
    Berths l s (s.putRoom key r m b) := setRoom_berths s hr _

theorem putImageRoom_berths (s : State) {x : RoomImg × Option Nat} (hx : ∀ r, x.2 = some r → r ∈ l) :
    Berths l s (s.putImageRoom true x) := by
  have staged : 64 ≤ roomKey true x.1.iroom := Nat.le_add_right 64 _
  unfold State.putImageRoom
  dsimp only
  split
  · next r hr =>
    have put := (putRoom_berths s (roomKey true x.1.iroom) (hx r hr) x.1 false).trans
      (setIrm_berths _ staged { IRoom.none with room := some r })
    exact put
  · exact setIrm_berths s staged _

theorem putImageMirror_berths (s : State) {x : (RoomImg × Nat) × Option Nat} (hx : ∀ r, x.2 = some r → r ∈ l) :
    Berths l s (s.putImageMirror true x) := by
  unfold State.putImageMirror
  dsimp only
  split
  · next r hr =>
    exact (putRoom_berths s (roomKey true x.1.1.iroom) (hx r hr) x.1.1 true).trans
      (setIrm_berths _ (Nat.le_add_right 64 _) _)
  · exact .refl s

theorem putPlan_berths (s : State) {p : RoomPlan} (rooms : ∀ x ∈ p.rooms, ∀ r, x.2 = some r → r ∈ l)
    (mirrors : ∀ x ∈ p.mirrors, ∀ r, x.2 = some r → r ∈ l) : Berths l s (s.putPlan true p) :=
  (Berths.foldl (fun a x hx => putImageRoom_berths a (rooms x hx)) s).trans
    (Berths.foldl (fun a x hx => putImageMirror_berths a (mirrors x hx)) _)

end

theorem putInsts_eases (s : State) (m : Image) (st : Bool) : Eases s (s.putInsts m st) := by
  unfold State.putInsts
  refine Eases.trans ?_ (settle_eases _)
  exact .foldl (fun a i => eases_setInst_safe rfl) m.insts s

/-- A staged connection starts beside those of the running image. -/
theorem startCons_mild (s : State) (k : Nat) (c : ConsImg) : Mild s (s.startCons true k c) := fun ok => by
  refine ⟨⟨ok.insts, ok.imap, ok.rooms, Tab.ok_set _ _ ok.cons⟩,
    rfl, rfl, rfl, rfl, fun _ _ e => e, fun _ _ _ => rfl, fun n b hn => ?_⟩
  change payloadBit (Tab.get .start (Tab.set .start s.lnk.cons (512 + k) _) n).val b = _
  rw [Tab.get_set ok.cons, if_neg (by omega)]
  rfl

theorem imageStage_quiet (s : State) (k op : Nat) (tables : SourceTables s) (apart : s.apartFrom s.freeRooms) :
    Quiet s (s.imageStage k op).1 := by
  have still : Quiet s s := .refl s
  have nothing {t u : State} (h : u.sources = t.sources) : Mild t u := (Eases.of_sources h).mild
  have conns (l : List (Nat × ConsImg)) (t : State) :
      Mild t (l.foldl (fun acc x => acc.startCons true x.1 x.2) t) := by
    induction l generalizing t with
    | nil => exact nothing rfl
    | cons x l ih => exact (startCons_mild t x.1 x.2).trans (ih _)
  unfold State.imageStage
  dsimp only
  split
  · exact still
  split
  · exact still
  split
  · exact still
  split
  · exact still
  next m hm =>
  split
  · exact still
  obtain ⟨rooms, mirrors⟩ := mem_of_planStaged m s.freeRooms
  refine (Mild.still (State.finish_sources ..) (.still (State.record_sources ..) (.still (State.seeDiffer_sources _)
    (.still (State.setSlot_sources ..) (.trans ?_ (conns _ _))))) tables).2
  refine .still (State.shadowTimers_sources ..) (.trans ?_ (putInsts_eases _ m true).mild)
  refine .trans ?_ ((putPlan_berths _ rooms mirrors).mild apart)
  exact nothing rfl

/-! ### Connections of an expelled node (R362) -/

theorem foldl_wiring {α : Type} {f : State → α → State} (h : ∀ a x, (f a x).wiring = a.wiring) (l : List α)
    (s : State) : (l.foldl f s).wiring = s.wiring := by
  induction l generalizing s with
  | nil => rfl
  | cons x l ih => rw [List.foldl_cons, ih, h]

theorem consTo_wiring (s : State) (st : Bool) (k : Nat) (c : ConsImg) (old new : Cons) :
    (s.consTo st k c old new).wiring = s.wiring := by
  have set (v : Cons) : (s.setCons (consKey st k) v).wiring = s.wiring := rfl
  unfold State.consTo
  dsimp only
  split
  · exact (wiring_of_sources (State.seeDiffer_sources _)).trans (set _)
  · exact (wiring_of_sources ((State.seeDiffer_sources _).trans (State.record_sources ..))).trans (set _)

theorem failCons_wiring (s : State) (st : Bool) (k : Nat) (c : ConsImg) : (s.failCons st k c).wiring = s.wiring := by
  unfold State.failCons
  dsimp only
  split
  · rfl
  · exact consTo_wiring ..

theorem expelCons_wiring (s t : State) (u : Nat) : (s.expelCons t u).wiring = s.wiring := by
  unfold State.expelCons State.overCons
  refine foldl_wiring (fun a st => foldl_wiring (fun b x => ?_) _ a) _ s
  dsimp only
  split
  · exact failCons_wiring b st x.1 x.2
  · rfl

theorem peerExpel_wiring (s : State) (uid : Nat) : (s.peerExpel uid).1.wiring = s.wiring := by
  unfold State.peerExpel
  dsimp only
  split
  · rfl
  split
  · rfl
  split
  · rfl
  refine (expelCons_wiring _ _ _).trans (wiring_of_sources ?_)
  simp [State.routesDue]

/-! ### Registers (R345) -/

/-- The host's write is a local one of the porch, but that it reaches no check-value unit. -/
theorem writeReg_host (s : State) (w : Agent) (a : Nat) (v : Word) :
    (s.writeReg w true a v).1 = if a / 0x10000 = 4 then s else (s.writeReg w false a v).1 := by
  by_cases hb : a / 0x10000 = 4
  · simp only [State.writeReg, hb, State.writeCvu, if_true]
  · rw [if_neg hb]
    unfold State.writeReg
    dsimp only
    split
    case h_3 h4 => exact absurd h4 hb
    all_goals rfl

theorem writeCvu_tame (s : State) (w : Agent) (host : Bool) (o : Nat) (v : Word) : Tame s (s.writeCvu w host o v) := by
  unfold State.writeCvu
  split
  · exact .refl s
  split
  · exact (Tame.of_sources (State.writeUnit_sources ..)).trans (chargeUnits_tame _)
  · exact .refl s

theorem writeReg_local_tame (s : State) (w : Agent) {a : Nat} (v : Word) (ha : a ≠ 0x10014) :
    Tame s (s.writeReg w false a v).1 := by
  by_cases hb : a / 0x10000 ∈ [1, 3, 4, 5, 6]
  · simp only [List.mem_cons, List.not_mem_nil, or_false] at hb
    rcases hb with hb | hb | hb | hb | hb
    · rw [State.writeReg_pwr_ignored s w v hb (.inl ha)]
      exact .refl s
    · rw [State.writeReg_tmr s w v hb]
      exact .of_sources (State.writeTmr_sources ..)
    · rw [State.writeReg_cvu s w v hb]
      exact writeCvu_tame s w false _ v
    · rw [State.writeReg_fld s w v hb]
      exact .of_sources (State.writeFld_sources ..)
    · rw [State.writeReg_cnv s w v hb]
      exact .of_sources (State.writeCnv_sources ..)
  · rw [State.writeReg_readOnlyBlock s w v hb]
    exact .refl s

theorem writeReg_tame (s : State) (w : Agent) (host : Bool) {a : Nat} (v : Word) (ha : a ≠ 0x10014) :
    Tame s (s.writeReg w host a v).1 := by
  have here := writeReg_local_tame s w v ha
  cases host
  · exact here
  · rw [writeReg_host]
    split
    · exact .refl s
    · exact here

theorem writeRegsList_tame (s : State) {l : List (Nat × Word)} (hl : ∀ e ∈ l, e.1 ≠ 0x10014) :
    Tame s (s.writeRegsList l).1 := by
  induction l generalizing s with
  | nil => exact .refl s
  | cons e l ih =>
    have one := writeReg_tame s .porch true e.2 (hl e List.mem_cons_self)
    simp only [State.writeRegsList]
    split
    · exact one.trans (ih _ fun x hx => hl x (List.mem_cons_of_mem e hx))
    · exact one

theorem writeRegs_tame (s : State) (h : Hdr) {b : List Byte} (hb : ∀ i, numAt b (4 + 8 * i) 4 ≠ 0x10014) :
    Tame s (s.writeRegs h b).1 := by
  unfold State.writeRegs
  dsimp only
  split
  · exact .refl s
  split
  · exact .refl s
  split
  · exact .refl s
  refine writeRegsList_tame s fun e he => ?_
  obtain ⟨i, -, rfl⟩ := List.mem_map.1 he
  exact hb i

/-! ### Requests (R333) -/

/-- A request is served by its own rules or refused with no effect, and answered. -/
theorem serve_eq (s : State) (h : Hdr) (k : Kind) (b : Bool) (op : Nat) (eff : State → Nat → Answer) :
    ∃ r : Answer, (r.1 = s ∨ r = eff s op) ∧
      s.serve h k b op eff =
        (if r.2.1 = stAccepted then r.1 else r.1.finish op r.2.1 r.2.2).respond h k.opcode r.2.1 r.2.2 := by
  refine ⟨_, ?_, rfl⟩
  split_ifs <;> simp

section
variable {s : State} {h : Hdr} {k : Kind} {b : Bool} {eff : State → Nat → Answer}

/-- What neither the judgement of a request nor its answer touches, and its own rules keep, stands at its end. -/
theorem request_keeps {P : State → Prop} (hP : ∀ t u, u.sources = t.sources → P t → P u) (hs : P s)
    (he : ∀ p op, P (eff { s with por := p } op).1) : P (s.request h k b eff) := by
  have still {u : State} (hu : u.sources = s.sources) : P u := hP s u hu hs
  have serve (p : Por) (op : Nat) : P (({ s with por := p } : State).serve h k b op eff) := by
    obtain ⟨r, hr, e⟩ := serve_eq { s with por := p } h k b op eff
    have same : P { s with por := p } := still rfl
    have effect : P r.1 := by
      rcases hr with hr | rfl
      · rw [hr]
        exact same
      · exact he p op
    rw [e]
    refine hP _ _ (State.respond_sources ..) ?_
    split
    · exact effect
    · exact hP _ _ (State.finish_sources ..) effect
  unfold State.request
  split
  · exact hs
  split
  · exact still (State.respondBare_sources ..)
  split
  · split
    · exact still (State.respond_sources ..)
    · exact serve s.por 0
  unfold State.inSession
  dsimp only
  split
  · exact still (State.respond_sources ..)
  · split
    · exact still (by simp)
    · exact still (by simp)
    · split <;> exact still (by simp)
    · split
      · exact serve _ _
      · exact still (State.respond_sources ..)

theorem quiet_request_of_sources (he : ∀ t op, (eff t op).1.sources = t.sources) :
    Quiet s (s.request h k b eff) :=
  request_keeps (fun _ _ hu q => q.trans (.of_sources hu)) (.refl s) fun p op => .of_sources (he { s with por := p } op)

theorem quiet_request_of_tame (ok : Berthed s) (he : ∀ t op, Tame t (eff t op).1) :
    Quiet s (s.request h k b eff) :=
  request_keeps (fun _ _ hu q => q.trans (.of_sources hu)) (.refl s) fun p op =>
    have first : Tame s { s with por := p } := .of_sources rfl
    (first.trans (he _ op) ok).2

end

/-! ### The commands -/

theorem functionReset_eases (s : State) (st : Bool) (kind n op : Nat) : Eases s (s.functionReset st kind n op).1 := by
  unfold State.functionReset
  split
  · split
    · exact .refl s
    split
    · exact .refl s
    split
    · exact .refl s
    · split
      · exact resetInst_eases s st n op
      · exact .refl s
  · refine .of_sources ?_
    simp [State.resetOutput]
  · exact .refl s

theorem redistribute_settle_tame (s : State) : Tame s s.redistribute.settle :=
  (redistribute_tame s).trans (settle_eases _).tame

theorem engineSplit_tame (s : State) (e op : Nat) : Tame s (s.engineSplit e op).1 := by
  unfold State.engineSplit
  split
  · exact .refl s
  split
  · exact .refl s
  split
  · exact .refl s
  split
  · exact .refl s
  · dsimp only
    exact Tame.trans (.of_sources (by simp)) (redistribute_settle_tame _)

theorem engineJoin_eases (s : State) (e op : Nat) : Eases s (s.engineJoin e op).1 := by
  unfold State.engineJoin
  split
  · exact .refl s
  split
  · exact .refl s
  · exact startTest_eases s e _

theorem debugAttach_tame (s : State) (e op : Nat) : Tame s (s.debugAttach e op).1 := by
  unfold State.debugAttach
  dsimp only
  split
  · exact .refl s
  split
  · exact .refl s
  · dsimp only
    refine Tame.trans ?_ (redistribute_settle_tame _)
    refine Tame.trans ?_ (.of_sources (State.setEngSt_sources ..))
    exact Tame.trans (.of_sources (by simp)) (evict_eases _ e).tame

theorem debugDetach_eases (s : State) (e : Nat) : Eases s (s.debugDetach e).1 := by
  unfold State.debugDetach
  split
  · exact .refl s
  split
  · exact .refl s
  · exact detachEngine_eases s 1

theorem imageAbandon_tame (s : State) (session : Nat) : Tame s (s.imageAbandon session).1 := by
  unfold State.imageAbandon
  split
  · exact .of_sources (State.abandonLoad_sources ..)
  split
  · exact endStage_tame s _
  · exact .refl s

/-- The DEBUG_ATTACH mailbox, whatever its OP. -/
theorem debugRequest_quiet {s : State} (ok : Berthed s) (h : Hdr) (b : List Byte) : Quiet s (s.debugRequest h b) := by
  refine quiet_request_of_tame ok fun t op => ?_
  split
  · exact debugAttach_tame t _ op
  · exact .of_sources (State.debugOp_sources ..)

theorem resetRequest_quiet {s : State} (ok : Berthed s) (h : Hdr) (b : List Byte) : Quiet s (s.resetRequest h b) :=
  quiet_request_of_tame ok fun t op => (functionReset_eases t _ _ _ op).tame

end Sys2Proof.Machine

/-! The mailbox commands and the porch's register writes turn no output command ON (O60). -/

namespace Sys2Proof.Machine

section
variable (s : State)

@[simp] theorem State.calZero_sources (n c op : Nat) : (s.calZero n c op).1.sources = s.sources := by
  unfold State.calZero
  (repeat' split) <;> rfl

@[simp] theorem State.calDiscard_sources (n c : Nat) : (s.calDiscard n c).1.sources = s.sources := by
  unfold State.calDiscard
  (repeat' split) <;> rfl

@[simp] theorem State.streamClose_sources (k : Nat) : (s.streamClose k).1.sources = s.sources := by
  unfold State.streamClose
  split <;> rfl

@[simp] theorem State.imageBegin_sources (n l : Nat) : (s.imageBegin n l).1.sources = s.sources := by
  unfold State.imageBegin
  dsimp only
  (repeat' split) <;> rfl

@[simp] theorem State.imageValidate_sources (k op : Nat) : (s.imageValidate k op).1.sources = s.sources := by
  unfold State.imageValidate
  (repeat' split) <;> rfl

@[simp] theorem State.imageHandover_sources (f : Bool) (op : Nat) : (s.imageHandover f op).1.sources = s.sources := by
  unfold State.imageHandover
  (repeat' split) <;> rfl

end

theorem imageStage_request_quiet {s : State} (ok : Berthed s) (apart : s.apartFrom s.freeRooms) (h : Hdr) (k : Kind)
    (b : Bool) (n : Nat) : Quiet s (s.request h k b fun t op => t.imageStage n op) :=
  request_keeps (fun _ _ hu q => q.trans (.of_sources hu)) (.refl s) fun p op =>
    have here : Quiet s { s with por := p } := .of_sources rfl
    have ⟨insts, imap, rooms, cons⟩ := ok.tables
    here.trans (imageStage_quiet _ n op ⟨insts, imap, rooms, cons⟩ apart)

theorem writeRegs_request_quiet {s : State} (ok : Berthed s) (h : Hdr) {body : List Byte} (k : Kind) (b : Bool)
    (hb : ∀ i, numAt body (4 + 8 * i) 4 ≠ 0x10014) : Quiet s (s.request h k b fun t _ => t.writeRegs h body) :=
  quiet_request_of_tame ok fun t _ => writeRegs_tame t h hb

/-- Every mailbox command but PEER_EXPEL, and but a write of PWR_DOMCTL, lets nothing rise. -/
theorem mailbox_quiet {s : State} (ok : Berthed s) (apart : s.apartFrom s.freeRooms) {c : Instr}
    (hc : (requestOf c).isSome = true) (hx : ∀ h b, c ≠ .peerExpel h b)
    (hw : ∀ h b, c = .writeRegs h b → ∀ i, numAt b (4 + 8 * i) 4 ≠ 0x10014) :
    Quiet s (nextState (exec c s) s) := by
  cases c with
  | identify h b => exact quiet_request_of_sources fun t _ => rfl
  | getStatus h b => exact quiet_request_of_sources fun t _ => rfl
  | readRegs h b => exact quiet_request_of_sources fun t _ => State.readRegs_sources t h b
  | writeRegs h b => exact writeRegs_request_quiet ok h _ _ (hw h b rfl)
  | sessionOpen h b => exact quiet_request_of_sources fun t _ => State.sessionOpen_sources t h b
  | sessionClose h b => exact quiet_request_of_sources fun t _ => State.closeSession_sources t _
  | imageBegin h b => exact quiet_request_of_sources fun t _ => State.imageBegin_sources t _ _
  | imageChunk h b => exact quiet_request_of_sources fun t _ => State.imageChunk_sources t _ _ _
  | imageEnd h b => exact quiet_request_of_sources fun t _ => State.imageEnd_sources t _
  | imageValidate h b => exact quiet_request_of_sources fun t op => State.imageValidate_sources t _ op
  | imageStage h b => exact imageStage_request_quiet ok apart h _ _ _
  | imageHandover h b => exact quiet_request_of_sources fun t op => State.imageHandover_sources t _ op
  | imageAbandon h b => exact quiet_request_of_tame ok fun t _ => imageAbandon_tame t _
  | functionReset h b => exact resetRequest_quiet ok h b
  | outputReset h k => exact resetRequest_quiet ok h _
  | functionQuery h b => exact quiet_request_of_sources fun t _ => State.functionQuery_sources t _ _
  | engineSplit h b => exact quiet_request_of_tame ok fun t op => engineSplit_tame t _ op
  | engineJoin h b => exact quiet_request_of_tame ok fun t op => (engineJoin_eases t _ op).tame
  | calZero h b => exact quiet_request_of_sources fun t op => State.calZero_sources t _ _ op
  | calFull h b => exact quiet_request_of_sources fun t op => State.calFull_sources t _ _ _ op
  | calCommit h b => exact quiet_request_of_sources fun t _ => State.calCommit_sources t _ _
  | calDiscard h b => exact quiet_request_of_sources fun t _ => State.calDiscard_sources t _ _
  | recInfo h b => exact quiet_request_of_sources fun t _ => rfl
  | recRead h b => exact quiet_request_of_sources fun t _ => rfl
  | recClear h b => exact quiet_request_of_sources fun t _ => State.recClear_sources t _ _
  | fuseRead h b => exact quiet_request_of_sources fun t _ => rfl
  | fuseAdvance h b => exact quiet_request_of_sources fun t op => State.fuseAdvance_sources t _ _ op
  | fabricMap h b => exact quiet_request_of_sources fun t _ => rfl
  | peerAccept h b => exact quiet_request_of_sources fun t _ => State.peerAccept_sources t _
  | peerExpel h b => exact absurd rfl (hx h b)
  | streamOpen h b => exact quiet_request_of_sources fun t _ => State.streamOpen_sources t h b
  | streamClose h b => exact quiet_request_of_sources fun t _ => State.streamClose_sources t _
  | debugAttach h b => exact debugRequest_quiet ok h b
  | halt h e => exact debugRequest_quiet ok h _
  | resume h e => exact debugRequest_quiet ok h _
  | debugStep h e => exact debugRequest_quiet ok h _
  | debugRead h e sp a n => exact debugRequest_quiet ok h _
  | debugWrite h e sp a d => exact debugRequest_quiet ok h _
  | breakSet h e a n => exact debugRequest_quiet ok h _
  | debugDetach h b => exact quiet_request_of_tame ok fun t _ => (debugDetach_eases t _).tame
  | firmwareBegin h b => exact quiet_request_of_sources fun t _ => State.fwBegin_sources t _
  | firmwareChunk h b => exact quiet_request_of_sources fun t _ => State.fwChunk_sources t _ _
  | firmwareEnd h b => exact quiet_request_of_sources fun t op => State.fwEnd_sources t op
  | firmwareSwitch h b => exact quiet_request_of_sources fun t op => State.fwSwitch_sources t op
  | _ => exact absurd hc Bool.false_ne_true

theorem registerWrite_quiet {s : State} (ok : Berthed s) {a v : Word} (ha : a ≠ 0x10014) :
    Quiet s (nextState (exec (.registerWrite .porch a v) s) s) := by
  have hn : a.toNat ≠ 0x10014 := fun e => ha (BitVec.eq_of_toNat_eq e)
  change Quiet s (if s.alive && addrOk a.toNat then (s.writeReg .porch false a.toNat v).1 else s)
  split
  · exact (writeReg_tame s .porch false v hn ok).2
  · exact .refl s

theorem peerExpel_exec_wiring (s : State) (h : Hdr) (b : List Byte) :
    (nextState (exec (.peerExpel h b) s) s).wiring = s.wiring :=
  request_keeps (P := fun t => t.wiring = s.wiring) (fun _ _ hu e => (wiring_of_sources hu).trans e) rfl
    fun p _ => peerExpel_wiring { s with por := p } _

/-- Where only connections changed, an output command that rose has a connection as a source (R362). -/
theorem matrix_of_wiring {s t : State} (h : t.wiring = s.wiring) {q : Side} {k : Nat} (on : t.matrix q k = true) :
    s.matrix q k = true ∨ ∃ m, s.cfg.image = some m ∧ bitOf (m.ow k) 26 = true := by
  have image : t.cfg.image = s.cfg.image := congrArg (·.1) h
  have insts : t.eng.insts = s.eng.insts := congrArg (·.2.2.2.2.1) h
  have sea : t.sea = s.sea := congrArg (·.2.2.2.2.2) h
  by_cases conn : ∃ m, s.cfg.image = some m ∧ bitOf (m.ow k) 26 = true
  · exact .inr conn
  · refine .inl (matrix_mono image (congrArg (·.2.1) h) (congrArg (·.2.2.1) h) (congrArg (·.2.2.2.1) h)
      (command_mono image (fun i o e => ?_) (fun r l _ => latch_congr image ?_ (fun p _ => ?_) l)
        fun m hm b => absurd ⟨m, hm, b⟩ conn) on)
    · rwa [State.instOut, State.inst, insts] at e
    · rw [State.irm, sea, State.irm]
    · rw [State.room, sea, State.room]

theorem sourceTables_of_canonical {s : State} (h : Canonical s) : SourceTables s := by
  obtain ⟨-, ⟨rooms, imap, -, insts, -⟩, ⟨-, -, -, -, -, -, cons, -⟩, -⟩ := h
  exact ⟨insts, imap, rooms, cons⟩

/-- Settles O60: the commands ease, berth or keep what an output command is formed from; only PEER_EXPEL writes
a connection of the running image. -/
theorem hostSetsNoOutput : Obligations.HostSetsNoOutput := by
  unfold Obligations.HostSetsNoOutput
  intro s t c canon host writes apart run q k on
  have ok : Berthed s := ⟨sourceTables_of_canonical canon, fun k r hk hr => (apart k r hk hr).2⟩
  have free : s.apartFrom s.freeRooms := fun k r hk hr => (apart k r hk hr).1
  obtain rfl : nextState (exec c s) s = t := nextState_of run s
  rcases host with req | ⟨a, v, rfl, ha⟩
  · by_cases hx : ∃ h b, c = .peerExpel h b
    · obtain ⟨h, b, rfl⟩ := hx
      rcases matrix_of_wiring (peerExpel_exec_wiring s h b) on with was | ⟨m, hm, bit⟩
      · exact .inl was
      · exact .inr ⟨h, b, m, rfl, hm, bit⟩
    · exact .inl ((mailbox_quiet ok free req (fun h b e => hx ⟨h, b, e⟩) writes).matrix on)
  · exact .inl ((registerWrite_quiet ok ha).matrix on)

end Sys2Proof.Machine

/-! A step runs the command in front or is one tick (O1), and no command but one that begins a start-up moves TB
(O7). -/

namespace Sys2Proof.Machine

/-! ### One step -/

theorem step_of_front {s : State} {c : Instr} {rest : List Instr} (h : s.pending = c :: rest) :
    step s = exec c { s with pending := rest } := by
  rw [step, h]

theorem step_of_empty {s : State} (h : s.pending = []) : step s = .next s.tick := by
  rw [step, h]

/-- With CELLAR dead the timebase does not run either. -/
theorem tick_of_dead {s : State} (h : s.alive = false) : s.tick = s := by
  simp [State.tick, State.ticking, h]

/-- Settles O1: by the two forms of a step, and by what a tick keeps. -/
theorem stepRunsFrontCommand : Obligations.StepRunsFrontCommand := by
  unfold Obligations.StepRunsFrontCommand
  refine ⟨fun c rest s => step_of_front, fun s empty => ?_⟩
  obtain ⟨pending, tb, rows⟩ := State.tick_spec s
  refine ⟨s.tick, step_of_empty empty, pending.trans empty, fun on => ⟨?_, rows⟩, fun off => ⟨?_, rows⟩, tick_of_dead⟩
  · rw [tb, if_pos on]
  · rw [tb, if_neg (ne_true_of_eq_false off)]

/-! ### Start-up clears the timebase (Table 12.3, step 1) -/

@[simp] theorem State.coldStart_tb (s : State) : s.coldStart.tb = 0 := rfl

@[simp] theorem State.cellarUp_tb (s : State) : s.cellarUp.tb = 0 := rfl

theorem State.judgeSupplies_tb (s : State) : s.judgeSupplies.tb = s.tb ∨ s.judgeSupplies.tb = 0 := by
  unfold State.judgeSupplies
  dsimp only
  split
  · split
    · exact .inr (State.coldStart_tb s)
    · split
      · exact .inl (kept_eq (State.endFail_kept s)).2.1
      · exact .inl rfl
  · split
    · exact .inl rfl
    · exact .inl (kept_eq (State.beginFail_kept s)).2.1

theorem execSupplyMeasurement_tb (q : Side) (mV : Int) (s : State) :
    (nextState (execSupplyMeasurement q mV s) s).tb = s.tb ∨ (nextState (execSupplyMeasurement q mV s) s).tb = 0 := by
  simp only [execSupplyMeasurement, nextState]
  split
  · rw [← (kept_eq (State.newSupply_kept s q ((s.supply q).measure mV))).2.1]
    exact State.judgeSupplies_tb _
  · split
    · exact .inl rfl
    · exact .inr (kept_eq (State.setSupply_kept s.cellarUp q _)).2.1

@[simp] theorem State.setBankPtr_rows (s : State) (q : Side) (b : Nat) : (s.setBankPtr q b).nv.rows = s.nv.rows :=
  (kept_eq (State.setBankPtr_kept s q b)).2.2

theorem execProcessorRestart_tb (q : Side) (ok : Bool) (s : State) :
    (nextState (execProcessorRestart q ok s) s).tb = s.tb ∨ (nextState (execProcessorRestart q ok s) s).tb = 0 := by
  have still {t : State} (h : t.kept = s.kept) : t.tb = s.tb ∨ t.tb = 0 := .inl (kept_eq h).2.1
  simp only [execProcessorRestart, nextState]
  split
  · exact .inl rfl
  split
  · exact .inr (State.coldStart_tb _)
  all_goals
    apply still
    (repeat' split) <;> simp

/-! ### The commands -/

/-- The three commands that move TB or the fuse array apart, each command keeps both, by its own rule. -/
theorem exec_kept {c : Instr} (blow : ∀ r, c ≠ .fuseBlow r) (measure : ∀ q mV, c ≠ .supplyMeasurement q mV)
    (restart : ∀ q ok, c ≠ .processorRestart q ok) (s : State) : (nextState (exec c s) s).kept = s.kept := by
  cases c with
  | fuseBlow r => exact absurd rfl (blow r)
  | supplyMeasurement q mV => exact absurd rfl (measure q mV)
  | processorRestart q ok => exact absurd rfl (restart q ok)
  | _ => simp [exec]

/-- Settles O7: by `exec_kept`, and by cases for the commands that it leaves out. -/
theorem commandsKeepTheTimebase : Obligations.CommandsKeepTheTimebase := by
  unfold Obligations.CommandsKeepTheTimebase
  intro c s t run
  obtain rfl : nextState (exec c s) s = t := nextState_of run s
  by_cases blow : ∃ r, c = .fuseBlow r
  · obtain ⟨r, rfl⟩ := blow
    obtain ⟨t, run, -, tb, -⟩ := execFuseBlow_spec r s
    exact .inl ((congrArg State.tb (nextState_of run s)).trans tb)
  by_cases measure : ∃ q mV, c = .supplyMeasurement q mV
  · obtain ⟨q, mV, rfl⟩ := measure
    exact (execSupplyMeasurement_tb q mV s).imp_right fun h => ⟨h, .inl ⟨q, mV, rfl⟩⟩
  by_cases restart : ∃ q ok, c = .processorRestart q ok
  · obtain ⟨q, ok, rfl⟩ := restart
    exact (execProcessorRestart_tb q ok s).imp_right fun h => ⟨h, .inr ⟨q, ok, rfl⟩⟩
  · push Not at blow measure restart
    exact .inl (kept_eq (exec_kept blow measure restart s)).2.1

end Sys2Proof.Machine

/-! What the isolation links' frames are judged by: bit masks, the units of the links, and what the judgement of a
link leaves alone (R224, R237, Table 14.3). -/

namespace Sys2Proof.Machine

/-! ### Masks -/

/-- Bit `k` of a mask that is collected number by number. -/
theorem getLsbD_foldl_or {w : Nat} (p : Nat → Bool) (l : List Nat) (x : BitVec w) {k : Nat} (hk : k < w) :
    (l.foldl (fun acc n => if p n then acc ||| BitVec.ofNat w (1 <<< n) else acc) x).getLsbD k =
      (x.getLsbD k || (l.contains k && p k)) := by
  induction l generalizing x with
  | nil => simp
  | cons n l ih =>
    have bit : (BitVec.ofNat w (1 <<< n)).getLsbD k = decide (k = n) := by
      rw [BitVec.getLsbD_ofNat, Nat.one_shiftLeft, Nat.testBit_two_pow]
      simp [hk, eq_comm]
    rw [List.foldl_cons, ih, List.contains_cons]
    by_cases h : k = n
    · subst h
      cases hp : p k <;> simp [bit]
    · have apart : (k == n) = false := beq_false_of_ne h
      cases hp : p n <;> simp [bit, h, apart]

theorem getLsbD_mask64 (f : Nat → Bool) {k : Nat} (hk : k < 64) : (mask64 f).getLsbD k = f k := by
  rw [mask64, getLsbD_foldl_or f _ _ hk]
  simp [hk]

theorem mem_bits64 {m : Long} {k : Nat} : k ∈ bits64 m ↔ k < 64 ∧ m.getLsbD k = true := by simp [bits64]

/-! ### Side by side -/

section
variable (s : State) (q : Side) (v : Link)

@[simp] theorem State.link_setLink (l : Side) : (s.setLink l v).link l = v := by cases l <;> rfl

@[simp] theorem State.link_setLink_other (l : Side) : (s.setLink l v).link (otherSide l) = s.link (otherSide l) := by
  cases l <;> rfl

theorem State.setLink_link (l : Side) : s.setLink l (s.link l) = s := by cases l <;> rfl

end

/-! ### The check-value units -/

/-- The table of the units stays in form, and every unit but the recorder's is as it was. -/
structure Noted (s t : State) : Prop where
  ok   : Tab.ok .fresh s.cvu = true → Tab.ok .fresh t.cvu = true
  unit : Tab.ok .fresh s.cvu = true → ∀ u ≠ 18, t.unit u = s.unit u

theorem Noted.of_cvu {s t : State} (h : t.cvu = s.cvu) : Noted s t :=
  ⟨fun ok => h ▸ ok, fun _ u _ => by rw [State.unit, h, State.unit]⟩

theorem Noted.refl (s : State) : Noted s s := .of_cvu rfl

theorem Noted.trans {s t u : State} (h : Noted s t) (k : Noted t u) : Noted s u :=
  ⟨fun ok => k.ok (h.ok ok), fun ok n hn => (k.unit (h.ok ok) n hn).trans (h.unit ok n hn)⟩

theorem Noted.foldl {α : Type} {f : State → α → State} (h : ∀ a x, Noted a (f a x)) (l : List α) (s : State) :
    Noted s (l.foldl f s) := by
  induction l generalizing s with
  | nil => exact .refl s
  | cons x l ih => exact (h s x).trans (ih _)

theorem unit_setUnit {s : State} (ok : Tab.ok .fresh s.cvu = true) (n : Nat) (c : Cvu) (u : Nat) :
    (s.setUnit n c).unit u = if u = n then c else s.unit u := Tab.get_set ok n u c

/-- The recorder's own unit may change. -/
theorem setUnit_rec_noted (s : State) (c : Cvu) : Noted s (s.setUnit 18 c) :=
  ⟨Tab.ok_set _ _, fun ok u hu => (unit_setUnit ok 18 c u).trans (if_neg hu)⟩

theorem recCheck_noted (s : State) (bytes : List Byte) : Noted s (s.recCheck bytes).1 := by
  have one (t : State) : Noted t (t.recUnit bytes) := setUnit_rec_noted t _
  unfold State.recCheck
  dsimp only
  split
  · exact (one s).trans (one _)
  · exact one s

theorem enter_noted (s : State) (c v : Nat) (p : List Byte) (b : Bool) (k : Nat) : Noted s (s.enter c v p b k) := by
  have check (bytes : List Byte) := recCheck_noted s bytes
  unfold State.enter
  dsimp only
  split
  · exact .of_cvu rfl
  · split
    · exact (check _).trans (.of_cvu rfl)
    · split
      · exact (check _).trans (.of_cvu rfl)
      · exact (check _).trans (.of_cvu rfl)

theorem flushIf_noted (s : State) (b : Bool) : Noted s (s.flushIf b) := by
  unfold State.flushIf
  split <;> exact .of_cvu rfl

theorem recordOnce_noted (s : State) (c v : Nat) (p : List Byte) (b : Bool) (k : Option Nat) :
    Noted s (s.recordOnce c v p b k) := by
  unfold State.recordOnce
  split
  · exact .refl s
  dsimp only
  split
  · refine Noted.trans (.of_cvu ?_) (enter_noted ..)
    split <;> rfl
  · generalize ht : (if s.rcd.lost = 0 ∨ 512 ≤ s.rcd.buf.length then s else _) = t
    have first : Noted s t := by
      rw [← ht]
      split
      · exact .refl s
      · refine Noted.trans ?_ (flushIf_noted ..)
        exact (enter_noted ..).trans (.of_cvu rfl)
    split
    · exact (first.trans (enter_noted ..)).trans (flushIf_noted ..)
    · exact first.trans (.of_cvu rfl)

theorem recFail_noted (s : State) (why : RecFail) : Noted s (s.recFail why) := by
  unfold State.recFail
  split
  · exact .refl s
  · refine Noted.trans ?_ (recordOnce_noted ..)
    exact .of_cvu rfl

theorem recFaults_noted (n : Nat) (c : Cvu) (s : State) : Noted s (State.recFaults n c s) := by
  induction n generalizing c s with
  | zero => exact .refl s
  | succ n ih =>
    have faults (k : Nat) : Noted s ((List.range k).foldl (fun acc _ => acc.recordOnce 0x0E01 2 [18#8, 0#8]) s) :=
      .foldl (fun a _ => recordOnce_noted a ..) _ s
    unfold State.recFaults
    dsimp only
    split
    · exact .refl s
    · refine Noted.trans ?_ (ih _ _)
      split
      · exact (((faults _).trans (setUnit_rec_noted _ _)).trans (recordOnce_noted ..)).trans (recFail_noted _ _)
      · exact faults _

theorem record_noted (s : State) (c v : Nat) (p : List Byte) (b : Bool) (k : Option Nat) :
    Noted s (s.record c v p b k) :=
  (recordOnce_noted s c v p b k).trans (recFaults_noted _ _ _)

/-! ### A use of a unit without defect (Table 14.3) -/

theorem aliveCheck_fault (c : Cvu) (a : Bool) (v : Nat) (bs : List Byte) : (c.aliveCheck a v bs).fault = false := by
  unfold Cvu.aliveCheck Cvu.feed Cvu.init
  dsimp only
  split <;> rfl

theorem aliveCheck_upset (c : Cvu) (a : Bool) (v : Nat) (bs : List Byte) :
    (c.aliveCheck a v bs).upset = c.upset := by
  unfold Cvu.aliveCheck Cvu.feed Cvu.init
  dsimp only
  split <;> rfl

theorem aliveCheck_due (c : Cvu) (a : Bool) (v : Nat) (bs : List Byte) : (c.aliveCheck a v bs).due = c.due := by
  unfold Cvu.aliveCheck Cvu.feed Cvu.init
  dsimp only
  split <;> rfl

/-- With no defect present, a use of a unit is its byte-steps alone. -/
theorem runUnit_clean {s : State} {n : Nat} (ok : Tab.ok .fresh s.cvu = true) (f : Cvu → Cvu)
    (sound : (s.unit n).upset = 0) (same : (f (s.unit n)).upset = (s.unit n).upset) :
    s.runUnit n f = s.setUnit n (f (s.unit n)) := by
  have steps : (f (s.unit n)).stepped s.pwr.opsec = f (s.unit n) := if_pos (.inl (same.trans sound))
  have here : (s.setUnit n (f (s.unit n))).unit n = f (s.unit n) := (unit_setUnit ok n _ n).trans (if_pos rfl)
  rw [State.runUnit, steps, State.noteFault]
  dsimp only
  rw [here, same, if_pos (Nat.le_refl _)]

/-! ### What a judgement of a link leaves alone -/

/-- From `s` to `t` nothing changed but link `l`, the records and the units, and the fuses. -/
def LinkJudged (l : Side) (s t : State) : Prop :=
  t = ({ s with rcd := t.rcd, cvu := t.cvu, nv := t.nv, fus := t.fus } : State).setLink l (t.link l)

section
variable {l : Side}

theorem LinkJudged.refl (s : State) : LinkJudged l s s := (State.setLink_link s l).symm

theorem LinkJudged.trans {s t u : State} (h : LinkJudged l s t) (k : LinkJudged l t u) : LinkJudged l s u := by
  unfold LinkJudged at *
  rw [k, h]
  cases l <;> rfl

theorem LinkJudged.of_recorded {s t : State} (h : Recorded s t) : LinkJudged l s t := by
  unfold Recorded at h
  unfold LinkJudged
  rw [h]
  cases l <;> rfl

theorem setLink_judged (s : State) (v : Link) : LinkJudged l s (s.setLink l v) := by cases l <;> rfl

theorem record_judged (s : State) (c v : Nat) (p : List Byte) (b : Bool) (k : Option Nat) :
    LinkJudged l s (s.record c v p b k) := .of_recorded (record_recorded s c v p b k)

theorem setUnit_judged (s : State) (n : Nat) (c : Cvu) : LinkJudged l s (s.setUnit n c) := by cases l <;> rfl

theorem runUnit_judged (s : State) (n : Nat) (f : Cvu → Cvu) : LinkJudged l s (s.runUnit n f) :=
  .of_recorded (runUnit_recorded s n f)

theorem retireBit_judged (s : State) (b : Nat) : LinkJudged l s (s.retireBit b) := by
  have kick (t : State) : LinkJudged l t t.fuseKick := by
    unfold State.fuseKick
    split <;> cases l <;> rfl
  have add (x : Blow) (w : Nat) (c : Prop) [Decidable c] :
      LinkJudged l s (if c then (s.addBlow x).setShadow w b else s.addBlow x) := by split <;> cases l <;> rfl
  unfold State.retireBit State.blow
  split
  · exact .refl s
  · dsimp only
    split
    · refine LinkJudged.trans ?_ (record_judged ..)
      exact add _ _ _
    · refine LinkJudged.trans ?_ (kick _)
      exact add _ _ _

theorem judgeFaulty_judged (s : State) : LinkJudged l s (s.judgeFaulty l) := by
  have note (t : State) (c : Nat) : LinkJudged l t (t.linkRecord l c) := record_judged ..
  unfold State.judgeFaulty
  dsimp only
  split
  · exact .refl s
  have first (v : Link) : LinkJudged l s ((s.setLink l v).linkRecord l 2) := (setLink_judged s v).trans (note _ 2)
  split
  · exact first _
  · exact (((first _).trans (setLink_judged _ _)).trans (retireBit_judged _ _)).trans (note _ 3)

theorem countLink_judged (s : State) (crc : Bool) : LinkJudged l s (s.countLink l crc) := by
  have done (v : Link) (c : Prop) [Decidable c] :
      LinkJudged l s (if c then (s.setLink l v).judgeFaulty l else s.setLink l v) := by
    split
    · exact (setLink_judged s v).trans (judgeFaulty_judged _)
    · exact setLink_judged s v
  exact done _ _

theorem chargeLink_judged (s : State) : LinkJudged l s (s.chargeLink l) := by
  unfold State.chargeLink
  dsimp only
  split
  · exact ((setUnit_judged s _ _).trans (setUnit_judged _ _ _)).trans (judgeFaulty_judged _)
  · exact .refl s

end

end Sys2Proof.Machine

/-! The launch of the frames of both links (R233, R234). -/

namespace Sys2Proof.Machine

/-! ### What a judgement of a link leaves -/

section
variable {l : Side} {s t : State}

/-- What a judgement of link `l` does not touch. -/
theorem LinkJudged.congr {α : Sort*} (h : LinkJudged l s t) (f : State → α)
    (same : ∀ r c n u v, f (({ s with rcd := r, cvu := c, nv := n, fus := u } : State).setLink l v) = f s) :
    f t = f s := (congrArg f h).trans (same ..)

theorem LinkJudged.fld (h : LinkJudged l s t) : t.fld = s.fld :=
  h.congr State.fld fun _ _ _ _ _ => by cases l <;> rfl

theorem LinkJudged.cnv (h : LinkJudged l s t) : t.cnv = s.cnv :=
  h.congr State.cnv fun _ _ _ _ _ => by cases l <;> rfl

theorem LinkJudged.sea (h : LinkJudged l s t) : t.sea = s.sea :=
  h.congr State.sea fun _ _ _ _ _ => by cases l <;> rfl

theorem LinkJudged.sources (h : LinkJudged l s t) : t.sources = s.sources :=
  h.congr State.sources fun _ _ _ _ _ => by cases l <;> rfl

theorem LinkJudged.mx (h : LinkJudged l s t) (q : Side) : t.mx q = s.mx q :=
  h.congr (·.mx q) fun _ _ _ _ _ => by cases l <;> rfl

theorem LinkJudged.other (h : LinkJudged l s t) : t.link (otherSide l) = s.link (otherSide l) :=
  h.congr (·.link (otherSide l)) fun _ _ _ _ _ => by cases l <;> rfl

end

/-! ### What the records and the judgements leave of the link itself -/

theorem link_of_recorded {s t : State} (h : Recorded s t) (l : Side) : t.link l = s.link l := by
  unfold Recorded at h
  rw [h]
  cases l <;> rfl

@[simp] theorem State.link_linkRecord (s : State) (l : Side) (c : Nat) (q : Side) :
    (s.linkRecord l c).link q = s.link q := link_of_recorded (record_recorded ..) q

@[simp] theorem State.link_setUnit (s : State) (n : Nat) (c : Cvu) (q : Side) :
    (s.setUnit n c).link q = s.link q := by cases q <;> rfl

@[simp] theorem State.link_charged (s : State) (n : Nat) (q : Side) : (s.charged n).link q = s.link q :=
  State.link_setUnit ..

@[simp] theorem State.link_retireBit (s : State) (b : Nat) (q : Side) : (s.retireBit b).link q = s.link q := by
  have kick (t : State) : t.fuseKick.link q = t.link q := by
    unfold State.fuseKick
    split <;> cases q <;> rfl
  have add (x : Blow) (c : Prop) [Decidable c] :
      (if c then (s.addBlow x).setShadow 104 b else s.addBlow x).link q = s.link q := by split <;> cases q <;> rfl
  unfold State.retireBit State.blow
  split
  · rfl
  · dsimp only
    split
    · exact (link_of_recorded (record_recorded ..) q).trans (add _ _)
    · exact (kick _).trans (add _ _)

/-- The frames of a link: in flight, due, and counted. -/
def Link.frames (v : Link) : Option Up × Option Nat × Option Down × Nat := (v.up, v.due, v.down, v.crcerr)

theorem judgeFaulty_frames (s : State) (l : Side) : ((s.judgeFaulty l).link l).frames = (s.link l).frames := by
  unfold State.judgeFaulty
  dsimp only
  split
  · rfl
  split
  · simp
    rfl
  · simp
    rfl

theorem chargeLink_frames (s : State) (l : Side) : ((s.chargeLink l).link l).frames = (s.link l).frames := by
  unfold State.chargeLink
  dsimp only
  split
  · rw [judgeFaulty_frames, State.link_charged, State.link_charged]
  · rfl

/-- A check that fails counts, and leaves the frames of the link (R237). -/
theorem countLink_crc_frames (s : State) (l : Side) : ((s.countLink l true).link l).frames =
    ((s.link l).up, (s.link l).due, (s.link l).down, satAdd 0xFFFF (s.link l).crcerr 1) := by
  have done (v : Link) (c : Prop) [Decidable c] :
      ((if c then (s.setLink l v).judgeFaulty l else s.setLink l v).link l).frames = v.frames := by
    split
    · rw [judgeFaulty_frames, State.link_setLink]
    · rw [State.link_setLink]
  exact done _ _

/-! ### Downlink frames (R233) -/

theorem image64_of_sources {s t : State} (h : t.sources = s.sources) (q : Side) : t.image64 q = s.image64 q := by
  have same (k : Nat) : t.matrix q k = s.matrix q k :=
    Bool.eq_iff_iff.2 ⟨(Quiet.of_sources h).matrix, (Quiet.of_sources h.symm).matrix⟩
  rw [State.image64, State.image64, funext same]

/-- The frame that stands on link `l`. -/
def Launched (s : State) (l : Side) (d : Down) : Prop :=
  d.tb = s.tb ∧ d.dseq = s.tb / 2000 % 65536 ∧ d.bank = s.lgc.bank ∧ d.solo = s.lgc.solo ∧
    d.img = s.image64 l ∧ d.cclr = s.lgc.cclr

theorem launchDown_launched {s : State} {l : Side} (on : s.mx l = true) (kept : (s.link l).retired = false) :
    LinkJudged l s (s.launchDown l) ∧ ∃ d, ((s.launchDown l).link l).down = some d ∧ Launched s l d := by
  have skip : ¬(!s.mx l || (s.link l).retired) = true := by simp [on, kept]
  rw [State.launchDown, if_neg skip]
  dsimp only
  refine ⟨((runUnit_judged s _ _).trans (setLink_judged _ _)).trans (chargeLink_judged _), ?_⟩
  have frames := fun t => congrArg (·.2.2.1) (chargeLink_frames t l)
  refine ⟨_, (frames _).trans (congrArg Link.down (State.link_setLink _ _ l)), rfl, rfl, rfl, rfl, rfl, rfl⟩

theorem Launched.of_judged {s t : State} {l : Side} (h : LinkJudged l s t) {q : Side} {d : Down} (k : Launched t q d) :
    Launched s q d := by
  have tb : t.tb = s.tb := h.congr State.tb fun _ _ _ _ _ => by cases l <;> rfl
  have bank : t.lgc.bank = s.lgc.bank := h.congr (·.lgc.bank) fun _ _ _ _ _ => by cases l <;> rfl
  have solo : t.lgc.solo = s.lgc.solo := h.congr (·.lgc.solo) fun _ _ _ _ _ => by cases l <;> rfl
  have cclr : t.lgc.cclr = s.lgc.cclr := h.congr (·.lgc.cclr) fun _ _ _ _ _ => by cases l <;> rfl
  unfold Launched at k ⊢
  rwa [tb, bank, solo, cclr, image64_of_sources h.sources] at k

/-- Both copies launch, on one tick. -/
theorem launchDown_both {s : State} (on : ∀ q, s.mx q = true) (kept : ∀ q, (s.link q).retired = false) :
    let t := (s.launchDown .a).launchDown .b
    t.fld = s.fld ∧ t.tb = s.tb ∧ (∀ q, t.mx q = true) ∧ ∀ q, ∃ d, (t.link q).down = some d ∧ Launched s q d := by
  obtain ⟨first, da, downA, frameA⟩ := launchDown_launched (on .a) (kept .a)
  have onB : (s.launchDown .a).mx .b = true := (first.mx .b).trans (on .b)
  have keptB : ((s.launchDown .a).link .b).retired = false := (congrArg Link.retired first.other).trans (kept .b)
  obtain ⟨second, db, downB, frameB⟩ := launchDown_launched onB keptB
  have tb {l : Side} {u v : State} (h : LinkJudged l u v) : v.tb = u.tb :=
    h.congr State.tb fun _ _ _ _ _ => by cases l <;> rfl
  refine ⟨second.fld.trans first.fld, (tb second).trans (tb first),
    fun q => ((second.mx q).trans (first.mx q)).trans (on q), fun q => ?_⟩
  cases q with
  | a => exact ⟨da, (congrArg Link.down second.other).trans downA, frameA⟩
  | b => exact ⟨db, downB, frameB.of_judged first⟩

theorem launchTick_iff (s : State) : s.launchTick = true ↔ s.ticking = true ∧ s.tb % 2000 = 0 := by
  simp [State.launchTick]

theorem execDownlinkFrame_launches {s : State} (tick : s.launchTick = true) (new : s.lgc.downAt ≠ some s.tb)
    (on : s.pwr.off = false) (step : 6 ≤ s.pwr.step) (copies : ∀ q, s.mx q = true)
    (kept : ∀ q, (s.link q).retired = false) (staged : s.cfg.staged = none) :
    ∃ u, execDownlinkFrame s = .next u ∧ u.fld = s.fld ∧ u.lgc.downAt = some s.tb ∧ u.lgc.cclr = 0 ∧
      ∀ q, ∃ d, (u.link q).down = some d ∧ Launched s q d := by
  have act : ¬(!s.launchTick || s.lgc.downAt == some s.tb || s.pwr.off || decide (s.pwr.step < 6)) = true := by
    simp [tick, new, on, step]
  have seen : s.seeDiffer = s := by simp [State.seeDiffer, staged]
  obtain ⟨fld, tb, sent, frames⟩ := launchDown_both copies kept
  refine ⟨_, by rw [execDownlinkFrame, if_neg act], ?_⟩
  simp only [seen, sent, Bool.or_self, if_true]
  refine ⟨fld, congrArg some tb, trivial, fun q => ?_⟩
  obtain ⟨d, down, frame⟩ := frames q
  refine ⟨d, Eq.trans ?_ down, frame⟩
  cases q <;> rfl

/-! ### Uplink frames (R234) -/

/-- From `s` to `t` sequencer `q` judged inputs, and nothing below its own in the table. -/
structure Stood (q : Side) (s t : State) : Prop where
  eq    : t = { s with fld := { s.fld with ins := t.fld.ins } }
  ok    : Tab.ok .start s.fld.ins = true → Tab.ok .start t.fld.ins = true
  below : Tab.ok .start s.fld.ins = true → ∀ k < sideNat q * 192,
    Tab.get .start t.fld.ins k = Tab.get .start s.fld.ins k

section
variable {q : Side}

theorem Stood.refl (s : State) : Stood q s s := ⟨rfl, id, fun _ _ _ => rfl⟩

theorem Stood.trans {s t u : State} (h : Stood q s t) (k : Stood q t u) : Stood q s u := by
  refine ⟨?_, fun ok => k.ok (h.ok ok), fun ok n hn => (k.below (h.ok ok) n hn).trans (h.below ok n hn)⟩
  have e := k.eq
  rw [h.eq] at e
  exact e

theorem Stood.congr {α : Sort*} {s t : State} (h : Stood q s t) (f : State → α)
    (same : ∀ i, f { s with fld := { s.fld with ins := i } } = f s) : f t = f s :=
  (congrArg f h.eq).trans (same _)

theorem setInp_stood (s : State) (n : Nat) (v : SeqIn) : Stood q s (s.setInp q n v) :=
  ⟨rfl, Tab.ok_set _ _, fun ok k hk => (Tab.get_set ok _ k v).trans (if_neg (by omega))⟩

theorem judge_stood (s : State) (n : Nat) (v : Bool) : Stood q s (s.judge q n v) := by
  have deb (t : State) : Stood q t (t.putDeb q n v) := by
    unfold State.putDeb
    dsimp only
    split
    · exact .refl t
    · exact setInp_stood t n _
  unfold State.judge
  dsimp only
  split
  · exact .refl s
  split
  · exact (setInp_stood s n _).trans (deb _)
  · exact setInp_stood s n _

theorem standingInputs_stood (s : State) : Stood q s (s.standingInputs q) := by
  have one (t : State) (n : Nat) : Stood q t (t.standing q n) := by
    unfold State.standing
    split
    · exact .refl t
    · dsimp only
      split
      · exact judge_stood t n false
      · exact .refl t
  unfold State.standingInputs
  generalize s.inputsInUse = l
  induction l generalizing s with
  | nil => exact .refl s
  | cons n l ih => exact (one s n).trans (ih _)

end

/-- The triggers that sequencer `q` has still to report. -/
def State.trigOf (s : State) : Side → Word
  | .a => s.fld.trigA
  | .b => s.fld.trigB

/-- The triggers of sequencer `q` have been reported. -/
def State.clearTrig (s : State) : Side → State
  | .a => { s with fld := { s.fld with trigA := 0 } }
  | .b => { s with fld := { s.fld with trigB := 0 } }

/-- A sequencer without a fault in itself, whose last frame is not due any more, forms a frame of what stands. -/
theorem launchUp_eq {s : State} {q : Side} (idle : (s.link q).due = none) (sound : (s.seq q).selfFault = false) :
    ∃ t, Stood q s t ∧ s.launchUp q = (t.setLink q { s.link q with
      due := some s.tb, up := if s.lives q then some (t.mkUp q) else none }).clearTrig q := by
  have stood : Stood q s (if s.lives q then s.standingInputs q else s) := by
    split
    · exact standingInputs_stood s
    · exact .refl s
  refine ⟨_, stood, ?_⟩
  unfold State.launchUp
  rw [idle]
  simp only [Option.isSome_none, Bool.false_eq_true, ↓reduceIte]
  generalize (if s.lives q then s.standingInputs q else s) = t at stood ⊢
  have link : t.link q = s.link q := stood.congr (·.link q) fun _ => by cases q <;> rfl
  have lives : t.lives q = s.lives q := stood.congr (·.lives q) fun _ => by cases q <;> rfl
  have tb : t.tb = s.tb := stood.congr State.tb fun _ => rfl
  have fault : (t.seq q).selfFault = false := (stood.congr (·.seq q) fun _ => by cases q <;> rfl) ▸ sound
  rw [link, lives, tb]
  cases q
  · exact if_neg fun h => absurd ((Bool.and_eq_true _ _ ▸ h).1.symm.trans fault) Bool.true_eq_false_eq_False
  · exact if_neg fun h => absurd ((Bool.and_eq_true _ _ ▸ h).1.symm.trans fault) Bool.true_eq_false_eq_False

theorem mem_inputsInUse {s : State} {n : Nat} (h : s.inUse n = true) : s.inputsInUse.contains n = true := by
  have range : n < s.fld.cfg.icfg.length := by
    simp only [State.inUse, Bool.and_eq_true, decide_eq_true_eq] at h
    exact h.1
  simp [State.inputsInUse, h, range]

theorem mkUp_inv {s : State} {n : Nat} (hn : n < 192) (h : s.inUse n = true) (q : Side) :
    (s.mkUp q).inv.getLsbD n = decide ((s.inp q n).cause ≠ 0) := by
  refine (getLsbD_foldl_or _ s.inputsInUse _ hn).trans ?_
  rw [mem_inputsInUse h]
  simp [bne, beq_eq_decide]

theorem mkUp_rd {s : State} {n : Nat} (hn : n < 192) (h : s.inUse n = true) (q : Side) :
    (s.mkUp q).rd.getLsbD n = ((s.inp q n).deb && decide ((s.inp q n).cause = 0)) := by
  refine (getLsbD_foldl_or _ s.inputsInUse _ hn).trans ?_
  rw [mem_inputsInUse h]
  simp [beq_eq_decide]

/-- What a frame of sequencer `q` carries beside its inputs. -/
def Reports (s : State) (q : Side) (f : Up) : Prop :=
  f.tick = s.tb ∧ f.useq = s.tb / 2000 % 65536 ∧ f.bank = s.fld.bank ∧ f.dlast = s.fld.dlast ∧
    f.silent = s.fld.silent.isSome ∧ f.outs = (List.range 64).map (s.outRep q) ∧ f.trig = s.trigOf q

theorem mkUp_reports (s : State) (q : Side) : Reports s q (s.mkUp q) := ⟨rfl, rfl, rfl, rfl, rfl, rfl, rfl⟩

/-- The frame of sequencer `q` is the one launched, and shows its inputs as `u` has them. -/
def Flies (s u : State) (q : Side) : Prop :=
  (u.link q).due = some s.tb ∧ (s.lives q = false → (u.link q).up = none) ∧
    (s.lives q = true → ∃ f, (u.link q).up = some f ∧ Reports s q f ∧
      ∀ n, n < 192 → s.inUse n = true → f.inv.getLsbD n = decide ((u.inp q n).cause ≠ 0) ∧
        f.rd.getLsbD n = ((u.inp q n).deb && decide ((u.inp q n).cause = 0)))

/-- Sequencer `q` has launched its frame. -/
structure LaunchedUp (q : Side) (s u : State) : Prop where
  eq    : u = { s with lgc := u.lgc, fld := { s.fld with
    ins := u.fld.ins, trigA := u.fld.trigA, trigB := u.fld.trigB } }
  other : u.link (otherSide q) = s.link (otherSide q)
  trig  : u.trigOf q = 0
  trig' : u.trigOf (otherSide q) = s.trigOf (otherSide q)
  ok    : Tab.ok .start u.fld.ins = true
  below : ∀ k < sideNat q * 192, Tab.get .start u.fld.ins k = Tab.get .start s.fld.ins k
  flies : Flies s u q

theorem LaunchedUp.congr {α : Sort*} {q : Side} {s u : State} (h : LaunchedUp q s u) (f : State → α)
    (same : ∀ l i x y, f { s with lgc := l, fld := { s.fld with ins := i, trigA := x, trigB := y } } = f s) :
    f u = f s := (congrArg f h.eq).trans (same ..)

theorem launchUp_launched {s : State} {q : Side} (idle : (s.link q).due = none)
    (sound : (s.seq q).selfFault = false) (ok : Tab.ok .start s.fld.ins = true) :
    LaunchedUp q s (s.launchUp q) := by
  obtain ⟨t, stood, e⟩ := launchUp_eq idle sound
  rw [e]
  generalize hv : ({ s.link q with due := some s.tb, up := if s.lives q then some (t.mkUp q) else none } : Link) = v
  have reports : Reports s q (t.mkUp q) := (stood.congr (Reports · q (t.mkUp q)) fun _ => by cases q <;> rfl) ▸
    mkUp_reports t q
  have link : ((t.setLink q v).clearTrig q).link q = v := by cases q <;> rfl
  have inp (n : Nat) : ((t.setLink q v).clearTrig q).inp q n = t.inp q n := by cases q <;> rfl
  refine ⟨?_, ?_, by cases q <;> rfl, ?_, ?_, fun k hk => ?_, ?_, fun dead => ?_, fun live => ?_⟩
  · have eq := stood.eq
    generalize t.fld.ins = i at eq
    subst eq
    cases q <;> rfl
  · refine Eq.trans ?_ (stood.congr (·.link (otherSide q)) fun _ => by cases q <;> rfl)
    cases q <;> rfl
  · refine Eq.trans ?_ (stood.congr (·.trigOf (otherSide q)) fun _ => by cases q <;> rfl)
    cases q <;> rfl
  · refine Eq.trans ?_ (stood.ok ok)
    cases q <;> rfl
  · refine Eq.trans ?_ (stood.below ok k hk)
    cases q <;> rfl
  · rw [link, ← hv]
  · rw [link, ← hv]
    exact if_neg (by simp [dead])
  · refine ⟨t.mkUp q, ?_, reports, fun n hn use => ?_⟩
    · rw [link, ← hv]
      exact if_pos live
    · have used : t.inUse n = true := (stood.congr (·.inUse n) fun _ => rfl).trans use
      rw [inp]
      exact ⟨mkUp_inv hn used q, mkUp_rd hn used q⟩

theorem Flies.of_launched {s w u : State} (h : LaunchedUp .a s w) (k : Flies w u .b) : Flies s u .b := by
  have tb : w.tb = s.tb := h.congr State.tb fun _ _ _ _ => rfl
  have lives : w.lives .b = s.lives .b := h.congr (·.lives .b) fun _ _ _ _ => rfl
  have inUse (n : Nat) : w.inUse n = s.inUse n := h.congr (·.inUse n) fun _ _ _ _ => rfl
  have fld : w.fld.bank = s.fld.bank ∧ w.fld.dlast = s.fld.dlast ∧ w.fld.silent = s.fld.silent :=
    ⟨h.congr (·.fld.bank) fun _ _ _ _ => rfl, h.congr (·.fld.dlast) fun _ _ _ _ => rfl,
      h.congr (·.fld.silent) fun _ _ _ _ => rfl⟩
  have outs : w.outRep .b = s.outRep .b := h.congr (·.outRep .b) fun _ _ _ _ => rfl
  have trig : w.trigOf .b = s.trigOf .b := h.trig'
  unfold Flies Reports at k ⊢
  simpa only [tb, lives, inUse, fld, outs, trig] using k

theorem execUplinkLaunch_launches {s : State} (tick : s.launchTick = true) (new : s.lgc.upAt ≠ some s.tb)
    (idle : ∀ q, (s.link q).due = none) (sound : ∀ q, (s.seq q).selfFault = false)
    (ok : Tab.ok .start s.fld.ins = true) :
    ∃ u, execUplinkLaunch s = .next u ∧ u.lgc.upAt = some s.tb ∧
      u = { s with lgc := u.lgc, fld := { s.fld with trigA := 0, trigB := 0, ins := u.fld.ins } } ∧
      ∀ q, Flies s u q := by
  have act : ¬(!s.launchTick || s.lgc.upAt == some s.tb) = true := by simp [tick, new]
  have first := launchUp_launched (idle .a) (sound .a) ok
  generalize hw : s.launchUp .a = w at first
  have idle' : (w.link .b).due = none := (congrArg Link.due first.other).trans (idle .b)
  have sound' : (w.seq .b).selfFault = false :=
    (first.congr (fun t => (t.seq .b).selfFault) fun _ _ _ _ => rfl).trans (sound .b)
  have second := launchUp_launched idle' sound' first.ok
  generalize hv : w.launchUp .b = v at second
  have tb : v.tb = s.tb :=
    (second.congr State.tb fun _ _ _ _ => rfl).trans (first.congr State.tb fun _ _ _ _ => rfl)
  refine ⟨_, by rw [execUplinkLaunch, if_neg act], ?_⟩
  dsimp only
  rw [hw, hv]
  refine ⟨congrArg some tb, ?_, fun q => ?_⟩
  · have trigA : v.fld.trigA = 0 := second.trig'.trans first.trig
    have trigB : v.fld.trigB = 0 := second.trig
    have eq := second.eq
    rw [trigA, trigB, first.eq] at eq
    have flat : v = { s with lgc := v.lgc, fld := { s.fld with trigA := 0, trigB := 0, ins := v.fld.ins } } := eq
    exact congrArg (fun x : State => { x with lgc := { v.lgc with upAt := some v.tb } }) flat
  · have link (p : Side) : ({ v with lgc := { v.lgc with upAt := some v.tb } } : State).link p = v.link p := by
      cases p <;> rfl
    cases q with
    | a =>
      have kept : v.link .a = w.link .a := second.other
      have inp (n : Nat) (hn : n < 192) : v.inp .a n = w.inp .a n := second.below _ (by simpa [sideNat] using hn)
      obtain ⟨due, dead, live⟩ := first.flies
      refine ⟨?_, fun h => ?_, fun h => ?_⟩
      · rw [link, kept, due]
      · rw [link, kept, dead h]
      · obtain ⟨f, up, reports, ins⟩ := live h
        refine ⟨f, by rw [link, kept, up], reports, fun n hn use => ?_⟩
        change f.inv.getLsbD n = decide ((v.inp .a n).cause ≠ 0) ∧
          f.rd.getLsbD n = ((v.inp .a n).deb && decide ((v.inp .a n).cause = 0))
        rw [inp n hn]
        exact ins n hn use
    | b => exact second.flies.of_launched first

end Sys2Proof.Machine

/-! Uplink frames as the logic side judges and takes them (R14, R19, R237): what forming inputs, counters, outputs
and groups leaves alone, and the trip latches. -/

namespace Sys2Proof.Machine

/-! ### The image of a copy (R19) -/

theorem image64_iff {s : State} {m : Image} (hm : s.cfg.image = some m) (q : Side) {k : Nat} (hk : k < 64) :
    (s.image64 q).getLsbD k = true ↔ 9 ≤ s.pwr.step ∧ bitOf (m.ow k) 31 = true ∧ bf (m.ow k) 27 24 ≠ 0 ∧
      (bitOf (m.ow k) 24 = true → s.latch false (bf (m.oa k) 31 26) (bf (m.oa k) 25 20) = true) ∧
      (bitOf (m.ow k) 25 = true → s.instOut false (bf (m.ob k) 25 16) (bf (m.ob k) 3 0) = true) ∧
      (bitOf (m.ow k) 26 = true → s.connBit false (bf (m.oa k) 16 9) (bf (m.oa k) 8 0) = true) ∧
      (bitOf (m.ow k) 27 = true → ∀ x ∈ s.trips q, x.out ≠ k) := by
  have img : s.img false = some m := hm
  have sourced : s.tripSourced k = bitOf (m.ow k) 27 := by rw [State.tripSourced, img]
  have free : (!(s.tripSourced k && (s.trips q).any fun x => x.out == k)) = true ↔
      (bitOf (m.ow k) 27 = true → ∀ x ∈ s.trips q, x.out ≠ k) := by
    rw [sourced]
    simp [← Bool.not_eq_true, ← imp_iff_not_or]
  rw [State.image64, getLsbD_mask64 _ hk, State.matrix, Bool.and_eq_true, Bool.and_eq_true, decide_eq_true_eq, free,
    command_iff, img]
  simp only [Option.some.injEq, exists_eq_left']
  tauto

/-! ### What forming leaves -/

/-- The links, the time, the power block, the configuration and the copies in service. -/
def State.rails (s : State) : Link × Link × Nat × Pwr × Cfg × List Side :=
  (s.lgc.linkA, s.lgc.linkB, s.tb, s.pwr, s.cfg, s.lgc.mxOut)

/-- The same with the masks and the trip latches. -/
def State.armed (s : State) :
    (Link × Link × Nat × Pwr × Cfg × List Side) × Tab Mask × List TripLatch × List TripLatch :=
  (s.rails, s.eng.masks, s.lgc.tripA, s.lgc.tripB)

/-- From `s` to `t` a frame was formed into what the logic side knows: no mask changed, and no trip latch fell. -/
structure Formed (s t : State) : Prop where
  rails : t.rails = s.rails
  noted : Noted s t
  masks : Tab.ok .zero s.eng.masks = true →
    Tab.ok .zero t.eng.masks = true ∧ ∀ n, t.maskNow n = s.maskNow n
  trips : ∀ q, ∀ x ∈ s.trips q, x ∈ t.trips q

theorem Formed.refl (s : State) : Formed s s := ⟨rfl, .refl s, fun ok => ⟨ok, fun _ => rfl⟩, fun _ _ hx => hx⟩

theorem Formed.trans {s t u : State} (h : Formed s t) (k : Formed t u) : Formed s u where
  rails := k.rails.trans h.rails
  noted := h.noted.trans k.noted
  masks ok :=
    have ⟨okt, et⟩ := h.masks ok
    have ⟨oku, eu⟩ := k.masks okt
    ⟨oku, fun n => (eu n).trans (et n)⟩
  trips q x hx := k.trips q x (h.trips q x hx)

theorem Formed.foldl {α : Type} {f : State → α → State} (h : ∀ a x, Formed a (f a x)) (l : List α) (s : State) :
    Formed s (l.foldl f s) := by
  induction l generalizing s with
  | nil => exact .refl s
  | cons x l ih => exact (h s x).trans (ih _)

theorem Formed.ite {s t u : State} {c : Prop} [Decidable c] (h : Formed s t) (k : Formed s u) :
    Formed s (if c then t else u) := by split <;> assumption

theorem Formed.of_armed {s t : State} (h : t.armed = s.armed) (units : Noted s t) : Formed s t := by
  have rails : t.rails = s.rails := congrArg (·.1) h
  have masks : t.eng.masks = s.eng.masks := congrArg (·.2.1) h
  have tb : t.tb = s.tb := congrArg (·.2.2.1) rails
  refine ⟨rails, units, fun ok => ⟨masks ▸ ok, fun n => ?_⟩, fun q x hx => ?_⟩
  · have mask : t.mask false n = s.mask false n := by
      rw [State.mask, masks, State.mask]
    rw [State.maskNow, mask, tb, State.maskNow]
  · have tripA : t.lgc.tripA = s.lgc.tripA := congrArg (·.2.2.1) h
    have tripB : t.lgc.tripB = s.lgc.tripB := congrArg (·.2.2.2) h
    cases q with
    | a => rwa [State.trips, tripA]
    | b => rwa [State.trips, tripB]

/-- No unit is used. -/
theorem Formed.still {s t : State} (h : t.armed = s.armed) (units : t.cvu = s.cvu) : Formed s t :=
  .of_armed h (.of_cvu units)

theorem record_formed (s : State) (c v : Nat) (p : List Byte) (b : Bool) (k : Option Nat) :
    Formed s (s.record c v p b k) := by
  refine .of_armed ?_ (record_noted s c v p b k)
  have h := record_recorded s c v p b k
  unfold Recorded at h
  rw [h]
  rfl

theorem Formed.record {s t : State} (h : Formed s t) (c v : Nat) (p : List Byte) (b : Bool) (k : Option Nat) :
    Formed s (t.record c v p b k) := h.trans (record_formed t c v p b k)

theorem capture_formed (s : State) (n : Nat) : Formed s (s.capture n) := by
  unfold State.capture
  dsimp only
  (repeat' split) <;> exact .still rfl rfl

theorem Formed.captureFrom {s t : State} (h : Formed s t) (k : Nat) (a e : Nat → Bool) (w : Timer → Bool) :
    Formed s (t.captureFrom k a e w) := by
  refine h.trans (.foldl (fun u x => ?_) _ t)
  split
  · exact capture_formed u _
  · exact .refl u

theorem keepFormed_formed (s : State) : Formed s s.keepFormed := by
  unfold State.keepFormed
  split <;> exact .still rfl rfl

theorem formInput_formed (s : State) (n : Nat) : Formed s (s.formInput n) := by
  unfold State.formInput
  generalize s.table33 n = x
  obtain ⟨v, c0, slot, cmp⟩ := x
  dsimp only
  refine .ite ?_ (.ite (.record ?_ ..) (.ite (.record ?_ ..) (.ite (.record ?_ ..) ?_)))
  all_goals
    refine .ite ?_ (.captureFrom ?_ ..)
    all_goals exact .still rfl rfl

theorem formInputs_formed (s : State) : Formed s s.formInputs := .foldl formInput_formed _ s

theorem Formed.leaveTrigs {s t : State} (h : Formed s t) (l : Side) (n : Nat) (v : Word) :
    Formed s (t.leaveTrigs l n v) := by
  refine h.trans ?_
  unfold State.leaveTrigs
  split
  · exact .refl t
  · cases l <;> exact .still rfl rfl

/-- The flags that a refresh brings are noted. -/
theorem Formed.noteFlags {s t : State} (h : Formed s t) (n : Nat) (es : List (Bool × Nat)) :
    Formed s (es.foldl (fun acc e => if e.1 then acc.noteFlag (counterFlag n e.2) else acc) t) := by
  refine h.trans (.foldl (fun a e => ?_) es t)
  split
  · exact .still rfl rfl
  · exact .refl a

theorem formCnt_formed (s : State) (l : Side) (tick : Nat) (b : Bool) (r : CntRep) :
    Formed s (s.formCnt l tick b r) := by
  unfold State.formCnt
  dsimp only
  refine .ite (.record ?_ ..) ?_
  all_goals
    refine .noteFlags (.leaveTrigs ?_ ..) ..
    exact .still rfl rfl

theorem formOut_formed (s : State) (l : Side) (k : Nat) (r : OutRep) : Formed s (s.formOut l k r) := by
  unfold State.formOut
  dsimp only
  refine .ite ?_ (.record ?_ ..)
  all_goals
    refine .ite (.record ?_ ..) ?_
    all_goals exact .still rfl rfl

theorem formGroup_formed (s : State) (g : Nat) (r : GroupRep) : Formed s (s.formGroup g r) := by
  unfold State.formGroup
  dsimp only
  refine .ite ?_ (.record ?_ ..)
  all_goals
    refine .ite ?_ (.record ?_ ..)
    all_goals exact .still rfl rfl

theorem reportTrig_formed (s : State) (l : Side) (t : Nat) : Formed s (s.reportTrig l t).2 := by
  unfold State.reportTrig
  dsimp only
  (repeat' split) <;> exact .still rfl rfl

theorem Formed.retireBit {s t : State} (h : Formed s t) (b : Nat) : Formed s (t.retireBit b) := by
  have add (x : Blow) (c : Prop) [Decidable c] :
      Formed s (if c then (t.addBlow x).setShadow 104 b else t.addBlow x) :=
    h.trans (.ite (.still rfl rfl) (.still rfl rfl))
  have kick {u : State} (k : Formed s u) : Formed s u.fuseKick := by
    refine k.trans ?_
    unfold State.fuseKick
    split <;> exact .still rfl rfl
  unfold State.retireBit State.blow
  exact .ite h (.ite (.record (add _ _) ..) (kick (add _ _)))

theorem judgeDead_formed (s : State) (q : Side) : Formed s (s.judgeDead q) := by
  unfold State.judgeDead
  dsimp only
  refine .ite (.record (.retireBit ?_ _) ..) (.refl s)
  cases q <;> exact .still rfl rfl

/-! ### Trip latches (R125) -/

theorem mem_addTrips {l : List TripLatch} {m : Long} {t : Nat} :
    (∀ x ∈ l, x ∈ addTrips l m t) ∧ ∀ k ∈ bits64 m, { out := k, trig := t } ∈ addTrips l m t := by
  unfold addTrips
  generalize bits64 m = ks
  induction ks generalizing l with
  | nil => exact ⟨fun x hx => hx, fun k hk => absurd hk List.not_mem_nil⟩
  | cons k ks ih =>
    rw [List.foldl_cons]
    have kept : ∀ x ∈ l, x ∈ (if l.contains { out := k, trig := t } then l else l ++ [{ out := k, trig := t }]) := by
      intro x hx
      split
      · exact hx
      · exact List.mem_append_left _ hx
    have here : ({ out := k, trig := t } : TripLatch) ∈
        (if l.contains { out := k, trig := t } then l else l ++ [{ out := k, trig := t }]) := by
      split
      · next h => exact List.contains_iff_mem.1 h
      · exact List.mem_append_right _ List.mem_cons_self
    obtain ⟨old, new⟩ := @ih (if l.contains { out := k, trig := t } then l else l ++ [{ out := k, trig := t }])
    refine ⟨fun x hx => old x (kept x hx), fun j hj => ?_⟩
    rcases List.mem_cons.1 hj with rfl | hj
    · exact old _ here
    · exact new j hj

theorem latchTrips_formed (s : State) (t : Nat) (m : Long) : Formed s (s.latchTrips t m) := by
  unfold State.latchTrips
  dsimp only
  refine .ite (.refl s) (.record ?_ ..)
  refine ⟨rfl, .of_cvu rfl, fun ok => ⟨ok, fun _ => rfl⟩, fun q x hx => ?_⟩
  cases q with
  | a =>
    change x ∈ if s.mx .a then addTrips s.lgc.tripA m t else s.lgc.tripA
    split
    · exact mem_addTrips.1 x hx
    · exact hx
  | b =>
    change x ∈ if s.mx .b then addTrips s.lgc.tripB m t else s.lgc.tripB
    split
    · exact mem_addTrips.1 x hx
    · exact hx

theorem trips_of_recorded {s t : State} (h : Recorded s t) (q : Side) : t.trips q = s.trips q := by
  unfold Recorded at h
  rw [h]
  cases q <;> rfl

/-- R125: a mask latches its outputs OFF in the copies in service. -/
theorem mem_latchTrips {s : State} {q : Side} (on : s.mx q = true) {m : Long} {k : Nat} (hk : k < 64)
    (hm : m.getLsbD k = true) (t : Nat) : { out := k, trig := t } ∈ (s.latchTrips t m).trips q := by
  have some : ¬m = 0 := by
    rintro rfl
    simp at hm
  rw [State.latchTrips, if_neg some]
  dsimp only
  rw [trips_of_recorded (record_recorded ..)]
  have latch (l : List TripLatch) := (mem_addTrips (l := l) (t := t)).2 k (mem_bits64.2 ⟨hk, hm⟩)
  cases q with
  | a =>
    change _ ∈ if s.mx .a then addTrips s.lgc.tripA m t else s.lgc.tripA
    rw [if_pos on]
    exact latch _
  | b =>
    change _ ∈ if s.mx .b then addTrips s.lgc.tripB m t else s.lgc.tripB
    rw [if_pos on]
    exact latch _

/-- A trigger that fired is noted at its mask, which stays as it is. -/
theorem setFired_formed (s : State) (t : Nat) : Formed s { s with eng := { s.eng with
    masks := Tab.set .zero s.eng.masks (trigKey false t) { s.mask false t with fired := some s.tb } } } := by
  refine ⟨rfl, .of_cvu rfl, fun ok => ⟨Tab.ok_set _ _ ok, fun n => ?_⟩, fun q x hx => ?_⟩
  · have same {α : Type} (f : Mask → α) (hf : ∀ m x, f { m with fired := x } = f m) :
        f (Tab.get .zero (Tab.set .zero s.eng.masks (trigKey false t) { s.mask false t with fired := some s.tb })
          (trigKey false n)) = f (s.mask false n) := by
      rw [Tab.get_set ok]
      split
      · next h => rw [hf, State.mask, State.mask, h]
      · rfl
    have tick := same Mask.tick fun _ _ => rfl
    have mask := same Mask.mask fun _ _ => rfl
    have prev := same Mask.prev fun _ _ => rfl
    unfold State.maskNow
    dsimp only [State.mask] at tick mask prev ⊢
    rw [tick, mask, prev]
  · cases q <;> exact hx

theorem fire_formed (s : State) (t : Nat) : Formed s (s.fire t) :=
  ((Formed.captureFrom (.refl s) ..).trans (setFired_formed _ t)).trans (latchTrips_formed ..)

theorem mx_of_rails {s t : State} (h : t.rails = s.rails) (q : Side) : t.mx q = s.mx q := by
  have pwr : t.pwr = s.pwr := congrArg (·.2.2.2.1) h
  have out : t.lgc.mxOut = s.lgc.mxOut := congrArg (·.2.2.2.2.2) h
  simp only [State.mx, State.halfIn, State.powered, State.dom, pwr, out]

theorem link_of_rails {s t : State} (h : t.rails = s.rails) (q : Side) : t.link q = s.link q := by
  have a : t.lgc.linkA = s.lgc.linkA := congrArg (·.1) h
  have b : t.lgc.linkB = s.lgc.linkB := congrArg (·.2.1) h
  cases q with
  | a => exact a
  | b => exact b

theorem mem_fire {s : State} {q : Side} (on : s.mx q = true) {t k : Nat} (hk : k < 64)
    (hm : (s.maskNow t).getLsbD k = true) : { out := k, trig := t } ∈ (s.fire t).trips q := by
  have before : Formed s _ := (Formed.captureFrom (.refl s) 3 (fun a => a % 32 == t) (fun _ => true) fun _ => true).trans
    (setFired_formed _ t)
  exact mem_latchTrips ((mx_of_rails before.rails q).trans on) hk hm t

end Sys2Proof.Machine

/-! UPLINK_FRAME and FRAME_MISSING (R237). -/

namespace Sys2Proof.Machine

/-! ### The triggers of a frame (R125, R210) -/

/-- Link `l` reports trigger `t` by frame `f`; those of `twin` were reported by the other link on the same tick. -/
def State.takeTrig (l : Side) (f : Up) (twin : Word) (s : State) (t : Nat) : State :=
  if f.trig.getLsbD t then
    if (s.reportTrig l t).1 && !twin.getLsbD t then (s.reportTrig l t).2.fire t else (s.reportTrig l t).2
  else s

/-- The triggers that the other link has reported for the launch tick of `f`. -/
def State.twin (s : State) (l : Side) (f : Up) : Word :=
  ((s.lastUp (otherSide l)).map fun x => if x.tick = f.tick then x.trig else 0).getD 0

section
variable {l : Side} {f : Up}

theorem takeTrig_formed (w : Word) (s : State) (t : Nat) : Formed s (s.takeTrig l f w t) := by
  unfold State.takeTrig
  split
  · split
    · exact (reportTrig_formed s l t).trans (fire_formed _ t)
    · exact reportTrig_formed s l t
  · exact .refl s

theorem Formed.fold {α : Type} {s t : State} (h : Formed s t) {g : State → α → State}
    (hg : ∀ a x, Formed a (g a x)) (xs : List α) : Formed s (xs.foldl g t) := h.trans (.foldl hg xs t)

theorem Formed.silseen {s t : State} (h : Formed s t) (b : Bool) :
    Formed s { t with lgc := { t.lgc with silseen := b } } := h.trans (.still rfl rfl)

theorem Formed.any {s t : State} (h : Formed s t) (b : Bool) :
    Formed s { t with lgc := { t.lgc with any := b } } := h.trans (.still rfl rfl)

theorem Formed.formInputs {s t : State} (h : Formed s t) : Formed s t.formInputs := h.trans (formInputs_formed t)

/-- What a frame brings but its triggers is formed, then each of its triggers is taken. -/
theorem takeUp_eq (s : State) (l : Side) (f : Up) : ∃ c t,
    Formed (s.setLink l { s.link l with last := some f, causes := c }) t ∧ s.takeUp l f =
      (((List.range 32).foldl (State.takeTrig l f (s.twin l f)) t).judgeDead .a).judgeDead .b := by
  refine ⟨f.causes.foldl (fun acc e => Tab.set 0 acc e.1 e.2) (s.link l).causes, _, ?_, rfl⟩
  refine .fold (.fold (.fold (.fold (.silseen (.formInputs (.any (keepFormed_formed _) _)) _) ?_ _) ?_ _) ?_ _) ?_ _
  · exact fun a r => formCnt_formed ..
  · exact fun a e => formCnt_formed ..
  · exact fun a e => formOut_formed ..
  · exact fun a e => formGroup_formed ..

theorem takeUp_formed (s : State) (l : Side) (f : Up) : ∃ c,
    Formed (s.setLink l { s.link l with last := some f, causes := c }) (s.takeUp l f) := by
  obtain ⟨c, t, formed, e⟩ := takeUp_eq s l f
  refine ⟨c, e ▸ ?_⟩
  exact ((formed.fold (takeTrig_formed _) _).trans (judgeDead_formed _ .a)).trans (judgeDead_formed _ .b)

/-- A trigger that is not a counter's is taken as it is reported. -/
theorem takeTrig_fires {s : State} {m : Image} {w : TrigImg} {t : Nat} (hm : s.cfg.image = some m)
    (hw : m.trigs[t]? = some w) (kind : bf w.word 31 28 ≠ 2) (on : f.trig.getLsbD t = true) :
    s.takeTrig l f 0 t = s.fire t := by
  have img : s.img false = some m := hm
  have reported : s.reportTrig l t = (true, s) := by
    unfold State.reportTrig
    rw [img, Option.bind_some, hw]
    exact if_pos kind
  rw [State.takeTrig, if_pos on, reported]
  simp

/-- R125: the mask in force of a trigger that a frame reports alone latches its outputs OFF. -/
theorem mem_takeUp {s : State} {q : Side} (on : s.mx q = true) (alone : s.lastUp (otherSide l) = none)
    (ok : Tab.ok .zero s.eng.masks = true) {m : Image} {w : TrigImg} {t k : Nat} (ht : t < 32)
    (hm : s.cfg.image = some m) (hw : m.trigs[t]? = some w) (kind : bf w.word 31 28 ≠ 2)
    (reported : f.trig.getLsbD t = true) (hk : k < 64) (mask : (s.maskNow t).getLsbD k = true) :
    { out := k, trig := t } ∈ (s.takeUp l f).trips q := by
  obtain ⟨c, a, formed, e⟩ := takeUp_eq s l f
  have twin : s.twin l f = 0 := by rw [State.twin, alone]; rfl
  obtain ⟨before, after, split⟩ := List.append_of_mem (List.mem_range.2 ht)
  rw [e, twin, split, List.foldl_append, List.foldl_cons]
  have first := formed.fold (takeTrig_formed (f := f) (l := l) 0) before
  generalize before.foldl (State.takeTrig l f 0) a = b at first
  have start : (s.setLink l { s.link l with last := some f, causes := c }).cfg = s.cfg := by cases l <;> rfl
  have cfg : b.cfg = s.cfg := (congrArg (·.2.2.2.2.1) first.rails).trans start
  have copies : b.mx q = true := by
    refine (mx_of_rails first.rails q).trans (Eq.trans ?_ on)
    cases l <;> rfl
  have here : b.maskNow t = s.maskNow t := by
    refine ((first.masks ?_).2 t).trans ?_
    · refine Eq.trans ?_ ok
      cases l <;> rfl
    · cases l <;> rfl
  rw [takeTrig_fires (cfg ▸ hm) hw kind reported]
  have rest := (Formed.fold (.refl (b.fire t)) (takeTrig_formed (f := f) (l := l) 0) after).trans
    ((judgeDead_formed _ .a).trans (judgeDead_formed _ .b))
  exact rest.trips q _ (mem_fire copies hk (here ▸ mask))

end

end Sys2Proof.Machine

/-! UPLINK_FRAME and FRAME_MISSING as commands (R237). -/

namespace Sys2Proof.Machine

section
variable {s : State} {l : Side} {f : Up}

/-- With no defect, the receiving unit of the link passes a frame whose check is good, and only it is used. -/
theorem upCheck_good (clean : UnitClean s (13 + 2 * sideNat l)) :
    ∃ c, (s.upCheck l f false).2 = true ∧ (s.upCheck l f false).1.cvu = c ∧ Tab.ok .fresh c = true ∧
      (s.upCheck l f false).1 = { s with cvu := c } ∧ (Tab.get .fresh c (13 + 2 * sideNat l)).due = false ∧
      ∀ u ≠ 13 + 2 * sideNat l, Tab.get .fresh c u = s.unit u := by
  obtain ⟨ok, sound, charged⟩ := clean
  have run := runUnit_clean ok (fun c => c.aliveCheck false f.useq (f.bytes l)) sound (aliveCheck_upset ..)
  generalize hx : (s.unit (13 + 2 * sideNat l)).aliveCheck false f.useq (f.bytes l) = x at run
  have fault : x.fault = false := by rw [← hx, aliveCheck_fault]
  have due : x.due = false := by rw [← hx, aliveCheck_due, charged]
  have here : (s.setUnit (13 + 2 * sideNat l) x).unit (13 + 2 * sideNat l) = x :=
    (unit_setUnit ok _ x _).trans (if_pos rfl)
  have ok1 : Tab.ok .fresh (s.setUnit (13 + 2 * sideNat l) x).cvu = true := Tab.ok_set _ _ ok
  have e : s.upCheck l f false =
      ((s.setUnit (13 + 2 * sideNat l) x).setUnit (13 + 2 * sideNat l) (x.expect x.result), true) := by
    unfold State.upCheck
    dsimp only
    rw [run, here, fault]
    rfl
  rw [e]
  refine ⟨_, rfl, rfl, Tab.ok_set _ _ ok1, rfl, ?_, fun u hu => ?_⟩
  · have get := unit_setUnit ok1 (13 + 2 * sideNat l) (x.expect x.result) (13 + 2 * sideNat l)
    exact (congrArg Cvu.due (get.trans (if_pos rfl))).trans due
  · have one := unit_setUnit ok1 (13 + 2 * sideNat l) (x.expect x.result) u
    have two := unit_setUnit ok (13 + 2 * sideNat l) x u
    exact (one.trans (if_neg hu)).trans (two.trans (if_neg hu))

/-- A frame whose check is bad does not pass; what else the receiving unit does, it is the recorder's and the
units'. -/
theorem upCheck_bad (s : State) (l : Side) (f : Up) :
    (s.upCheck l f true).2 = false ∧ (s.upCheck l f true).1 = { s with
      rcd := (s.upCheck l f true).1.rcd, cvu := (s.upCheck l f true).1.cvu,
      free := (s.upCheck l f true).1.free } := by
  have run := runUnit_recorded s (13 + 2 * sideNat l) fun c => c.aliveCheck false f.useq (f.bytes l)
  unfold State.upCheck
  dsimp only
  generalize s.runUnit (13 + 2 * sideNat l) (fun c => c.aliveCheck false f.useq (f.bytes l)) = t at run ⊢
  unfold Recorded at run
  rw [Bool.true_or, if_pos rfl]
  refine ⟨rfl, ?_⟩
  rw [run]
  rfl

/-- No failure of a unit of the link waits to be charged. -/
theorem chargeLink_none (h0 : (s.unit (12 + 2 * sideNat l)).due = false)
    (h1 : (s.unit (13 + 2 * sideNat l)).due = false) : s.chargeLink l = s := by
  have next : 12 + 2 * sideNat l + 1 = 13 + 2 * sideNat l := by omega
  rw [State.chargeLink, next, h0, h1]
  rfl

theorem judgedLink_noted (s : State) (v : Link) (b : Prop) [Decidable b] :
    Noted s (if b then (s.setLink l v).linkRecord l 0 else s.setLink l v) := by
  have set : Noted s (s.setLink l v) := .of_cvu (by cases l <;> rfl)
  split
  · exact set.trans (record_noted ..)
  · exact set

/-- A good frame of a link in service makes it VALID, and is taken. -/
theorem goodUp_eq (kept : (s.link l).retired = false) (sound : (s.link l).st ≠ .faulty) :
    ∃ t, LinkJudged l s t ∧ Noted s t ∧
      t.link l = { s.link l with up := none, due := none, missRun := 0, st := .valid } ∧
      s.goodUp l f = t.takeUp l f := by
  refine ⟨if (s.link l).st = .silent then (s.setLink l { s.link l with
    up := none, due := none, missRun := 0, st := .valid }).linkRecord l 0 else s.setLink l { s.link l with
    up := none, due := none, missRun := 0, st := .valid }, ?_, judgedLink_noted s _ _, ?_, ?_⟩
  · split
    · exact (setLink_judged s _).trans (record_judged ..)
    · exact setLink_judged s _
  · split
    · rw [State.link_linkRecord, State.link_setLink]
    · rw [State.link_setLink]
  · unfold State.goodUp
    dsimp only
    rw [if_neg (ne_true_of_eq_false kept), if_neg sound]

theorem execUplinkFrame_late (bad : Bool) (up : (s.link l).up = some f) (late : f.tick + 1000 < s.tb) :
    execUplinkFrame l bad s = .next s := by
  simp [execUplinkFrame, up, late]

theorem execUplinkFrame_inTime (bad : Bool) (up : (s.link l).up = some f) (inTime : s.tb ≤ f.tick + 1000)
    (on : s.mx l = true) : execUplinkFrame l bad s = .next (State.chargeLink (
      if (s.upCheck l f bad).2 then (s.upCheck l f bad).1.goodUp l f
      else ((s.upCheck l f bad).1.setLink l { (s.upCheck l f bad).1.link l with up := none }).countLink l true) l) := by
  have act : ¬(!s.mx l || decide (f.tick + 1000 < s.tb)) = true := by simp [on, inTime]
  unfold execUplinkFrame
  rw [up]
  dsimp only
  rw [if_neg act]

/-- A good frame in time, on a link in service whose units are sound. -/
theorem execUplinkFrame_good (up : (s.link l).up = some f) (inTime : s.tb ≤ f.tick + 1000) (on : s.mx l = true)
    (kept : (s.link l).retired = false) (sound : (s.link l).st ≠ .faulty)
    (clean : UnitClean s (13 + 2 * sideNat l)) (charged : (s.unit (12 + 2 * sideNat l)).due = false) :
    ∃ t, LinkJudged l s t ∧ t.link l = { s.link l with up := none, due := none, missRun := 0, st := .valid } ∧
      execUplinkFrame l false s = .next (t.takeUp l f) := by
  obtain ⟨c, passes, -, ok, e, due, others⟩ := upCheck_good (f := f) clean
  have kept' : (({ s with cvu := c } : State).link l).retired = false := by cases l <;> exact kept
  have sound' : (({ s with cvu := c } : State).link l).st ≠ .faulty := by cases l <;> exact sound
  obtain ⟨t, judged, noted, link, good⟩ := goodUp_eq (f := f) kept' sound'
  have first : LinkJudged l s { s with cvu := c } := by cases l <;> rfl
  refine ⟨t, first.trans judged, link.trans (by cases l <;> rfl), ?_⟩
  rw [execUplinkFrame_inTime false up inTime on, passes, if_pos rfl, e, good]
  obtain ⟨k, formed⟩ := takeUp_formed t l f
  have set : Noted t (t.setLink l { t.link l with last := some f, causes := k }) := .of_cvu (by cases l <;> rfl)
  have all := noted.trans (set.trans formed.noted)
  have unit (u : Nat) (hu : u ≠ 18) : (t.takeUp l f).unit u = Tab.get .fresh c u := all.unit ok u hu
  have low : sideNat l ≤ 1 := by cases l <;> decide
  rw [chargeLink_none]
  · rw [unit _ (by omega), others _ (by omega), charged]
  · rw [unit _ (by omega), due]

theorem takeUp_link (s : State) (l : Side) (f : Up) :
    ∃ c, (s.takeUp l f).link l = { s.link l with last := some f, causes := c } := by
  obtain ⟨c, formed⟩ := takeUp_formed s l f
  exact ⟨c, (link_of_rails formed.rails l).trans (State.link_setLink ..)⟩

theorem takeUp_cfg (s : State) (l : Side) (f : Up) : (s.takeUp l f).cfg = s.cfg := by
  obtain ⟨c, formed⟩ := takeUp_formed s l f
  refine (congrArg (·.2.2.2.2.1) formed.rails).trans ?_
  cases l <;> rfl

/-- A frame whose check fails is dropped and counted. -/
theorem execUplinkFrame_bad (up : (s.link l).up = some f) (inTime : s.tb ≤ f.tick + 1000) (on : s.mx l = true) :
    ∃ u, execUplinkFrame l true s = .next u ∧ (u.link l).up = none ∧
      (u.link l).crcerr = min 0xFFFF ((s.link l).crcerr + 1) ∧ (u.link l).due = (s.link l).due ∧
      u.fld = s.fld ∧ u.sea = s.sea := by
  obtain ⟨fails, e⟩ := upCheck_bad s l f
  rw [execUplinkFrame_inTime true up inTime on, fails, if_neg Bool.false_ne_true]
  generalize (s.upCheck l f true).1 = t at e
  have link : t.link l = s.link l := by rw [e]; cases l <;> rfl
  generalize hv : ({ t.link l with up := none } : Link) = v
  have judged := ((setLink_judged t v).trans (countLink_judged _ true)).trans (chargeLink_judged (l := l) _)
  have frames := (chargeLink_frames _ l).trans (countLink_crc_frames (t.setLink l v) l)
  rw [State.link_setLink] at frames
  have up : v.up = none := by rw [← hv]
  have crcerr : v.crcerr = (s.link l).crcerr := by rw [← hv, ← link]
  have due : v.due = (s.link l).due := by rw [← hv, ← link]
  refine ⟨_, rfl, (congrArg (·.1) frames).trans up,
    (congrArg (·.2.2.2) frames).trans (by rw [crcerr, satAdd]), (congrArg (·.2.1) frames).trans due, ?_, ?_⟩
  · exact judged.fld.trans (by rw [e])
  · exact judged.sea.trans (by rw [e])

/-- R125: what a trigger's mask in force opens is latched OFF in each copy in service. -/
theorem execUplinkFrame_trips (up : (s.link l).up = some f) (inTime : s.tb ≤ f.tick + 1000) (on : s.mx l = true)
    (kept : (s.link l).retired = false) (sound : (s.link l).st ≠ .faulty)
    (clean : UnitClean s (13 + 2 * sideNat l)) (charged : (s.unit (12 + 2 * sideNat l)).due = false)
    (alone : s.lastUp (otherSide l) = none) (masks : Tab.ok .zero s.eng.masks = true) {t : Nat} {m : Image}
    {w : TrigImg} (ht : t < 32) (reported : f.trig.getLsbD t = true) (hm : s.cfg.image = some m)
    (hw : m.trigs[t]? = some w) (kind : bf w.word 31 28 ≠ 2) :
    ∃ u, execUplinkFrame l false s = .next u ∧
      ∀ q k, s.mx q = true → k < 64 → (s.maskNow t).getLsbD k = true →
        { out := k, trig := t } ∈ u.trips q ∧ (bitOf (m.ow k) 27 = true → u.matrix q k = false) := by
  obtain ⟨a, judged, link, run⟩ := execUplinkFrame_good up inTime on kept sound clean charged
  have cfg : a.cfg = s.cfg := judged.congr State.cfg fun _ _ _ _ _ => by cases l <;> rfl
  have eng : a.eng = s.eng := judged.congr State.eng fun _ _ _ _ _ => by cases l <;> rfl
  have alone' : a.lastUp (otherSide l) = none :=
    (judged.congr (·.lastUp (otherSide l)) fun _ _ _ _ _ => by cases l <;> rfl).trans alone
  have mask : a.maskNow t = s.maskNow t := judged.congr (·.maskNow t) fun _ _ _ _ _ => by cases l <;> rfl
  refine ⟨_, run, fun q k copy hk open_ => ?_⟩
  have latched : { out := k, trig := t } ∈ (a.takeUp l f).trips q :=
    mem_takeUp ((judged.mx q).trans copy) alone' (eng ▸ masks) ht (cfg ▸ hm) hw kind reported hk (mask ▸ open_)
  refine ⟨latched, fun sourced => ?_⟩
  have img : (a.takeUp l f).img false = some m := (congrArg Cfg.image ((takeUp_cfg a l f).trans cfg)).trans hm
  have any : ((a.takeUp l f).trips q).any (fun x => x.out == k) = true :=
    List.any_eq_true.2 ⟨_, latched, beq_self_eq_true k⟩
  rw [State.matrix, State.tripSourced, img, any]
  simp [sourced]

/-! ### A frame that is missing -/

theorem execFrameMissing_early {t : Nat} (due : (s.link l).due = some t) (early : s.tb < t + 1000) :
    execFrameMissing l s = .next s := by
  have wait : ¬t + 1000 ≤ s.tb := by omega
  simp [execFrameMissing, due, wait]

/-- What counting a missing frame leaves: nothing is due, and the link is not VALID. -/
theorem countLink_missing (s : State) (l : Side) (h : (s.link l).st ≠ .valid) :
    ((s.countLink l false).link l).due = (s.link l).due ∧ ((s.countLink l false).link l).st ≠ .valid := by
  have faulty (t : State) (ht : (t.link l).st ≠ .valid) : ((t.judgeFaulty l).link l).st ≠ .valid := by
    unfold State.judgeFaulty
    dsimp only
    split
    · exact ht
    split <;> simp
  have done (v : Link) (c : Prop) [Decidable c] (hv : v.st ≠ .valid) (hd : v.due = (s.link l).due) :
      ((if c then (s.setLink l v).judgeFaulty l else s.setLink l v).link l).due = (s.link l).due ∧
        ((if c then (s.setLink l v).judgeFaulty l else s.setLink l v).link l).st ≠ .valid := by
    have link := State.link_setLink s v l
    split
    · refine ⟨(congrArg (·.2.1) (judgeFaulty_frames _ l)).trans ?_, faulty _ ?_⟩
      · exact (congrArg Link.due link).trans hd
      · rwa [link]
    · rw [link]
      exact ⟨hd, hv⟩
  exact done _ _ h rfl

theorem missLink_silent (s : State) (l : Side) :
    ((s.missLink l).link l).due = none ∧ ((s.missLink l).link l).st ≠ .valid := by
  unfold State.missLink
  dsimp only
  generalize hv : ({ s.link l with
    st := if (s.link l).st = .faulty then .faulty else .silent, up := none, due := none, last := none,
    missRun := (s.link l).missRun + 1, good := 0 } : Link) = v
  have silent : v.st ≠ .valid := by
    rw [← hv]
    dsimp only
    split <;> decide
  have due : v.due = none := by rw [← hv]
  generalize ha : (if (s.link l).st = .valid ∧ (s.link l).retired = false then (s.setLink l v).linkRecord l 1
    else s.setLink l v) = a
  have linkA : a.link l = v := by
    rw [← ha]
    split
    · rw [State.link_linkRecord, State.link_setLink]
    · rw [State.link_setLink]
  have linkB (c : Prop) [Decidable c] : ((if c then a.countLink l false else a).link l).due = none ∧
      ((if c then a.countLink l false else a).link l).st ≠ .valid := by
    split
    · have h := countLink_missing a l (linkA ▸ silent)
      exact ⟨h.1.trans (linkA ▸ due), h.2⟩
    · exact linkA ▸ ⟨due, silent⟩
  have formed (b : State) : Formed b ((b.keepFormed.formInputs.judgeDead .a).judgeDead .b) :=
    ((keepFormed_formed b).formInputs.trans (judgeDead_formed _ .a)).trans (judgeDead_formed _ .b)
  rw [link_of_rails (formed _).rails l]
  exact linkB _

theorem execFrameMissing_silent {t : Nat} (due : (s.link l).due = some t) (late : t + 1000 ≤ s.tb)
    (live : s.alive = true) : ∃ u, execFrameMissing l s = .next u ∧ u.delivers l = false ∧
      (u.link l).due = none ∧ (u.link l).st ≠ .valid := by
  obtain ⟨none, silent⟩ := missLink_silent s l
  refine ⟨s.missLink l, by simp [execFrameMissing, due, late, live], ?_, none, silent⟩
  simp [State.delivers, silent]

end

end Sys2Proof.Machine

/-! DOWNLINK_ACCEPT and CONFIGURATION_PACKET (R224, R233, R237): what the field side does with a frame leaves the
frames that it holds, and the logic behind the link, alone. -/

namespace Sys2Proof.Machine

/-- The newest frames that the sequencers hold, and the sea, the engines and the configuration. -/
def State.shore (s : State) : Option (Nat × Long) × Option (Nat × Long) × Option Nat × Nat × Sea × Eng × Cfg :=
  (s.fld.seqA.got, s.fld.seqB.got, s.fld.accepted, s.fld.dlast, s.sea, s.eng, s.cfg)

@[simp] theorem shore_mk (p t f se fl nv pw fu rc tm cv fi lg cn sea en sv cf po ln) :
    (State.mk p t f se fl nv pw fu rc tm cv fi lg cn sea en sv cf po ln).shore =
      (fi.seqA.got, fi.seqB.got, fi.accepted, fi.dlast, sea, en, cf) := (rfl)

@[simp] theorem shore_eta (s : State) :
    (s.fld.seqA.got, s.fld.seqB.got, s.fld.accepted, s.fld.dlast, s.sea, s.eng, s.cfg) = s.shore := rfl

@[simp] theorem shore_ite (c : Prop) [Decidable c] (a b : State) :
    (if c then a else b).shore = if c then a.shore else b.shore := by split <;> rfl

@[simp] theorem foldl_shore {α : Type} (f : State → α → State) (h : ∀ a x, (f a x).shore = a.shore) (l : List α)
    (s : State) : (l.foldl f s).shore = s.shore := by
  induction l generalizing s with
  | nil => rfl
  | cons x l ih => rw [List.foldl_cons, ih, h]

section
variable (s : State)

/-! ### Inputs, outputs and counters of the field side -/

@[simp] theorem State.setInp_shore (q : Side) (n : Nat) (v : SeqIn) : (s.setInp q n v).shore = s.shore := (rfl)

@[simp] theorem State.setFout_shore (k : Nat) (v : FOut) : (s.setFout k v).shore = s.shore := (rfl)

@[simp] theorem State.updFout_shore (k : Nat) (f : FOut → FOut) : (s.updFout k f).shore = s.shore := (rfl)

@[simp] theorem State.setFcnt_shore (q : Side) (m : Nat) (v : SeqCnt) : (s.setFcnt q m v).shore = s.shore := (rfl)

@[simp] theorem State.setCause_shore (q : Side) (n c : Nat) : (s.setCause q n c).shore = s.shore := by
  simp [State.setCause, State.putDeb]

@[simp] theorem State.refreshInp_shore (q : Side) (n : Nat) : (s.refreshInp q n).shore = s.shore := by
  unfold State.refreshInp
  (repeat' split) <;> simp

@[simp] theorem State.refreshInputs_shore (p : Nat → Bool) : (s.refreshInputs p).shore = s.shore := by
  simp [State.refreshInputs]

@[simp] theorem State.holdInputs_shore (k : Nat) (on : Bool) : (s.holdInputs k on).shore = s.shore := by
  simp [State.holdInputs]

@[simp] theorem State.setPhase_shore (k : Nat) (p : Phase) : (s.setPhase k p).shore = s.shore := by
  unfold State.setPhase
  dsimp only
  (repeat' split) <;> simp

@[simp] theorem State.refreshOut_shore (k : Nat) : (s.refreshOut k).shore = s.shore := by simp [State.refreshOut]

@[simp] theorem State.refreshOuts_shore : s.refreshOuts.shore = s.shore := by simp [State.refreshOuts]

@[simp] theorem State.refreshField_shore : s.refreshField.shore = s.shore := by simp [State.refreshField]

@[simp] theorem State.putCnt_shore (q : Side) (m : Nat) (c : SeqCnt) : (s.putCnt q m c).shore = s.shore := by
  unfold State.putCnt State.fireTrigs
  cases q <;> rfl

@[simp] theorem State.clearCounter_shore (m : Nat) : (s.clearCounter m).shore = s.shore := by
  simp [State.clearCounter]

@[simp] theorem State.unflag_shore (f : FlagClear) : (s.unflag f).shore = s.shore := by simp [State.unflag]

/-! ### What a frame asks for -/

@[simp] theorem State.restartList_shore (c : Nat) : (s.restartList c).shore = s.shore := (rfl)

@[simp] theorem State.changeBank_shore (b : Bool) : (s.changeBank b).shore = s.shore := by simp [State.changeBank]

@[simp] theorem State.finish_shore (op st : Nat) (b : List Byte) : (s.finish op st b).shore = s.shore := by
  simp [State.finish]

@[simp] theorem State.endOutReset_shore (k st : Nat) : (s.endOutReset k st).shore = s.shore := by
  simp [State.endOutReset]

@[simp] theorem State.startRetest_shore (k : Nat) : (s.startRetest k).shore = s.shore := by
  simp [State.startRetest]

@[simp] theorem State.downCommands_shore (d : Down) : (s.downCommands d).shore = s.shore := by
  unfold State.downCommands
  split
  · rfl
  dsimp only
  rw [foldl_shore _ (fun a k => State.startRetest_shore a k), foldl_shore _ fun a e => ?_, foldl_shore _ fun a m => ?_,
    foldl_shore _ fun a f => State.unflag_shore a f, State.changeBank_shore]
  · rfl
  · split
    · exact State.clearCounter_shore a m
    · rfl
  · split <;> rfl

@[simp] theorem State.endHolds_shore (old : State) : (s.endHolds old).shore = s.shore := by simp [State.endHolds]

@[simp] theorem State.takeSolo_shore (d : Down) : (s.takeSolo d).shore = s.shore := by
  have solo (t : State) (q : Side) (b : Bool) : (t.setSeq q { t.seq q with solo := b }).shore = t.shore := by
    cases q <;> rfl
  simp [State.takeSolo, solo]

@[simp] theorem State.applyImage_shore : s.applyImage.shore = s.shore := by simp [State.applyImage]

@[simp] theorem State.endSilence_shore (d : Down) : (s.endSilence d).shore = s.shore := by
  unfold State.endSilence
  (repeat' split) <;> simp

theorem LinkJudged.shore {s t : State} {l : Side} (h : LinkJudged l s t) : t.shore = s.shore :=
  h.congr State.shore fun _ _ _ _ _ => by cases l <;> rfl

@[simp] theorem State.linkDiffer_shore : s.linkDiffer.shore = s.shore := by
  unfold State.linkDiffer
  refine foldl_shore _ (fun a l => ?_) _ s
  dsimp only
  split
  · exact ((setLink_judged a _).trans (judgeFaulty_judged _)).shore
  · exact (setLink_judged (l := l) a _).shore

@[simp] theorem State.linkDiffer_tb : s.linkDiffer.tb = s.tb := (kept_eq (State.linkDiffer_kept s)).2.1

end

/-- A good frame is noted with its number and its image, and is accepted now. -/
theorem goodDown_shore (s : State) (q : Side) (d : Down) : (s.goodDown q d).shore =
    ((s.setSeq q { s.seq q with got := some (d.tb, d.img) }).fld.seqA.got,
      (s.setSeq q { s.seq q with got := some (d.tb, d.img) }).fld.seqB.got,
      some s.tb, d.dseq, s.sea, s.eng, s.cfg) := by
  have tb : (s.setSeq q { s.seq q with got := some (d.tb, d.img) }).tb = s.tb := by cases q <;> rfl
  have behind : (s.setSeq q { s.seq q with got := some (d.tb, d.img) }).sea = s.sea ∧
      (s.setSeq q { s.seq q with got := some (d.tb, d.img) }).eng = s.eng ∧
      (s.setSeq q { s.seq q with got := some (d.tb, d.img) }).cfg = s.cfg := by cases q <;> exact ⟨rfl, rfl, rfl⟩
  obtain ⟨sea, eng, cfg⟩ := behind
  unfold State.goodDown
  dsimp only
  generalize s.setSeq q { s.seq q with got := some (d.tb, d.img) } = a at *
  have same : (if a.imagesDiffer then a.linkDiffer else a).shore = a.shore := by simp
  have now : (if a.imagesDiffer then a.linkDiffer else a).tb = s.tb := by
    split
    · exact (State.linkDiffer_tb a).trans tb
    · exact tb
  generalize (if a.imagesDiffer then a.linkDiffer else a) = b at *
  have gotA : b.fld.seqA.got = a.fld.seqA.got := congrArg (·.1) same
  have gotB : b.fld.seqB.got = a.fld.seqB.got := congrArg (·.2.1) same
  have sea' : b.sea = s.sea := (congrArg (·.2.2.2.2.1) same).trans sea
  have eng' : b.eng = s.eng := (congrArg (·.2.2.2.2.2.1) same).trans eng
  have cfg' : b.cfg = s.cfg := (congrArg (·.2.2.2.2.2.2) same).trans cfg
  simp [gotA, gotB, sea', eng', cfg', now]

theorem execDownlinkAccept_good {s : State} {q : Side} {d : Down} (down : (s.link q).down = some d)
    (inTime : s.tb ≤ d.tb + 1000) (sound : d.spoiled = false) (live : s.lives q = true) :
    ∃ u, execDownlinkAccept q false s = .next u ∧ u.fld.accepted = some s.tb ∧ u.fld.dlast = d.dseq ∧
      (u.seq q).got = some (d.tb, d.img) ∧ u.sea = s.sea ∧ u.eng = s.eng ∧ u.cfg = s.cfg := by
  have act : ¬(false || d.spoiled || !s.lives q || decide (d.tb + 1000 < s.tb)) = true := by
    simp [sound, live, inTime]
  have run : execDownlinkAccept q false s =
      .next ((s.setLink q { s.link q with down := none }).goodDown q d) := by
    unfold execDownlinkAccept
    rw [down]
    dsimp only
    rw [if_neg act]
  have before : LinkJudged q s (s.setLink q { s.link q with down := none }) := setLink_judged s _
  generalize s.setLink q { s.link q with down := none } = a at run before
  have tb : a.tb = s.tb := before.congr State.tb fun _ _ _ _ _ => by cases q <;> rfl
  have start := before.shore
  have shore := goodDown_shore a q d
  refine ⟨_, run, (congrArg (·.2.2.1) shore).trans (by rw [tb]), congrArg (·.2.2.2.1) shore, ?_, ?_, ?_, ?_⟩
  · cases q with
    | a => exact congrArg (·.1) shore
    | b => exact congrArg (·.2.1) shore
  · exact (congrArg (·.2.2.2.2.1) shore).trans (congrArg (·.2.2.2.2.1) start)
  · exact (congrArg (·.2.2.2.2.2.1) shore).trans (congrArg (·.2.2.2.2.2.1) start)
  · exact (congrArg (·.2.2.2.2.2.2) shore).trans (congrArg (·.2.2.2.2.2.2) start)

/-- What makes the sequencer drop a downlink frame. -/
theorem execDownlinkAccept_dropped {s : State} {q : Side} {d : Down} {bad : Bool} (down : (s.link q).down = some d)
    (h : bad = true ∨ d.spoiled = true ∨ d.tb + 1000 < s.tb) :
    execDownlinkAccept q bad s = .next (s.setLink q { s.link q with down := none }) := by
  have drop : (bad || d.spoiled || !s.lives q || decide (d.tb + 1000 < s.tb)) = true := by
    rcases h with h | h | h <;> simp [h]
  unfold execDownlinkAccept
  rw [down]
  dsimp only
  rw [if_pos drop]

theorem execConfigurationPacket_loads {s : State} {q : Side} {m : Image} (hm : s.cfg.staged = some m)
    (live : s.lives q = true) (on : s.mx q = true) :
    ∃ u, execConfigurationPacket q s = .next u ∧ FieldOnly s u ∧ u.fld.other = m.fieldCfg ∧
      (u.seq q).loaded = true ∧ u.fld.cfg = s.fld.cfg ∧ u.fld.outs = s.fld.outs := by
  have act : ¬(!s.lives q || !s.mx q) = true := by simp [live, on]
  have run : execConfigurationPacket q s = .next (({ s with fld := { s.fld with other := m.fieldCfg } } : State).setSeq
      q { ({ s with fld := { s.fld with other := m.fieldCfg } } : State).seq q with loaded := true }) := by
    unfold execConfigurationPacket
    rw [hm]
    dsimp only
    rw [if_neg act]
  refine ⟨_, run, ?_⟩
  cases q <;> exact ⟨rfl, rfl, rfl, rfl, rfl⟩

end Sys2Proof.Machine

/-! RESULT_BLOCK (R14, R177, R181, R235, R236): what a block that arrives writes. -/

namespace Sys2Proof.Machine

theorem takeFlight_conv {c : Nat} {l rest : List Flight} {f : Flight} (h : takeFlight c l = some (f, rest)) :
    f.conv = c := by
  induction l generalizing rest with
  | nil => cases h
  | cons g l ih =>
    unfold takeFlight at h
    split at h
    · next hg =>
      cases h
      exact hg
    · obtain ⟨⟨g', rest'⟩, hp, e⟩ := Option.map_eq_some_iff.1 h
      cases e
      exact ih hp

/-! ### Firing leaves the converters alone -/

theorem record_cnv (s : State) (c v : Nat) (p : List Byte) (b : Bool) (k : Option Nat) :
    (s.record c v p b k).cnv = s.cnv := by
  have h := record_recorded s c v p b k
  unfold Recorded at h
  rw [h]

theorem foldl_cnv {α : Type} {g : State → α → State} (h : ∀ a x, (g a x).cnv = a.cnv) (l : List α) (s : State) :
    (l.foldl g s).cnv = s.cnv := by
  induction l generalizing s with
  | nil => rfl
  | cons x l ih => rw [List.foldl_cons, ih, h]

theorem captureFrom_cnv (s : State) (k : Nat) (a e : Nat → Bool) (w : Timer → Bool) :
    (s.captureFrom k a e w).cnv = s.cnv := by
  have one (t : State) (n : Nat) : (t.capture n).cnv = t.cnv := by
    unfold State.capture
    dsimp only
    (repeat' split) <;> rfl
  refine foldl_cnv (fun t x => ?_) _ s
  split
  · exact one t _
  · rfl

theorem fire_cnv (s : State) (t : Nat) : (s.fire t).cnv = s.cnv := by
  have latch (u : State) (m : Long) : (u.latchTrips t m).cnv = u.cnv := by
    unfold State.latchTrips
    split
    · rfl
    · exact record_cnv ..
  exact (latch _ _).trans (captureFrom_cnv ..)

/-! ### One entry -/

/-- R177, R182: the channel as an accepted entry leaves it. -/
def State.chanAfter (s : State) (e : Entry) (fire : Bool) : Chan :=
  { s.chan e.ch with last := e.value, lastAt := some e.tick, owL := e.ow, stale := false
                     wcf := (s.chan e.ch).wcf || fire
                     outL := fire || ((s.chan e.ch).outL && !(s.chImg e.ch).backIn e.value) }

theorem writeBufs_eq (s : State) (c : Nat) (e : Entry) :
    [Side.a, Side.b].foldl (fun acc h =>
      if acc.memIn h then acc.setRbuf h c ((acc.rbuf h c).write e) else acc) s = { s with cnv := { s.cnv with
        bufA := if s.memIn .a then Tab.set .start s.cnv.bufA c ((s.rbuf .a c).write e) else s.cnv.bufA
        bufB := if s.memIn .b then Tab.set .start s.cnv.bufB c ((s.rbuf .b c).write e) else s.cnv.bufB } } := by
  have second : (s.setRbuf .a c ((s.rbuf .a c).write e)).memIn .b = s.memIn .b := rfl
  simp only [List.foldl]
  cases ha : s.memIn .a <;> cases hb : s.memIn .b
  all_goals simp only [Bool.false_eq_true, if_true, if_false, second, hb]
  all_goals rfl

/-- What an entry writes of the converters: both copies of the result memory in service, its channel, and a running
averaging. -/
theorem takeEntry_cnv (s : State) (c : Nat) (e : Entry) (fire : Bool) : ∃ k, (s.takeEntry c e fire).cnv =
    { s.cnv with
      bufA := if s.memIn .a then Tab.set .start s.cnv.bufA c ((s.rbuf .a c).write e) else s.cnv.bufA
      bufB := if s.memIn .b then Tab.set .start s.cnv.bufB c ((s.rbuf .b c).write e) else s.cnv.bufB
      chans := Tab.set .start s.cnv.chans e.ch (s.chanAfter e fire), cal := k } := by
  unfold State.takeEntry
  rw [writeBufs_eq]
  cases fire
  · exact ⟨_, rfl⟩
  · dsimp only
    rw [if_neg (by simp), foldl_cnv]
    · exact ⟨_, rfl⟩
    · intro a n
      split
      · split
        · exact fire_cnv a n
        · rfl
      · rfl

/-- An entry that fires nothing leaves the field side alone. -/
theorem takeEntry_fld (s : State) (c : Nat) (e : Entry) : (s.takeEntry c e false).fld = s.fld := by
  unfold State.takeEntry
  rw [writeBufs_eq]
  rfl

/-! ### One block -/

/-- A block of one entry, accepted. -/
theorem takeBlock_one {b : Block} {e : Entry} (hb : b.entries = [e]) (s : State) (c : Nat) :
    ∃ t : State, t.fld = s.fld ∧ (∃ w x, t.cnv = { s.cnv with wroteAt := w, chansWas := x }) ∧
      t.pwr = s.pwr ∧ s.takeBlock c b = t.takeEntry c e b.fire := by
  refine ⟨if s.cnv.wroteAt = s.tb then s
    else { s with cnv := { s.cnv with wroteAt := s.tb, chansWas := s.cnv.chans } }, ?_, ?_, ?_, ?_⟩
  · split <;> rfl
  · split
    · exact ⟨_, _, rfl⟩
    · exact ⟨_, _, rfl⟩
  · split <;> rfl
  · unfold State.takeBlock
    rw [hb]
    simp

section
variable {s : State} {c : Nat} {b : Block} {e : Entry}

theorem takeBlock_cnv (hb : b.entries = [e]) : ∃ w x k, (s.takeBlock c b).cnv =
    { s.cnv with
      wroteAt := w, chansWas := x
      bufA := if s.memIn .a then Tab.set .start s.cnv.bufA c ((s.rbuf .a c).write e) else s.cnv.bufA
      bufB := if s.memIn .b then Tab.set .start s.cnv.bufB c ((s.rbuf .b c).write e) else s.cnv.bufB
      chans := Tab.set .start s.cnv.chans e.ch (s.chanAfter e b.fire), cal := k } := by
  obtain ⟨t, fld, ⟨w, x, cnv⟩, pwr, eq⟩ := takeBlock_one hb s c
  obtain ⟨k, entry⟩ := takeEntry_cnv t c e b.fire
  have mem (q : Side) : t.memIn q = s.memIn q := by
    simp only [State.memIn, State.halfIn, State.powered, State.dom, pwr, cnv]
  have buf (q : Side) : t.rbuf q c = s.rbuf q c := by cases q <;> simp only [State.rbuf, cnv]
  have chan : t.chanAfter e b.fire = s.chanAfter e b.fire := by
    simp only [State.chanAfter, State.chan, State.chImg, State.convImg, cnv, fld]
  refine ⟨w, x, k, ?_⟩
  rw [eq, entry, mem, mem, buf, buf, chan, cnv]

theorem takeBlock_fld (hb : b.entries = [e]) (fire : b.fire = false) : (s.takeBlock c b).fld = s.fld := by
  obtain ⟨t, fld, -, -, eq⟩ := takeBlock_one hb s c
  rw [eq, fire, takeEntry_fld, fld]

end

/-! ### The command -/

section
variable {s : State} {c : Nat} {flip : List Byte} {f : Flight} {rest : List Flight}

theorem execResultBlock_waits {c : Fin 4} (h : nextBlock s.cnv.flyA ≠ some c.val) :
    execResultBlock .a c flip s = .next s := congrArg Host.Outcome.next (if_pos h)

/-- The block that the uplink sends next arrives. -/
theorem execResultBlock_arrives {c : Fin 4} (next : nextBlock s.cnv.flyA = some c.val)
    (flight : takeFlight c.val s.cnv.flyA = some (f, rest)) (live : s.lives .a = true) (on : s.mx .a = true)
    (sound : (s.link .a).st ≠ .faulty) (kept : (s.link .a).retired = false) :
    execResultBlock .a c flip s = .next (match f.got s.tb flip with
      | none => ((s.landed .a c.val rest).countLink .a true).dropHeld .a f
      | some b =>
        match s.cnv.heldB.find? fun h => h.of f with
        | some h => if h.got = b then (s.landed .a c.val rest).dropHeld .a f
          else (s.landed .a c.val rest).linkDiffer.dropHeld .a f
        | none => ((s.landed .a c.val rest).takeBlock f.conv b).holdBlock .a f b) := by
  have judged : ¬(!(s.landed .a c.val rest).mx .a || ((s.landed .a c.val rest).link .a).retired ||
      decide (((s.landed .a c.val rest).link .a).st = .faulty)) = true := by
    have mx : (s.landed .a c.val rest).mx .a = s.mx .a := rfl
    have link : (s.landed .a c.val rest).link .a = s.link .a := rfl
    simp [mx, link, on, kept, sound]
  have flights : s.flights .a = s.cnv.flyA := rfl
  unfold execResultBlock
  rw [flights, if_neg (not_not.2 next), flight]
  dsimp only
  rw [if_pos live, State.arrive, if_neg judged]
  rfl

theorem dropHeld_results (t : State) (l : Side) (f : Flight) : (t.dropHeld l f).cnv.flyA = t.cnv.flyA ∧
    (t.dropHeld l f).cnv.chans = t.cnv.chans ∧ (t.dropHeld l f).cnv.bufA = t.cnv.bufA ∧
    (t.dropHeld l f).cnv.bufB = t.cnv.bufB ∧ (t.dropHeld l f).fld = t.fld := by
  cases l <;> exact ⟨rfl, rfl, rfl, rfl, rfl⟩

/-- A block whose check fails changes no result. -/
theorem execResultBlock_bad {c : Fin 4} (next : nextBlock s.cnv.flyA = some c.val)
    (flight : takeFlight c.val s.cnv.flyA = some (f, rest)) (live : s.lives .a = true) (on : s.mx .a = true)
    (sound : (s.link .a).st ≠ .faulty) (kept : (s.link .a).retired = false) (bad : f.got s.tb flip = none) :
    ∃ u, execResultBlock .a c flip s = .next u ∧ u.cnv.flyA = rest ∧ u.cnv.chans = s.cnv.chans ∧
      u.cnv.bufA = s.cnv.bufA ∧ u.cnv.bufB = s.cnv.bufB ∧ u.fld = s.fld := by
  have run := execResultBlock_arrives (flip := flip) next flight live on sound kept
  rw [bad] at run
  dsimp only at run
  have judged := countLink_judged (l := .a) (s.landed .a c.val rest) true
  obtain ⟨flyA, chans, bufA, bufB, fld⟩ := dropHeld_results ((s.landed .a c.val rest).countLink .a true) .a f
  rw [judged.cnv] at flyA chans bufA bufB
  rw [judged.fld] at fld
  exact ⟨_, run, flyA, chans, bufA, bufB, fld⟩

/-- The first good copy of a block of one entry. -/
theorem execResultBlock_first {c : Fin 4} (next : nextBlock s.cnv.flyA = some c.val)
    (flight : takeFlight c.val s.cnv.flyA = some (f, rest)) (live : s.lives .a = true) (on : s.mx .a = true)
    (sound : (s.link .a).st ≠ .faulty) (kept : (s.link .a).retired = false) {b : Block} {e : Entry}
    (good : f.got s.tb flip = some b) (first : s.cnv.heldB.find? (fun h => h.of f) = none) (hb : b.entries = [e])
    (ok : Tab.ok .start s.cnv.chans = true) :
    ∃ u, execResultBlock .a c flip s = .next u ∧ u.cnv.flyA = rest ∧ (b.fire = false → u.fld = s.fld) ∧
      (∀ n, u.chan n = if n = e.ch then s.chanAfter e b.fire else s.chan n) ∧
      (s.memIn .a = true → u.cnv.bufA = Tab.set .start s.cnv.bufA c ((s.rbuf .a c).write e)) := by
  have run := execResultBlock_arrives (flip := flip) next flight live on sound kept
  rw [good] at run
  dsimp only at run
  rw [first] at run
  dsimp only at run
  rw [takeFlight_conv flight] at run
  obtain ⟨w, x, k, cnv⟩ := takeBlock_cnv (s := s.landed .a c.val rest) (c := c.val) hb
  have fld := takeBlock_fld (s := s.landed .a c.val rest) (c := c.val) hb
  generalize (s.landed .a c.val rest).takeBlock c.val b = t at run cnv fld
  have held : ∃ h, t.holdBlock .a f b = { t with cnv := { t.cnv with heldA := h } } := by
    unfold State.holdBlock
    dsimp only
    split
    · exact ⟨_, rfl⟩
    · exact ⟨_, rfl⟩
  obtain ⟨h, held⟩ := held
  rw [held] at run
  refine ⟨_, run, ?_, fld, fun n => ?_, fun mem => ?_⟩
  · exact (congrArg Cnv.flyA cnv :)
  · have chans : t.cnv.chans = Tab.set .start s.cnv.chans e.ch (s.chanAfter e b.fire) := (congrArg Cnv.chans cnv :)
    change Tab.get .start t.cnv.chans n = _
    rw [chans, Tab.get_set ok]
    rfl
  · have bufA : t.cnv.bufA = if s.memIn .a then Tab.set .start s.cnv.bufA c ((s.rbuf .a c).write e) else s.cnv.bufA :=
      (congrArg Cnv.bufA cnv :)
    exact bufA.trans (if_pos mem)

end

end Sys2Proof.Machine

/-! The frames of both links are launched and judged (O55). -/

namespace Sys2Proof.Machine

/-! ### The clauses, each by the rule of its command -/

theorem launchTick_off {s : State} (h : s.tb % 2000 ≠ 0) :
    exec .uplinkLaunch s = .next s ∧ exec .downlinkFrame s = .next s := by
  have off : s.launchTick = false := by simp [State.launchTick, h]
  change execUplinkLaunch s = .next s ∧ execDownlinkFrame s = .next s
  simp [execUplinkLaunch, execDownlinkFrame, off]

theorem uplinkFrame_passes {s : State} {l : Side} {f : Up} (up : (s.link l).up = some f)
    (inTime : s.tb ≤ f.tick + 1000) (on : s.mx l = true) (kept : (s.link l).retired = false)
    (sound : (s.link l).st ≠ .faulty) (clean : UnitClean s (13 + 2 * sideNat l))
    (charged : (s.unit (12 + 2 * sideNat l)).due = false) :
    ∃ u, execUplinkFrame l false s = .next u ∧ (u.link l).up = none ∧ (u.link l).due = none ∧
      (u.link l).missRun = 0 ∧ (u.link l).last = some f ∧ (u.link l).st = .valid := by
  obtain ⟨t, -, link, run⟩ := execUplinkFrame_good up inTime on kept sound clean charged
  obtain ⟨c, taken⟩ := takeUp_link t l f
  rw [link] at taken
  refine ⟨_, run, ?_⟩
  rw [taken]
  exact ⟨rfl, rfl, rfl, rfl, rfl⟩

theorem resultBlock_writes {s : State} {c : Fin 4} {flip : List Byte} {f : Flight} {rest : List Flight}
    (next : nextBlock s.cnv.flyA = some c.val) (flight : takeFlight c.val s.cnv.flyA = some (f, rest))
    (live : s.lives .a = true) (on : s.mx .a = true) (sound : (s.link .a).st ≠ .faulty)
    (kept : (s.link .a).retired = false) {b : Block} {e : Entry} (good : f.got s.tb flip = some b)
    (first : s.cnv.heldB.find? (fun h => h.of f) = none) (hb : b.entries = [e]) (fire : b.fire = false)
    (mem : s.memIn .a = true) (ok : Tab.ok .start s.cnv.chans = true) (okA : Tab.ok .start s.cnv.bufA = true) :
    ∃ u, execResultBlock .a c flip s = .next u ∧ u.cnv.flyA = rest ∧ u.fld = s.fld ∧
      (u.chan e.ch).last = e.value ∧ (u.chan e.ch).lastAt = some e.tick ∧ (u.chan e.ch).stale = false ∧
      u.rbuf .a c.val = (s.rbuf .a c.val).write e ∧ ∀ n, n ≠ e.ch → u.chan n = s.chan n := by
  obtain ⟨u, run, fly, fld, chan, buf⟩ :=
    execResultBlock_first next flight live on sound kept good first hb ok
  have here : u.chan e.ch = s.chanAfter e b.fire := (chan e.ch).trans (if_pos rfl)
  refine ⟨u, run, fly, fld fire, ?_, ?_, ?_, ?_, fun n hn => (chan n).trans (if_neg hn)⟩
  · rw [here]; rfl
  · rw [here]; rfl
  · rw [here]; rfl
  · rw [State.rbuf, buf mem, Tab.get_set okA, if_pos rfl]

theorem resultBlock_fires {s : State} {c : Fin 4} {flip : List Byte} {f : Flight} {rest : List Flight}
    (next : nextBlock s.cnv.flyA = some c.val) (flight : takeFlight c.val s.cnv.flyA = some (f, rest))
    (live : s.lives .a = true) (on : s.mx .a = true) (sound : (s.link .a).st ≠ .faulty)
    (kept : (s.link .a).retired = false) {b : Block} {e : Entry} (good : f.got s.tb flip = some b)
    (first : s.cnv.heldB.find? (fun h => h.of f) = none) (hb : b.entries = [e]) (fire : b.fire = true)
    (ok : Tab.ok .start s.cnv.chans = true) :
    ∃ u, execResultBlock .a c flip s = .next u ∧ u.cnv.flyA = rest ∧ (u.chan e.ch).last = e.value ∧
      (u.chan e.ch).wcf = true ∧ (u.chan e.ch).outL = true ∧ ∀ n, n ≠ e.ch → u.chan n = s.chan n := by
  obtain ⟨u, run, fly, -, chan, -⟩ := execResultBlock_first next flight live on sound kept good first hb ok
  have here : u.chan e.ch = s.chanAfter e true := fire ▸ (chan e.ch).trans (if_pos rfl)
  refine ⟨u, run, fly, ?_, ?_, ?_, fun n hn => (chan n).trans (if_neg hn)⟩
  · rw [here]; rfl
  · rw [here]; exact Bool.or_true _
  · rw [here]; rfl

/-- Settles O55: clause by clause, each command by its own rule above. -/
theorem linkFramesAreLaunchedAndJudged : Obligations.LinkFramesAreLaunchedAndJudged := by
  unfold Obligations.LinkFramesAreLaunchedAndJudged
  refine ⟨fun s => launchTick_off, fun s ticking boundary => ?launch, fun s l f bad up => ?uplink,
    fun s m q k hm hk => image64_iff hm q hk, fun s l t due => ?missing, fun s q d down => ?downlink,
    fun s q m hm live on => execConfigurationPacket_loads hm live on, fun s c flip => ?block⟩
  case launch =>
    have tick : s.launchTick = true := (launchTick_iff s).2 ⟨ticking, boundary⟩
    refine ⟨fun new idle sound ok => ?_, fun new on step mxA mxB kept staged => ?_⟩
    · obtain ⟨u, run, at_, eq, flies⟩ := execUplinkLaunch_launches tick new idle sound ok
      refine ⟨u, run, at_, eq, fun q => ?_⟩
      obtain ⟨due, dead, live⟩ := flies q
      refine ⟨due, dead, fun h => ?_⟩
      obtain ⟨f, up, ⟨tickF, useq, bank, dlast, silent, outs, trig⟩, ins⟩ := live h
      refine ⟨f, up, tickF, useq, bank, dlast, silent, outs, ?_, ins⟩
      cases q <;> exact trig
    · exact execDownlinkFrame_launches tick new on step (fun q => by cases q <;> assumption) kept staged
  case uplink =>
    refine ⟨execUplinkFrame_late bad up, fun inTime on kept sound clean charged => ⟨?_, ?_⟩, ?_⟩
    · exact uplinkFrame_passes up inTime on kept sound clean charged
    · exact execUplinkFrame_bad up inTime on
    · intro inTime on kept sound clean charged alone masks t m w ht reported hm hw kind
      exact execUplinkFrame_trips up inTime on kept sound clean charged alone masks ht reported hm hw kind
  case missing => exact ⟨execFrameMissing_early due, execFrameMissing_silent due⟩
  case downlink =>
    exact ⟨execDownlinkAccept_dropped down (.inl rfl), fun late => execDownlinkAccept_dropped down (.inr (.inr late)),
      fun spoiled => execDownlinkAccept_dropped down (.inr (.inl spoiled)), execDownlinkAccept_good down⟩
  case block =>
    refine ⟨execResultBlock_waits, fun f rest next flight live on sound kept => ⟨?_, ?_, ?_⟩⟩
    · exact execResultBlock_bad next flight live on sound kept
    · intro b e good first hb fire mem ok okA
      exact resultBlock_writes next flight live on sound kept good first hb fire mem ok okA
    · intro b e good first hb fire ok
      exact resultBlock_fires next flight live on sound kept good first hb fire ok

end Sys2Proof.Machine

/-! What the operations of the field side leave alone: those on inputs all but the inputs, those on outputs all but
inputs and outputs, those on group supplies all but these and the supplies. -/

namespace Sys2Proof.Machine

/-- The state apart from its inputs. -/
def State.sansIns (s : State) : State := { s with fld := { s.fld with ins := [] } }

/-- The state apart from its inputs and outputs. -/
def State.sansOuts (s : State) : State := { s with fld := { s.fld with ins := [], outs := [] } }

/-- The state apart from its inputs, its outputs and its group supplies. -/
def State.sansGroups (s : State) : State :=
  { s with fld := { s.fld with ins := [], outs := [], groups := [], sOpen := [] } }

section
variable {s t : State}

theorem outs_of_sansIns (h : t.sansIns = s.sansIns) : t.fld.outs = s.fld.outs :=
  congrArg (fun u => u.fld.outs) h

theorem fout_of_sansIns (h : t.sansIns = s.sansIns) (k : Nat) : t.fout k = s.fout k :=
  congrArg (fun u => u.fout k) h

theorem sansOuts_of_sansIns (h : t.sansIns = s.sansIns) : t.sansOuts = s.sansOuts :=
  (congrArg State.sansOuts h :)

theorem groups_of_sansOuts (h : t.sansOuts = s.sansOuts) : t.fld.groups = s.fld.groups :=
  congrArg (fun u => u.fld.groups) h

theorem sansGroups_of_sansOuts (h : t.sansOuts = s.sansOuts) : t.sansGroups = s.sansGroups :=
  (congrArg State.sansGroups h :)

theorem seq_of_sansGroups (h : t.sansGroups = s.sansGroups) (q : Side) : t.seq q = s.seq q :=
  congrArg (fun u => u.seq q) h

theorem fieldOnly_of_sansGroups (h : t.sansGroups = s.sansGroups) : FieldOnly s t :=
  (congrArg (fun u : State => { u with fld := t.fld }) h :)

theorem fieldOnly_of_sansOuts (h : t.sansOuts = s.sansOuts) : FieldOnly s t :=
  fieldOnly_of_sansGroups (sansGroups_of_sansOuts h)

theorem fieldOnly_trans {u : State} (h : FieldOnly s t) (k : FieldOnly t u) : FieldOnly s u :=
  k.trans (congrArg (fun v : State => { v with fld := u.fld }) h)

end

/-- A fold whose steps leave a view of the state alone leaves it alone. -/
theorem foldl_view {α β : Type} (view : State → β) {f : State → α → State} (h : ∀ a x, view (f a x) = view a)
    (l : List α) (s : State) : view (l.foldl f s) = view s := by
  induction l generalizing s with
  | nil => rfl
  | cons x l ih => rw [List.foldl_cons, ih, h]

@[simp] theorem sansIns_ite (c : Prop) [Decidable c] (a b : State) :
    (if c then a else b).sansIns = if c then a.sansIns else b.sansIns := apply_ite ..

@[simp] theorem sansOuts_ite (c : Prop) [Decidable c] (a b : State) :
    (if c then a else b).sansOuts = if c then a.sansOuts else b.sansOuts := apply_ite ..

@[simp] theorem foldl_sansIns {α : Type} {f : State → α → State} (h : ∀ a x, (f a x).sansIns = a.sansIns)
    (l : List α) (s : State) : (l.foldl f s).sansIns = s.sansIns := foldl_view State.sansIns h l s

@[simp] theorem foldl_sansOuts {α : Type} {f : State → α → State} (h : ∀ a x, (f a x).sansOuts = a.sansOuts)
    (l : List α) (s : State) : (l.foldl f s).sansOuts = s.sansOuts := foldl_view State.sansOuts h l s

section
variable (s : State)

/-! ### Inputs -/

@[simp] theorem State.setInp_sansIns (q : Side) (n : Nat) (v : SeqIn) : (s.setInp q n v).sansIns = s.sansIns := rfl

@[simp] theorem State.putDeb_sansIns (q : Side) (n : Nat) (v : Bool) : (s.putDeb q n v).sansIns = s.sansIns := by
  simp [State.putDeb]

@[simp] theorem State.judge_sansIns (q : Side) (n : Nat) (v : Bool) : (s.judge q n v).sansIns = s.sansIns := by
  simp [State.judge]

@[simp] theorem State.setCause_sansIns (q : Side) (n c : Nat) : (s.setCause q n c).sansIns = s.sansIns := by
  simp [State.setCause]

@[simp] theorem State.patternBad_sansIns (q : Side) (n code slot : Nat) :
    (s.patternBad q n code slot).sansIns = s.sansIns := by simp [State.patternBad]

@[simp] theorem State.unsource_sansIns (q : Side) (n : Nat) : (s.unsource q n).sansIns = s.sansIns := by
  simp [State.unsource]

@[simp] theorem State.refreshInp_sansIns (q : Side) (n : Nat) : (s.refreshInp q n).sansIns = s.sansIns := by
  unfold State.refreshInp
  (repeat' split) <;> simp

@[simp] theorem State.refreshInputs_sansIns (p : Nat → Bool) : (s.refreshInputs p).sansIns = s.sansIns := by
  simp [State.refreshInputs]

@[simp] theorem State.holdInputs_sansIns (k : Nat) (on : Bool) : (s.holdInputs k on).sansIns = s.sansIns := by
  simp [State.holdInputs]

@[simp] theorem State.pointInput_sansIns (q : Side) (n k : Nat) (pt : PulsePoint) (x : Nat) (pulsed : Bool) :
    (s.pointInput q n k pt x pulsed).sansIns = s.sansIns := by
  unfold State.pointInput
  cases pt <;> simp

@[simp] theorem State.pointInputs_sansIns (k : Nat) (pt : PulsePoint) (x : Nat) (pulsed : Bool) :
    (s.pointInputs k pt x pulsed).sansIns = s.sansIns := by simp [State.pointInputs]

@[simp] theorem State.frameInput_sansIns (q : Side) (n : Nat) : (s.frameInput q n).sansIns = s.sansIns := by
  unfold State.frameInput
  split <;> simp

end

end Sys2Proof.Machine

/-! What an operation on one output does to that output, and that it touches no other (R40, R47, R48, R218, R229). -/

namespace Sys2Proof.Machine

/-! ### One output against another -/

/-- The points met so far stand, and no pulse begins. -/
structure FOut.Keeps (o v : FOut) : Prop where
  lastPt : v.lastPt = o.lastPt
  calm : o.pulse = .none → v.pulse = .none

/-- A change of phase: the cause of a fault stands too. -/
structure FOut.Follows (o v : FOut) : Prop extends FOut.Keeps o v where
  cause : v.cause = o.cause

/-- A judgement: a faulted output stays faulted, and phase and pulse change only with the entry into FAULTED. -/
structure FOut.Judged (o v : FOut) : Prop extends FOut.Keeps o v where
  stays : o.cause ≠ 0 → v.cause ≠ 0
  shown : o.cause ≠ 0 ∨ v.cause = 0 → v.phase = o.phase ∧ v.pulse = o.pulse

theorem FOut.Keeps.trans {o v w : FOut} (h : o.Keeps v) (k : v.Keeps w) : o.Keeps w :=
  ⟨k.lastPt.trans h.lastPt, k.calm ∘ h.calm⟩

theorem FOut.Follows.refl (o : FOut) : o.Follows o := ⟨⟨rfl, id⟩, rfl⟩

theorem FOut.Follows.trans {o v w : FOut} (h : o.Follows v) (k : v.Follows w) : o.Follows w :=
  ⟨h.toKeeps.trans k.toKeeps, k.cause.trans h.cause⟩

theorem FOut.Judged.refl (o : FOut) : o.Judged o := ⟨⟨rfl, id⟩, id, fun _ => ⟨rfl, rfl⟩⟩

theorem FOut.Judged.trans {o v w : FOut} (h : o.Judged v) (k : v.Judged w) : o.Judged w where
  toKeeps := h.toKeeps.trans k.toKeeps
  stays := k.stays ∘ h.stays
  shown faulted := by
    have before : o.cause ≠ 0 ∨ v.cause = 0 := faulted.imp_right fun w0 => not_not.1 fun v0 => k.stays v0 w0
    have after : v.cause ≠ 0 ∨ w.cause = 0 := faulted.imp_left h.stays
    obtain ⟨phase, pulse⟩ := h.shown before
    obtain ⟨phase', pulse'⟩ := k.shown after
    exact ⟨phase'.trans phase, pulse'.trans pulse⟩

/-- Phase and pulse stand, and the output does not leave FAULTED. -/
theorem FOut.Judged.of_shown {o v : FOut} (keeps : o.Keeps v) (phase : v.phase = o.phase) (pulse : v.pulse = o.pulse)
    (stays : o.cause ≠ 0 → v.cause ≠ 0) : o.Judged v := ⟨keeps, stays, fun _ => ⟨phase, pulse⟩⟩

/-- The output enters FAULTED. -/
theorem FOut.Judged.of_entry {o v : FOut} (keeps : o.Keeps v) (was : o.cause = 0) (now : v.cause ≠ 0) : o.Judged v :=
  ⟨keeps, fun h => absurd was h, fun h => h.elim (absurd was) (absurd · now)⟩

/-- A foreign slot is noted (R219). -/
theorem FOut.slotNoted_judged (o : FOut) (c : Prop) [Decidable c] (slot : Nat) :
    o.Judged (if c then { o with fslot := slot } else o) := by
  split
  · exact .of_shown ⟨rfl, id⟩ rfl rfl id
  · exact .refl o

/-- Where the cause is as before, so are phase and pulse. -/
theorem FOut.Judged.same {o v : FOut} (h : o.Judged v) (cause : v.cause = o.cause) :
    v.phase = o.phase ∧ v.pulse = o.pulse :=
  h.shown ((ne_or_eq o.cause 0).imp_right cause.trans)

/-! ### One output of a state -/

/-- Inputs apart, only output `k` is touched, and as `R` says. -/
structure OutputBy (k : Nat) (R : FOut → FOut → Prop) (s t : State) : Prop where
  rest : t.sansOuts = s.sansOuts
  outs : Tab.ok .start s.fld.outs = true → Tab.ok .start t.fld.outs = true ∧ R (s.fout k) (t.fout k) ∧
    ∀ j, j ≠ k → t.fout j = s.fout j

section
variable {s t u : State} {k : Nat} {P Q R : FOut → FOut → Prop}

theorem fout_setFout (ok : Tab.ok .start s.fld.outs = true) (k j : Nat) (v : FOut) :
    (s.setFout k v).fout j = if j = k then v else s.fout j := Tab.get_set ok k j v

theorem setFout_by {v : FOut} (h : R (s.fout k) v) : OutputBy k R s (s.setFout k v) where
  rest := rfl
  outs ok := ⟨Tab.ok_set k v ok, by rwa [fout_setFout ok, if_pos rfl], fun j hj => by
    rw [fout_setFout ok, if_neg hj]⟩

theorem OutputBy.of_sansIns (h : t.sansIns = s.sansIns) (r : R (s.fout k) (s.fout k)) : OutputBy k R s t where
  rest := sansOuts_of_sansIns h
  outs ok := ⟨outs_of_sansIns h ▸ ok, (fout_of_sansIns h k).symm ▸ r, fun j _ => fout_of_sansIns h j⟩

theorem OutputBy.trans (h : OutputBy k P s t) (g : OutputBy k Q t u)
    (chain : ∀ {a b c}, P a b → Q b c → R a c) : OutputBy k R s u where
  rest := g.rest.trans h.rest
  outs ok := by
    obtain ⟨okT, rT, othersT⟩ := h.outs ok
    obtain ⟨okU, rU, othersU⟩ := g.outs okT
    exact ⟨okU, chain rT rU, fun j hj => (othersU j hj).trans (othersT j hj)⟩

theorem OutputBy.mono (h : OutputBy k P s t) (weaken : ∀ {a b}, P a b → Q a b) : OutputBy k Q s t :=
  ⟨h.rest, fun ok => (h.outs ok).imp_right (And.imp_left weaken)⟩

/-- The inputs may change after it. -/
theorem OutputBy.thenInputs (h : OutputBy k R s t) (inputs : u.sansIns = t.sansIns) : OutputBy k R s u where
  rest := (sansOuts_of_sansIns inputs).trans h.rest
  outs ok := by
    obtain ⟨okT, r, others⟩ := h.outs ok
    exact ⟨outs_of_sansIns inputs ▸ okT, (fout_of_sansIns inputs k).symm ▸ r, fun j hj =>
      (fout_of_sansIns inputs j).trans (others j hj)⟩

end

/-! ### Phases and faults -/

section
variable (s : State) (k : Nat)

theorem setPhase_by (p : Phase) : OutputBy k FOut.Follows s (s.setPhase k p) := by
  unfold State.setPhase
  dsimp only
  split
  · exact (setFout_by ⟨⟨rfl, fun _ => rfl⟩, rfl⟩).thenInputs (State.holdInputs_sansIns ..)
  · exact (setFout_by ⟨⟨rfl, fun _ => rfl⟩, rfl⟩).thenInputs (State.holdInputs_sansIns ..)
  · exact setFout_by ⟨⟨rfl, fun _ => rfl⟩, rfl⟩

theorem refreshOut_by : OutputBy k FOut.Follows s (s.refreshOut k) := by
  have idle : OutputBy k FOut.Follows s s := .of_sansIns rfl (.refl _)
  have mark (v : FOut) (h : (s.fout k).Follows v) : OutputBy k FOut.Follows s (s.setFout k v) := setFout_by h
  unfold State.refreshOut
  dsimp only
  split
  · split
    · exact idle
    · split
      · exact mark _ ⟨⟨rfl, id⟩, rfl⟩
      · exact setPhase_by s k _
  · split
    · split
      · exact mark _ ⟨⟨rfl, id⟩, rfl⟩
      · exact setPhase_by s k _
    · have undeferred : OutputBy k FOut.Follows s
          (if (s.fout k).defer then s.setFout k { s.fout k with defer := false } else s) := by
        split
        · exact mark _ ⟨⟨rfl, id⟩, rfl⟩
        · exact idle
      split
      · exact undeferred
      · exact undeferred.trans (setPhase_by _ k _) FOut.Follows.trans

theorem faultOut_by (cause slot : Nat) : OutputBy k FOut.Judged s (s.faultOut k cause slot) := by
  unfold State.faultOut
  split
  · exact .of_sansIns rfl (.refl _)
  rename_i met
  have noted := (s.fout k).slotNoted_judged (cause = 3) slot
  dsimp only
  generalize (if cause = 3 then { s.fout k with fslot := slot } else s.fout k) = o at noted
  split
  · refine setFout_by (noted.trans ?_)
    split
    · exact .refl o
    · exact .of_shown ⟨rfl, id⟩ rfl rfl id
  · split
    · refine setFout_by (noted.trans ?_)
      split
      · exact .of_shown ⟨rfl, id⟩ rfl rfl fun _ => met
      · exact .refl o
    · rename_i sound
      refine OutputBy.thenInputs ?_ (State.refreshInputs_sansIns ..)
      refine OutputBy.trans (P := fun a v => a.Judged o ∧ o.Keeps v ∧ v.cause = cause)
        (setFout_by ?_) (refreshOut_by _ k) ?_
      · exact ⟨noted, ⟨rfl, id⟩, rfl⟩
      · rintro a v w ⟨judged, keeps, entered⟩ follows
        have faulted : w.cause ≠ 0 := by rwa [follows.cause, entered]
        exact judged.trans (.of_entry (keeps.trans follows.toKeeps) (not_not.1 sound) faulted)

theorem silenceOpen_by : OutputBy k FOut.Keeps s (s.silenceOpen k) := by
  unfold State.silenceOpen
  dsimp only
  split
  · exact (refreshOut_by s k).mono FOut.Follows.toKeeps
  · split
    · exact setFout_by ⟨rfl, id⟩
    · exact (faultOut_by s k 11 0).mono FOut.Judged.toKeeps

@[simp] theorem State.setFout_sansOuts (v : FOut) : (s.setFout k v).sansOuts = s.sansOuts := rfl

@[simp] theorem State.updFout_sansOuts (f : FOut → FOut) : (s.updFout k f).sansOuts = s.sansOuts := rfl

@[simp] theorem State.refreshOut_sansOuts : (s.refreshOut k).sansOuts = s.sansOuts := (refreshOut_by s k).rest

@[simp] theorem State.refreshInputs_sansOuts (p : Nat → Bool) : (s.refreshInputs p).sansOuts = s.sansOuts :=
  sansOuts_of_sansIns (State.refreshInputs_sansIns s p)

@[simp] theorem State.refreshField_sansOuts : s.refreshField.sansOuts = s.sansOuts := by
  simp [State.refreshField, State.refreshOuts]

end

end Sys2Proof.Machine

/-! PULSE (R41, R42): the point of a slot that is met, and the pulse that its output has. -/

namespace Sys2Proof.Machine

/-! ### All outputs -/

/-- Inputs apart, only outputs are touched, and each as a judgement does. -/
structure OutputsJudged (s t : State) : Prop where
  rest : t.sansOuts = s.sansOuts
  outs : Tab.ok .start s.fld.outs = true →
    Tab.ok .start t.fld.outs = true ∧ ∀ j, (s.fout j).Judged (t.fout j)

section
variable {s t u : State}

theorem OutputsJudged.refl (s : State) : OutputsJudged s s := ⟨rfl, fun ok => ⟨ok, fun _ => .refl _⟩⟩

theorem OutputsJudged.trans (h : OutputsJudged s t) (g : OutputsJudged t u) : OutputsJudged s u where
  rest := g.rest.trans h.rest
  outs ok := by
    obtain ⟨okT, judgedT⟩ := h.outs ok
    obtain ⟨okU, judgedU⟩ := g.outs okT
    exact ⟨okU, fun j => (judgedT j).trans (judgedU j)⟩

theorem OutputBy.judged {k : Nat} (h : OutputBy k FOut.Judged s t) : OutputsJudged s t where
  rest := h.rest
  outs ok := by
    obtain ⟨okT, own, others⟩ := h.outs ok
    refine ⟨okT, fun j => ?_⟩
    by_cases hj : j = k
    · exact hj ▸ own
    · exact others j hj ▸ .refl _

theorem OutputsJudged.foldl {α : Type} {f : State → α → State} (h : ∀ a x, OutputsJudged a (f a x)) (l : List α)
    (s : State) : OutputsJudged s (l.foldl f s) := by
  induction l generalizing s with
  | nil => exact .refl s
  | cons x l ih => exact (h s x).trans (ih _)

theorem steadyAll_judged (s : State) (x : Nat) : OutputsJudged s (s.steadyAll x) :=
  .foldl (fun a k => (faultOut_by a k _ 0).judged) _ s

end

/-! ### The points of a slot -/

/-- The pulse that the phase of output `k` gives in frame `f` (R42, R50, R51). -/
def State.pulseDue (s : State) (k f : Nat) : Pulse :=
  match (s.fout k).phase with
  | .load => if f % 2 = 0 then .dark else if s.single k || s.sonly k then .none else .lsDark
  | .source => if s.canClose then .light else .missed
  | .idle => .none

section
variable (s : State) (k : Nat)

theorem pulseBegin_by (f : Nat) :
    OutputBy k (fun o v => v = { o with pulse := s.pulseDue k f }) s (s.pulseBegin k f) := setFout_by rfl

theorem pulseEnd_by : OutputBy k (fun o v => v.lastPt = o.lastPt ∧ v.pulse = .none) s (s.pulseEnd k) := by
  have ended : OutputBy k (fun o v => v.lastPt = o.lastPt ∧ v.pulse = .none) s
      (s.setFout k { s.fout k with pulse := .none, defer := false, silPend := false }) := setFout_by ⟨rfl, rfl⟩
  have after {t : State} (h : OutputBy k FOut.Keeps (s.setFout k
      { s.fout k with pulse := .none, defer := false, silPend := false }) t) :
      OutputBy k (fun o v => v.lastPt = o.lastPt ∧ v.pulse = .none) s t :=
    ended.trans h fun ⟨point, off⟩ keeps => ⟨keeps.lastPt.trans point, keeps.calm off⟩
  unfold State.pulseEnd
  dsimp only
  split
  · exact after (silenceOpen_by _ k)
  · exact after ((refreshOut_by _ k).mono FOut.Follows.toKeeps)

/-- At the begin the output takes its pulse, and then every output is judged. -/
theorem pulsePoint_begin (x : Nat) :
    ∃ t, OutputBy k (fun o v => v = { o with pulse := s.pulseDue k (s.fld.pulseCfg.frameOf x) }) s t ∧
      OutputsJudged t (s.pulsePoint k .b x) :=
  ⟨_, pulseBegin_by s k _, steadyAll_judged _ x⟩

/-- 30 µs after the begin and after the end the inputs and the output are judged. -/
theorem pulsePoint_judged {pt : PulsePoint} (h : pt = .b30 ∨ pt = .e30) (x : Nat) :
    OutputsJudged s (s.pulsePoint k pt x) := by
  have inputs (b : Bool) : OutputBy k FOut.Judged s (s.pointInputs k pt x b) :=
    .of_sansIns (State.pointInputs_sansIns ..) (.refl _)
  rcases h with rfl | rfl <;> exact ((inputs _).trans (faultOut_by _ k _ 0) FOut.Judged.trans).judged

/-- At the end the pulse is over. -/
theorem pulsePoint_end (x : Nat) :
    OutputBy k (fun o v => v.lastPt = o.lastPt ∧ v.pulse = .none) s (s.pulsePoint k .e x) :=
  OutputBy.trans (P := Eq) (.of_sansIns (State.pointInputs_sansIns ..) rfl) (pulseEnd_by _ k) fun same ended =>
    same ▸ ended

theorem pulsePoint_sansOuts (pt : PulsePoint) (x : Nat) : (s.pulsePoint k pt x).sansOuts = s.sansOuts := by
  cases pt with
  | b =>
    obtain ⟨t, begun, judged⟩ := pulsePoint_begin s k x
    exact judged.rest.trans begun.rest
  | b30 => exact (pulsePoint_judged s k (.inl rfl) x).rest
  | e => exact (pulsePoint_end s k x).rest
  | e30 => exact (pulsePoint_judged s k (.inr rfl) x).rest

theorem pulsePoint_lastPt (ok : Tab.ok .start s.fld.outs = true) (pt : PulsePoint) (x : Nat) :
    ((s.pulsePoint k pt x).fout k).lastPt = (s.fout k).lastPt := by
  cases pt with
  | b =>
    obtain ⟨t, begun, judged⟩ := pulsePoint_begin s k x
    obtain ⟨okT, own, -⟩ := begun.outs ok
    exact ((judged.outs okT).2 k).lastPt.trans (by rw [own])
  | b30 => exact (((pulsePoint_judged s k (.inl rfl) x).outs ok).2 k).lastPt
  | e => exact ((pulsePoint_end s k x).outs ok).2.1.1
  | e30 => exact (((pulsePoint_judged s k (.inr rfl) x).outs ok).2 k).lastPt

end

/-! ### The command -/

/-- Present instant of a point of output `k`'s slot. -/
def State.pointTime (s : State) (k : Nat) (pt : PulsePoint) : Nat :=
  s.fld.frame * s.fld.pulseCfg.period + s.fld.pulseCfg.pointOff k pt

/-- Time after which a point is met: 2 µs where the filtered signal is judged (R59). -/
def pointLag (pt : PulsePoint) : Nat := if pt = .b30 ∨ pt = .e30 then 400 else 0

/-- The output as it meets a point at `x`. -/
def State.atPoint (s : State) (k x : Nat) : State := s.updFout k fun o => { o with lastPt := x }

section
variable {s : State} {k : Fin 64} {pt : PulsePoint}

/-- PULSE by the point of the present frame, or of the one before while that one is not due. -/
theorem execPulse_eq (s : State) (k : Fin 64) (pt : PulsePoint) :
    let x0 := s.pointTime k pt
    let x := if s.tb < x0 + pointLag pt ∧ s.fld.pulseCfg.period ≤ x0 then x0 - s.fld.pulseCfg.period else x0
    let ends := s.pwr.osc.stopped && decide (pt = .e) && decide ((s.fout k.val).pulse ≠ .none)
    execPulse k pt s = .next (if !(s.lives .a || s.lives .b) ||
        (!ends && (decide (s.tb < x + pointLag pt) || decide (x ≤ (s.fout k.val).lastPt)))
      then s else (s.atPoint k x).pulsePoint k pt x) := by
  cases pt <;> rfl

/-- No point is due: the newest one has been met, or this frame's is not due and the one before was met. -/
theorem execPulse_waits (ticks : s.pwr.osc.stopped = false)
    (h : s.pointTime k pt + pointLag pt ≤ s.tb ∧ s.pointTime k pt ≤ (s.fout k.val).lastPt ∨
      s.tb < s.pointTime k pt + pointLag pt ∧ (s.pointTime k pt < s.fld.pulseCfg.period ∨
        s.pointTime k pt - s.fld.pulseCfg.period ≤ (s.fout k.val).lastPt)) :
    execPulse k pt s = .next s := by
  rw [execPulse_eq]
  congr 1
  refine if_pos ?_
  simp only [ticks, Bool.false_and, Bool.not_false, Bool.true_and, Bool.or_eq_true, decide_eq_true_eq]
  right
  split <;> omega

/-- A point that has passed and has not been met is met. -/
theorem execPulse_meets (live : s.lives .a = true) (new : (s.fout k.val).lastPt < s.pointTime k pt)
    (passed : s.pointTime k pt + pointLag pt ≤ s.tb) :
    execPulse k pt s = .next ((s.atPoint k (s.pointTime k pt)).pulsePoint k pt (s.pointTime k pt)) := by
  rw [execPulse_eq]
  have present : ¬(s.tb < s.pointTime k pt + pointLag pt ∧ s.fld.pulseCfg.period ≤ s.pointTime k pt) := by omega
  rw [if_neg present, if_neg]
  simp [live, new, passed]

theorem atPoint_by (s : State) (k x : Nat) : OutputBy k (fun o v => v = { o with lastPt := x }) s (s.atPoint k x) :=
  setFout_by rfl

theorem atPoint_pulseDue (ok : Tab.ok .start s.fld.outs = true) (k x f : Nat) :
    (s.atPoint k x).pulseDue k f = s.pulseDue k f := by
  unfold State.pulseDue
  rw [((atPoint_by s k x).outs ok).2.1]
  rfl

/-- The begin of a slot: the output has the pulse of its phase, unless it is found faulty just then. -/
theorem execPulse_begins (live : s.lives .a = true) (ok : Tab.ok .start s.fld.outs = true)
    (new : (s.fout k.val).lastPt < s.pointTime k .b) (passed : s.pointTime k .b ≤ s.tb) :
    ∃ u, execPulse k .b s = .next u ∧ FieldOnly s u ∧ ((u.fout k.val).cause = (s.fout k.val).cause →
      (u.fout k.val).phase = (s.fout k.val).phase ∧
      (u.fout k.val).pulse = s.pulseDue k (s.fld.pulseCfg.frameOf (s.pointTime k .b))) := by
  obtain ⟨ok1, met, -⟩ := (atPoint_by s k (s.pointTime k .b)).outs ok
  obtain ⟨t, begun, judged⟩ := pulsePoint_begin (s.atPoint k (s.pointTime k .b)) k (s.pointTime k .b)
  obtain ⟨okT, given, -⟩ := begun.outs ok1
  have own := (judged.outs okT).2 k
  refine ⟨_, execPulse_meets live new passed, ?_, fun cause => ?_⟩
  · exact fieldOnly_of_sansOuts ((judged.rest.trans begun.rest).trans (atPoint_by s k _).rest)
  · rw [given, met] at own
    obtain ⟨phase, pulse⟩ := own.same cause
    exact ⟨phase, pulse.trans (atPoint_pulseDue ok k _ _)⟩

theorem execPulse_passes (live : s.lives .a = true) (ok : Tab.ok .start s.fld.outs = true)
    (new : (s.fout k.val).lastPt < s.pointTime k pt) (passed : s.pointTime k pt + 400 ≤ s.tb) :
    ∃ u, execPulse k pt s = .next u ∧ FieldOnly s u ∧ (u.fout k.val).lastPt = s.pointTime k pt ∧
      (pt = .e → (u.fout k.val).pulse = .none) := by
  have due : s.pointTime k pt + pointLag pt ≤ s.tb := by
    unfold pointLag
    split <;> omega
  obtain ⟨ok1, met, -⟩ := (atPoint_by s k (s.pointTime k pt)).outs ok
  refine ⟨_, execPulse_meets live new due, ?_, ?_, ?_⟩
  · exact fieldOnly_of_sansOuts ((pulsePoint_sansOuts _ k pt _).trans (atPoint_by s k _).rest)
  · rw [pulsePoint_lastPt _ k ok1, met]
  · rintro rfl
    exact ((pulsePoint_end _ k _).outs ok1).2.1.2

end

end Sys2Proof.Machine

/-! PULSE_FRAME, GROUP_SUPPLY, LINE_SENSE, OVERSUM, SEQUENCER_STOP and PEER_DEAD (R42, R72, R221, R223, R225, R226). -/

namespace Sys2Proof.Machine

/-! ### Pulse frames (R42) -/

/-- The state in pulse frame `f`. -/
def State.inFrame (s : State) (f : Nat) : State := { s with fld := { s.fld with frame := f } }

theorem inFrame_fieldOnly (s : State) (f : Nat) : FieldOnly s (s.inFrame f) := rfl

section
variable {s : State} (on : s.fieldOn = true) (same : s.fld.pulseCfg = s.fld.cfg)
include on same

theorem execPulseFrame_within (present : s.tb / s.fld.cfg.period = s.fld.frame) : execPulseFrame s = .next s := by
  simp [execPulseFrame, on, same, present]

/-- The frame that TB lies in begins; apart from the inputs nothing else changes. -/
theorem execPulseFrame_sansIns (later : s.tb / s.fld.cfg.period ≠ s.fld.frame) : ∃ u, execPulseFrame s = .next u ∧
    u.sansIns = (s.inFrame (s.tb / s.fld.cfg.period)).sansIns := by
  simp [execPulseFrame, State.inFrame, on, same, later]

theorem execPulseFrame_begins (later : s.tb / s.fld.cfg.period ≠ s.fld.frame) :
    ∃ u, execPulseFrame s = .next u ∧ FieldOnly s u ∧ u.fld.frame = s.tb / s.fld.cfg.period ∧
      u.fld.outs = s.fld.outs := by
  obtain ⟨u, run, begun⟩ := execPulseFrame_sansIns on same later
  refine ⟨u, run, ?_, congrArg (fun v => v.fld.frame) begun, congrArg (fun v => v.fld.outs) begun⟩
  exact fieldOnly_trans (inFrame_fieldOnly s _) (fieldOnly_of_sansOuts (sansOuts_of_sansIns begun))

end

/-! ### Group supplies (R38, R72) -/

/-- A group as it was measured, apart from the current limit of its switch. -/
def SeqGroup.supply (g : SeqGroup) : SeqGroup := { g with short := false }

/-- The supplies of both sequencers stand, apart from the current limits. -/
def SameSupplies (s t : State) : Prop := Tab.ok .start s.fld.groups = true →
  Tab.ok .start t.fld.groups = true ∧ ∀ q g, (t.grp q g).supply = (s.grp q g).supply

section
variable {s t u : State}

theorem SameSupplies.of_groups (h : t.fld.groups = s.fld.groups) : SameSupplies s t := fun ok =>
  ⟨h ▸ ok, fun q g => by rw [State.grp, h]; rfl⟩

theorem SameSupplies.trans (h : SameSupplies s t) (k : SameSupplies t u) : SameSupplies s u := fun ok => by
  obtain ⟨okT, sameT⟩ := h ok
  obtain ⟨okU, sameU⟩ := k okT
  exact ⟨okU, fun q g => (sameU q g).trans (sameT q g)⟩

theorem grp_setGrp (ok : Tab.ok .start s.fld.groups = true) (q : Side) (g : Nat) (v : SeqGroup) :
    (s.setGrp q g v).grp q g = v := (Tab.get_set ok _ _ v).trans (if_pos rfl)

theorem setGrp_sameSupplies (s : State) (q : Side) (g : Nat) :
    SameSupplies s (s.setGrp q g { s.grp q g with short := false }) := fun ok => by
  refine ⟨Tab.ok_set _ _ ok, fun p j => ?_⟩
  rw [State.grp, State.setGrp, Tab.get_set ok]
  split
  · rename_i here
    rw [State.grp, State.grp, here]
    rfl
  · rfl

theorem setSensorSwitch_sameSupplies (s : State) (g : Nat) (b : Bool) : SameSupplies s (s.setSensorSwitch g b) := by
  unfold State.setSensorSwitch
  dsimp only
  split
  · exact ((SameSupplies.of_groups rfl).trans (setGrp_sameSupplies _ .a g)).trans (setGrp_sameSupplies _ .b g)
  · exact .of_groups rfl

@[simp] theorem State.setSensorSwitch_sansGroups (s : State) (g : Nat) (b : Bool) :
    (s.setSensorSwitch g b).sansGroups = s.sansGroups := by
  unfold State.setSensorSwitch
  split <;> rfl

/-- A change of a group moves the switch of its sensor supply, and then outputs and inputs. -/
theorem groupEffects_cases (s : State) (g : Nat) (was : GroupSt) : s.groupEffects g was = s ∨
    (s.groupEffects g was).sansOuts = (s.setSensorSwitch g (decide (2 ≤ (s.groupSt g).code))).sansOuts := by
  unfold State.groupEffects
  dsimp only
  split
  · exact .inl rfl
  · right
    simp

theorem groupEffects_sameSupplies (s : State) (g : Nat) (was : GroupSt) : SameSupplies s (s.groupEffects g was) := by
  rcases groupEffects_cases s g was with h | h
  · exact .of_groups (congrArg (·.fld.groups) h)
  · exact (setSensorSwitch_sameSupplies s g _).trans (.of_groups (groups_of_sansOuts h))

@[simp] theorem State.groupEffects_sansGroups (s : State) (g : Nat) (was : GroupSt) :
    (s.groupEffects g was).sansGroups = s.sansGroups := by
  rcases groupEffects_cases s g was with h | h
  · rw [h]
  · rw [sansGroups_of_sansOuts h, State.setSensorSwitch_sansGroups]

end

/-! ### One measurement (Table 3.5) -/

section
variable {v : SeqGroup} {gthr : Word} {now : Nat} {short : Bool} {mV : Int}

/-- No state is worse than REVERSED. -/
theorem worse_reversed (x : GroupSt) : x.worse .reversed = .reversed := by cases x <;> rfl

/-- The third measurement in a row below −2 V. -/
theorem measure_reversed (low : mV < -2000) (run : 2 ≤ v.runRev) :
    (v.measure gthr now mV short).st = .reversed := by
  have third : 3 ≤ min 3 (v.runRev + 1) := by omega
  simp only [SeqGroup.measure, low, third, decide_true, if_true]
  exact worse_reversed _

/-- A normal group stays so at a voltage below no threshold. -/
theorem measure_normal (normal : v.st = .normal) (low : 100 * (bf gthr 15 8 : Int) ≤ mV)
    (abs : 100 * (bf gthr 7 0 : Int) ≤ mV) (rev : -2000 ≤ mV) : (v.measure gthr now mV short).st = .normal := by
  simp only [SeqGroup.measure, normal, not_lt.2 low, not_lt.2 abs, not_lt.2 rev, decide_false, Bool.false_eq_true,
    if_false]
  rfl

end

/-! ### The commands -/

section
variable {s : State}

/-- A measurement less than 10 µs after the one before is not made. -/
theorem execGroupSupply_early {q : Side} {g : Fin 8} {t : Nat} (mV : Int) (short : Bool)
    (last : (s.grp q g.val).lastAt = some t) (early : s.tb < t + 2000) :
    execGroupSupply q g mV short s = .next s := by
  have undue : ¬t + 2000 ≤ s.tb := by omega
  simp [execGroupSupply, last, undue]

theorem execGroupSupply_due {q : Side} {g : Fin 8} (mV : Int) (short : Bool) (live : s.lives q = true)
    (due : ∀ t, (s.grp q g.val).lastAt = some t → t + 2000 ≤ s.tb) : execGroupSupply q g mV short s = .next
      ((s.setGrp q g.val ((s.grp q g.val).measure s.fld.cfg.gthr s.tb mV (short && !s.sensorOpen g.val))).groupEffects
        g.val (s.groupSt g.val)) := by
  unfold execGroupSupply
  dsimp only
  split
  · rename_i t last
    simp [live, due t last]
  · simp [live]

/-- What a sequencer has measured of a group is there afterwards. -/
theorem execGroupSupply_measures {q : Side} {g : Fin 8} (mV : Int) (short : Bool) (live : s.lives q = true)
    (ok : Tab.ok .start s.fld.groups = true) (due : ∀ t, (s.grp q g.val).lastAt = some t → t + 2000 ≤ s.tb) :
    ∃ u b, execGroupSupply q g mV short s = .next u ∧ FieldOnly s u ∧
      (u.grp q g.val).supply = ((s.grp q g.val).measure s.fld.cfg.gthr s.tb mV b).supply := by
  refine ⟨_, short && !s.sensorOpen g.val, execGroupSupply_due mV short live due, ?_, ?_⟩
  · exact fieldOnly_of_sansGroups (State.groupEffects_sansGroups ..)
  · rw [(groupEffects_sameSupplies _ g _ (Tab.ok_set _ _ ok)).2, grp_setGrp ok]

theorem execLineSense_early {k : Fin 64} {t : Nat} (mV : Nat) (last : (s.fout k.val).lineA.lastAt = some t)
    (early : s.tb < t + 2000) : execLineSense .a k (.sense mV) s = .next s := by
  have undue : ¬t + 2000 ≤ s.tb := by omega
  simp [execLineSense, State.measureLine, last, undue]

theorem execLineSense_counts {k : Fin 64} (mV : Nat) (live : s.lives .a = true) (idle : (s.fout k.val).phase = .idle)
    (senses : s.outLsense k.val = true) (double : s.single k.val = false)
    (apart : s.fld.pulseCfg.slotOf s.tb ≠ k.val)
    (due : ∀ t, (s.fout k.val).lineA.lastAt = some t → t + 2000 ≤ s.tb) :
    execLineSense .a k (.sense mV) s = .next (s.setFout k.val { s.fout k.val with lineA := { (s.fout k.val).lineA with
      lastAt := some s.tb
      hi := if 9900 < mV then min 2 ((s.fout k.val).lineA.hi + 1) else 0
      lo := if mV < 15 then min 2 ((s.fout k.val).lineA.lo + 1) else 0 } }) := by
  unfold execLineSense State.measureLine
  cases last : (s.fout k.val).lineA.lastAt with
  | none => simp [live, idle, senses, double, apart, last]
  | some t => simp [live, idle, senses, double, apart, last, due t last]

/-- A sum on the side of 6 A where it was judged to be. -/
theorem execOversum_same {g : Fin 8} {sum : Nat} (live : s.lives .a = true)
    (same : (Tab.get .start s.fld.sums g.val).excess = decide (600 < sum)) :
    execOversum g sum s = .next { s with fld := { s.fld with
      sums := Tab.set .start s.fld.sums g.val { Tab.get .start s.fld.sums g.val with sum := sum, since := none } } } := by
  simp [execOversum, live, same]

end

/-! ### Sequencers (R225, R226) -/

section
variable {s : State} {q : Side}

theorem seq_setSeq (s : State) (q : Side) (v : Seq) : (s.setSeq q v).seq q = v := by cases q <;> rfl

theorem setSeq_fieldOnly (s : State) (q : Side) (v : Seq) : FieldOnly s (s.setSeq q v) := by cases q <;> rfl

/-- A sequencer that stops takes its gates along; of the field side inputs, outputs and supplies follow. -/
theorem stopSeq_sansGroups (s : State) (q : Side) : (s.stopSeq q).sansGroups =
    (s.setSeq q { s.seq q with st := .stopped s.tb, got := none }).sansGroups := by
  unfold State.stopSeq
  dsimp only
  rw [sansGroups_of_sansOuts (State.refreshField_sansOuts _),
    foldl_view State.sansGroups fun a g => State.groupEffects_sansGroups a g _]
  exact sansGroups_of_sansOuts (foldl_sansOuts (fun a k => State.updFout_sansOuts a k _) _ _)

theorem execSequencerStop_stops (live : s.lives q = true) : ∃ u, execSequencerStop q false s = .next u ∧
    FieldOnly s u ∧ (u.seq q).st = .stopped s.tb ∧ (u.seq q).got = none := by
  have run : execSequencerStop q false s = .next (s.stopSeq q) := by simp [execSequencerStop, live]
  have stopped := stopSeq_sansGroups s q
  have own := (seq_of_sansGroups stopped q).trans (seq_setSeq s q _)
  refine ⟨_, run, fieldOnly_trans (setSeq_fieldOnly s q _) (fieldOnly_of_sansGroups stopped), ?_, ?_⟩
  · rw [own]
  · rw [own]

theorem execSequencerStop_reports (live : s.lives q = true) :
    execSequencerStop q true s = .next (s.setSeq q { s.seq q with selfFault := true }) := by
  simp [execSequencerStop, live]

theorem execPeerDead_notes {t : Nat} (live : s.lives q = true) (stopped : (s.seq (otherSide q)).st = .stopped t)
    (late : t + 2000 ≤ s.tb) : execPeerDead q s = .next (s.setSeq q { s.seq q with peerDead := true }) := by
  simp [execPeerDead, live, stopped, late]

end

end Sys2Proof.Machine

/-! Pulses, supplies and sequencers (O54). -/

namespace Sys2Proof.Machine

/-! ### The clauses, each by the rule of its command -/

theorem groupSupply_forms {s : State} {q : Side} {g : Fin 8} (mV : Int) (short : Bool) (live : s.lives q = true)
    (ok : Tab.ok .start s.fld.groups = true) (due : ∀ t, (s.grp q g.val).lastAt = some t → t + 2000 ≤ s.tb) :
    ∃ u, execGroupSupply q g mV short s = .next u ∧ FieldOnly s u ∧ (u.grp q g.val).volt = mV / 10 ∧
      (u.grp q g.val).lastAt = some s.tb ∧
      (mV < -2000 → 2 ≤ (s.grp q g.val).runRev → (u.grp q g.val).st = .reversed) ∧
      ((s.grp q g.val).st = .normal → 20000 ≤ mV → s.fld.cfg.gthr = 0xC0A0 → (u.grp q g.val).st = .normal) := by
  obtain ⟨u, b, run, field, measured⟩ := execGroupSupply_measures mV short live ok due
  have st : (u.grp q g.val).st = ((s.grp q g.val).measure s.fld.cfg.gthr s.tb mV b).st :=
    (congrArg SeqGroup.st measured :)
  refine ⟨u, run, field, (congrArg SeqGroup.volt measured :), (congrArg SeqGroup.lastAt measured :), ?_, ?_⟩
  · intro low twice
    rw [st, measure_reversed low twice]
  · intro normal high thresholds
    have low : bf (0xC0A0 : Word) 15 8 = 192 := by decide
    have abs : bf (0xC0A0 : Word) 7 0 = 160 := by decide
    rw [st, thresholds]
    refine measure_normal normal ?_ ?_ ?_ <;> omega

/-- Settles O54: clause by clause, each command by its own rule. -/
theorem pulsesSuppliesAndSequencers : Obligations.PulsesSuppliesAndSequencers := by
  unfold Obligations.PulsesSuppliesAndSequencers
  refine ⟨fun s on same => ?pulseFrame, fun s k live ok => ?pulse, fun s q g mV short live ok => ?groupSupply,
    fun s k mV live idle senses double apart => ?lineSense, fun s g sum live => execOversum_same live,
    fun s q live => ?sequencer⟩
  case pulseFrame => exact ⟨execPulseFrame_within on same, execPulseFrame_begins on same⟩
  case pulse =>
    refine ⟨fun pt ticks => ⟨fun due met => ?_, fun early before => ?_⟩, fun new passed _ => ?_,
      fun pt new passed => ?_⟩
    · exact execPulse_waits ticks (.inl ⟨due, met⟩)
    · exact execPulse_waits ticks (.inr ⟨early, before⟩)
    · exact execPulse_begins live ok new passed
    · exact execPulse_passes live ok new passed
  case groupSupply => exact ⟨fun t => execGroupSupply_early mV short, groupSupply_forms mV short live ok⟩
  case lineSense =>
    exact ⟨fun t => execLineSense_early mV, execLineSense_counts mV live idle senses double apart⟩
  case sequencer =>
    exact ⟨execSequencerStop_stops live, execSequencerStop_reports live, fun t => execPeerDead_notes live⟩

end Sys2Proof.Machine

/-! COUNTER_CLEAR, CNV_GO and CNV_SNAP (R79, R175, R188): what each reaches on a live device (O38). -/

namespace Sys2Proof.Machine

/-! ### COUNTER_CLEAR (R79) -/

theorem counterClear_cclr (s : State) (p : Nat) (v : Word) {j : Nat} (hj : j < 128) :
    (s.counterClear p v).lgc.cclr.getLsbD j = (s.lgc.cclr.getLsbD j || (decide (j / 32 = p) &&
      v.getLsbD (j % 32) && s.porchCounter j)) := by
  have named : (s.counterClear p v).lgc.cclr = s.lgc.cclr ||| ((List.range 32).map (32 * p + ·)).foldl (fun acc m =>
      if v.getLsbD (m % 32) && s.porchCounter m then acc ||| BitVec.ofNat 128 (1 <<< m) else acc) 0#128 := by
    rw [List.foldl_map]
    refine congrArg (s.lgc.cclr ||| ·) (List.foldl_ext _ _ _ fun acc i hi => ?_)
    have bit : (32 * p + i) % 32 = i := by have := List.mem_range.1 hi; omega
    rw [bit]
  have word : ((List.range 32).map (32 * p + ·)).contains j = decide (j / 32 = p) := by
    rw [Bool.eq_iff_iff, List.contains_iff_mem, List.mem_map, decide_eq_true_eq]
    constructor
    · rintro ⟨i, hi, rfl⟩
      have := List.mem_range.1 hi
      omega
    · rintro rfl
      exact ⟨j % 32, List.mem_range.2 (by omega), by omega⟩
  rw [named, BitVec.getLsbD_or, getLsbD_foldl_or _ _ _ hj, word, BitVec.getLsbD_zero, Bool.false_or, Bool.and_assoc]

/-! ### Triggers (R175, R176) -/

theorem triggerAll_reached (s : State) (src : Nat) (sel : ConvImg → Bool) : s.triggerAll src sel =
    (s.fld.cfg.convs.filter fun i => bf i.cfg 3 2 == src && sel i).foldl (fun acc i => acc.cnvTrigger i.conv) s := by
  rw [List.foldl_filter]
  rfl

theorem conv_setConv {s : State} (ok : Tab.ok .start s.cnv.convs = true) (c : Nat) (v : Cnv1) :
    (s.setConv c v).conv c = v := (Tab.get_set ok c c v).trans (if_pos rfl)

/-- The next entry of the list waits for a trigger, and none has reached it. -/
def Cnv1.triggerable (v : Cnv1) (i : ConvImg) : Bool :=
  decide (bf i.cfg 1 0 = 2) && bitOf (nth i.list v.next 0) 4 && !v.release && !v.failed

section
variable {s : State} {c : Nat} {i : ConvImg} (img : s.fld.cfg.convs.find? (fun x => x.conv == c) = some i)
include img

/-- A trigger releases the entry that waits for it; any other is a miss. -/
theorem cnvTrigger_eq : s.cnvTrigger c = if (s.conv c).triggerable i then s.setConv c { s.conv c with release := true }
    else (s.setConv c { s.conv c with tmiss := true }).noteFlag (tmissFlag c) := by
  unfold State.cnvTrigger Cnv1.triggerable State.conv
  dsimp only
  rw [img]
  dsimp only
  split <;> rfl

theorem cnvTrigger_releases (ready : (s.conv c).triggerable i = true) :
    s.cnvTrigger c = s.setConv c { s.conv c with release := true } := by rw [cnvTrigger_eq img, if_pos ready]

theorem cnvTrigger_misses (mode : bf i.cfg 1 0 ≠ 2) :
    s.cnvTrigger c = (s.setConv c { s.conv c with tmiss := true }).noteFlag (tmissFlag c) := by
  rw [cnvTrigger_eq img, if_neg (by simp [Cnv1.triggerable, mode])]

end

/-! ### CNV_SNAP (R188) -/

/-- What a table reads as after the named ones of a list of keys were written. -/
theorem Tab.get_foldl_set {α : Type} [DecidableEq α] {d : α} (p : Nat → Bool) (f : Nat → α) (l : List Nat)
    {t : Tab α} (ok : Tab.ok d t = true) (k : Nat) :
    Tab.get d (l.foldl (fun acc c => if p c then Tab.set d acc c (f c) else acc) t) k =
      if k ∈ l ∧ p k = true then f k else Tab.get d t k := by
  induction l generalizing t with
  | nil => simp
  | cons c l ih =>
    rw [List.foldl_cons]
    by_cases hp : p c = true
    · rw [if_pos hp, ih (Tab.ok_set c _ ok), Tab.get_set ok]
      by_cases hk : k = c
      · simp [hk, hp]
      · simp [hk]
    · rw [if_neg hp, ih ok]
      have named : k ∈ c :: l ∧ p k = true ↔ k ∈ l ∧ p k = true := by
        refine ⟨fun ⟨mem, pk⟩ => ⟨?_, pk⟩, fun ⟨mem, pk⟩ => ⟨List.mem_cons_of_mem c mem, pk⟩⟩
        exact (List.mem_cons.1 mem).resolve_left fun e => hp (e ▸ pk)
      simp only [named]

/-- Settles O38: each command of a live device acts, and reaches what it names. -/
theorem countersTriggersAndSnapshots : Obligations.CountersTriggersAndSnapshots := by
  intro s live
  refine ⟨fun p v => ?counterClear, fun w v => ?cnvGo, fun c i img ok => ⟨?released, ?missed⟩, fun w v ok => ?cnvSnap⟩
  case counterClear =>
    exact ⟨_, next_of_alive live (s.counterClear p v), fun j hj => counterClear_cclr s p v hj⟩
  case cnvGo => exact (next_of_alive live (s.cnvGo v)).trans (congrArg _ (triggerAll_reached s 1 _))
  case released =>
    intro mode waits held sound
    rw [cnvTrigger_releases img (by rw [Cnv1.triggerable, decide_eq_true mode, waits, held, sound]; rfl)]
    exact ⟨conv_setConv ok c _, rfl⟩
  case missed =>
    intro mode
    rw [cnvTrigger_misses img mode]
    exact conv_setConv ok c _
  case cnvSnap =>
    refine ⟨_, next_of_alive live (s.cnvSnap v), fun c => ?_⟩
    rw [Tab.get_foldl_set v.getLsbD _ _ ok c]
    simp only [List.mem_range]

end Sys2Proof.Machine

/-! INPUT_CHANGE and GLITCH_FILTER (R57, R59): what the comparators and the filters of a terminal do to it, and that
they touch no other. -/

namespace Sys2Proof.Machine

/-! ### Entries of both sequencers -/

theorem sideKey_inj {w x y : Nat} {p q : Side} (hx : x < w) (hy : y < w) :
    sideNat p * w + x = sideNat q * w + y ↔ p = q ∧ x = y := by
  cases p <;> cases q <;> simp [sideNat] <;> omega

section
variable {s : State} {p q : Side}

theorem term_setTerm (ok : Tab.ok .low s.fld.terms = true) {t x : Nat} (ht : t < 256) (hx : x < 256) (v : Term) :
    (s.setTerm q t v).term p x = if p = q ∧ x = t then v else s.term p x := by
  rw [State.term, State.setTerm, Tab.get_set ok]
  simp only [sideKey_inj hx ht]
  rfl

theorem inp_setInp (ok : Tab.ok .start s.fld.ins = true) {n m : Nat} (hn : n < 192) (hm : m < 192) (v : SeqIn) :
    (s.setInp q n v).inp p m = if p = q ∧ m = n then v else s.inp p m := by
  rw [State.inp, State.setInp, Tab.get_set ok]
  simp only [sideKey_inj hm hn]
  rfl

theorem inp_setInp_same (ok : Tab.ok .start s.fld.ins = true) (n : Nat) (v : SeqIn) : (s.setInp q n v).inp q n = v :=
  (Tab.get_set ok _ _ v).trans (if_pos rfl)

theorem fcnt_setFcnt_same (ok : Tab.ok .start s.fld.cnts = true) (m : Nat) (v : SeqCnt) :
    (s.setFcnt q m v).fcnt q m = v := (Tab.get_set ok _ _ v).trans (if_pos rfl)

end

/-! ### The comparators (R57) -/

/-- A terminal of sequencer `q` after its comparator has seen a voltage at the tick `now`. -/
def Term.compared (v : Term) (q : Side) (t : Nat) (mV : Int) (now : Nat) : Term :=
  if compare57 q t mV v.level == v.level then v
  else { v with level := compare57 q t mV v.level, since := now }

section
variable {v : Term} {q : Side} {t now : Nat} {mV : Int}

theorem Term.compared_filt : (v.compared q t mV now).filt = v.filt := by
  unfold Term.compared
  split <;> rfl

theorem Term.compared_level : (v.compared q t mV now).level = compare57 q t mV v.level := by
  unfold Term.compared
  split
  · rename_i same
    exact (beq_iff_eq.1 same).symm
  · rfl

theorem Term.compared_since (moves : (v.compared q t mV now).level ≠ v.level) :
    (v.compared q t mV now).since = now := by
  rw [Term.compared_level] at moves
  rw [Term.compared, if_neg fun same => moves (beq_iff_eq.1 same)]

theorem compare57_high (high : 11000 ≤ mV) (b : Bool) : compare57 q t mV b = true := if_pos high

theorem compare57_low (low : mV ≤ 5000) (b : Bool) : compare57 q t mV b = false := by
  rw [compare57, if_neg (by omega), if_pos low]

end

/-- The comparator of sequencer `q` sees a voltage. -/
def State.compareAt (s : State) (t : Nat) (mV : Int) (q : Side) : State :=
  s.setTerm q t ((s.term q t).compared q t mV s.tb)

theorem compareAt_eq {s : State} (ok : Tab.ok .low s.fld.terms = true) (t : Nat) (mV : Int) (q : Side) :
    s.compareAt t mV q = if compare57 q t mV (s.term q t).level == (s.term q t).level then s
      else s.setTerm q t { s.term q t with level := compare57 q t mV (s.term q t).level, since := s.tb } := by
  unfold State.compareAt Term.compared
  split
  · unfold State.setTerm State.term
    rw [Tab.set_get ok]
  · rfl

theorem execInputChange_eq {s : State} (on : s.fieldOn = true) (ok : Tab.ok .low s.fld.terms = true) (t : Fin 256)
    (mV : Int) : execInputChange t mV s = .next ((s.compareAt t mV .a).compareAt t mV .b) := by
  have ok1 : Tab.ok .low (s.compareAt t mV .a).fld.terms = true := Tab.ok_set _ _ ok
  rw [compareAt_eq ok1, compareAt_eq ok]
  simp only [execInputChange, on, Bool.not_true, Bool.false_eq_true, if_false]
  rfl

theorem execInputChange_compares {s : State} (on : s.fieldOn = true) (ok : Tab.ok .low s.fld.terms = true)
    (t : Fin 256) (mV : Int) : ∃ u, execInputChange t mV s = .next u ∧
      u = { s with fld := { s.fld with terms := u.fld.terms } } ∧ ∀ (q : Side) (x : Fin 256), u.term q x.val =
        if x = t then (s.term q t.val).compared q t.val mV s.tb else s.term q x.val := by
  have ok1 : Tab.ok .low (s.compareAt t mV .a).fld.terms = true := Tab.ok_set _ _ ok
  refine ⟨_, execInputChange_eq on ok t mV, rfl, fun q x => ?_⟩
  simp only [State.compareAt] at ok1 ⊢
  simp only [term_setTerm ok1 t.isLt x.isLt, term_setTerm ok t.isLt x.isLt, term_setTerm ok t.isLt t.isLt,
    Fin.val_inj]
  cases q <;> by_cases h : x = t <;> simp [h]

/-! ### The glitch filter (R59) -/

/-- The state apart from what a filtered change is judged and counted into. -/
def State.sansEdges (s : State) : State :=
  { s with fld := { s.fld with ins := [], outs := [], cnts := [], trigA := 0, trigB := 0 } }

theorem sansEdges_of_sansOuts {s t : State} (h : t.sansOuts = s.sansOuts) : t.sansEdges = s.sansEdges :=
  (congrArg State.sansEdges h :)

theorem sansEdges_of_sansIns {s t : State} (h : t.sansIns = s.sansIns) : t.sansEdges = s.sansEdges :=
  (congrArg State.sansEdges h :)

theorem fieldOnly_of_sansEdges {s t : State} (h : t.sansEdges = s.sansEdges) : FieldOnly s t :=
  (congrArg (fun u : State => { u with fld := t.fld }) h :)

theorem term_of_sansEdges {s t : State} (h : t.sansEdges = s.sansEdges) (q : Side) (x : Nat) :
    t.term q x = s.term q x := congrArg (fun u => u.term q x) h

@[simp] theorem sansEdges_ite (c : Prop) [Decidable c] (a b : State) :
    (if c then a else b).sansEdges = if c then a.sansEdges else b.sansEdges := apply_ite ..

section
variable (s : State) (q : Side)

@[simp] theorem State.fireTrigs_sansEdges (p : TrigImg → Bool) : (s.fireTrigs q p).sansEdges = s.sansEdges := by
  cases q <;> rfl

@[simp] theorem State.putCnt_sansEdges (m : Nat) (c : SeqCnt) : (s.putCnt q m c).sansEdges = s.sansEdges :=
  State.fireTrigs_sansEdges (s.setFcnt q m c) q _

@[simp] theorem State.countQuad_sansEdges (m : Nat) (onB lev : Bool) (at_ : Nat) :
    (s.countQuad q m onB lev at_).sansEdges = s.sansEdges := by simp [State.countQuad]

@[simp] theorem State.countEdge_sansEdges (m : Nat) (lev : Bool) (at_ : Nat) :
    (s.countEdge q m lev at_).sansEdges = s.sansEdges := by
  unfold State.countEdge
  dsimp only
  (repeat' split) <;> simp

@[simp] theorem State.judgeLoad_sansIns (n k : Nat) (lev : Bool) (at_ : Nat) :
    (s.judgeLoad q n k lev at_).sansIns = s.sansIns := by simp [State.judgeLoad]

@[simp] theorem State.judgeSource_sansIns (n k : Nat) (lev : Bool) (at_ : Nat) :
    (s.judgeSource q n k lev at_).sansIns = s.sansIns := by
  unfold State.judgeSource
  dsimp only
  split <;> simp

theorem State.judgeEdge_sansIns (n : Nat) (lev : Bool) (at_ before : Nat) :
    (s.judgeEdge q n lev at_ before).sansIns = s.sansIns := by
  unfold State.judgeEdge
  dsimp only
  (repeat' split) <;> simp

theorem State.stampDiffer_sansOuts (k : Nat) : (s.stampDiffer k).sansOuts = s.sansOuts := rfl

@[simp] theorem State.faultOut_sansOuts (k cause slot : Nat) : (s.faultOut k cause slot).sansOuts = s.sansOuts :=
  (faultOut_by s k cause slot).rest

theorem State.readEdge_sansOuts (k : Nat) (minus : Bool) (at_ before : Nat) :
    (s.readEdge q k minus at_ before).sansOuts = s.sansOuts := by
  simp [State.readEdge, State.foreign, State.stampDiffer_sansOuts]

end

theorem setTerm_fieldOnly (s : State) (q : Side) (t : Nat) (v : Term) : FieldOnly s (s.setTerm q t v) := rfl

theorem execGlitchFilter_early {s : State} {q : Side} {t : Fin 256} (early : s.tb < (s.term q t.val).since + 400) :
    execGlitchFilter q t s = .next s := by simp [execGlitchFilter, early]

/-- A level that has held passes; then the change is judged and counted. -/
theorem execGlitchFilter_passes {s : State} {q : Side} {t : Fin 256} (live : s.lives q = true)
    (new : (s.term q t.val).level ≠ (s.term q t.val).filt) (held : (s.term q t.val).since + 400 ≤ s.tb) :
    ∃ u, execGlitchFilter q t s = .next u ∧ u.sansEdges = (s.setTerm q t.val { s.term q t.val with
      filt := (s.term q t.val).level, filtAt := (s.term q t.val).since }).sansEdges := by
  unfold execGlitchFilter
  dsimp only
  rw [if_neg (by simp [live, new, held])]
  refine ⟨_, rfl, ?_⟩
  simp [sansEdges_of_sansIns (State.judgeEdge_sansIns ..), sansEdges_of_sansOuts (State.readEdge_sansOuts ..)]

theorem execGlitchFilter_filters {s : State} {q : Side} {t : Fin 256} (live : s.lives q = true)
    (new : (s.term q t.val).level ≠ (s.term q t.val).filt) (held : (s.term q t.val).since + 400 ≤ s.tb)
    (ok : Tab.ok .low s.fld.terms = true) : ∃ u, execGlitchFilter q t s = .next u ∧ FieldOnly s u ∧
      u.term q t.val = { s.term q t.val with filt := (s.term q t.val).level, filtAt := (s.term q t.val).since } ∧
      ∀ (p : Side) (x : Fin 256), (p, x) ≠ (q, t) → u.term p x.val = s.term p x.val := by
  obtain ⟨u, run, passed⟩ := execGlitchFilter_passes live new held
  refine ⟨u, run, fieldOnly_trans (setTerm_fieldOnly s q _ _) (fieldOnly_of_sansEdges passed), ?_, fun p x other => ?_⟩
  · rw [term_of_sansEdges passed, term_setTerm ok t.isLt t.isLt, if_pos ⟨rfl, rfl⟩]
  · rw [term_of_sansEdges passed, term_setTerm ok t.isLt x.isLt, if_neg]
    rintro ⟨rfl, same⟩
    exact other (congrArg (p, ·) (Fin.ext same))

end Sys2Proof.Machine

/-! DEBOUNCE, OFF_PULSE, GATE_TIME and PERIOD_TIMEOUT (R60, R65, R74): an input and a counter of one sequencer when a
time of theirs has run. -/

namespace Sys2Proof.Machine

/-! ### Inputs (R60, R65) -/

section
variable {s : State} {q : Side} {n : Fin 192}

/-- Before the debounce time has run in whole microseconds of the timebase. -/
theorem execDebounce_early (early : s.tb / 200 < (s.inp q n.val).judgedAt / 200 + s.debounceUs n.val)
    (past : (s.inp q n.val).judgedAt ≤ s.tb) : execDebounce q n s = .next s := by
  have order : (s.inp q n.val).judgedAt / 200 ≤ s.tb / 200 := Nat.div_le_div_right past
  have undue : ¬s.debounceUs n.val ≤ s.tb / 200 - (s.inp q n.val).judgedAt / 200 := by omega
  simp [execDebounce, undue]

theorem execDebounce_takes (live : s.lives q = true) (used : s.inUse n.val = true)
    (valid : (s.inp q n.val).cause = 0) (new : (s.inp q n.val).judged ≠ (s.inp q n.val).deb)
    (due : (s.inp q n.val).judgedAt / 200 + s.debounceUs n.val ≤ s.tb / 200) :
    execDebounce q n s = .next (s.setInp q n.val { s.inp q n.val with deb := (s.inp q n.val).judged }) := by
  have ran : s.debounceUs n.val ≤ s.tb / 200 - (s.inp q n.val).judgedAt / 200 := by omega
  simp [execDebounce, State.putDeb, live, used, valid, new, new.symm, ran]

theorem setInp_fieldOnly (s : State) (q : Side) (n : Nat) (v : SeqIn) : FieldOnly s (s.setInp q n v) := rfl

theorem execDebounce_debounces (live : s.lives q = true) (used : s.inUse n.val = true)
    (ok : Tab.ok .start s.fld.ins = true) (valid : (s.inp q n.val).cause = 0)
    (new : (s.inp q n.val).judged ≠ (s.inp q n.val).deb)
    (due : (s.inp q n.val).judgedAt / 200 + s.debounceUs n.val ≤ s.tb / 200) :
    ∃ u, execDebounce q n s = .next u ∧ FieldOnly s u ∧
      u.inp q n.val = { s.inp q n.val with deb := (s.inp q n.val).judged } ∧
      ∀ (p : Side) (m : Fin 192), (p, m) ≠ (q, n) → u.inp p m.val = s.inp p m.val := by
  refine ⟨_, execDebounce_takes live used valid new due, setInp_fieldOnly .., inp_setInp_same ok _ _,
    fun p m other => ?_⟩
  rw [inp_setInp ok n.isLt m.isLt, if_neg]
  rintro ⟨rfl, same⟩
  exact other (congrArg (p, ·) (Fin.ext same))

/-- A judgement that differs from the one before is noted with its tick, whatever the debounce time. -/
theorem judge_inp (ok : Tab.ok .start s.fld.ins = true) (n : Nat) {v : Bool} (new : (s.inp q n).judged ≠ v) :
    ((s.judge q n v).inp q n).judged = v ∧ ((s.judge q n v).inp q n).judgedAt = s.tb := by
  have noted := inp_setInp_same (q := q) ok n { s.inp q n with judged := v, judgedAt := s.tb }
  have ok1 : Tab.ok .start (s.setInp q n { s.inp q n with judged := v, judgedAt := s.tb }).fld.ins = true :=
    Tab.ok_set _ _ ok
  unfold State.judge
  dsimp only
  rw [if_neg (by simpa using new)]
  generalize s.setInp q n { s.inp q n with judged := v, judgedAt := s.tb } = t at noted ok1
  have plain : (t.inp q n).judged = v ∧ (t.inp q n).judgedAt = s.tb := by rw [noted]; exact ⟨rfl, rfl⟩
  split
  · unfold State.putDeb
    dsimp only
    split
    · exact plain
    · rw [inp_setInp_same ok1]
      exact plain
  · exact plain

theorem execOffPulse_judges (live : s.lives q = true) (used : s.inUse n.val = true)
    (ok : Tab.ok .start s.fld.ins = true) (mode : bf (s.icfg n.val) 31 30 = 2)
    (judgeable : (s.inp q n.val).open_ = true) (was : (s.inp q n.val).judged = true)
    (low : (s.term q n.val).filt = false)
    (long : (s.term q n.val).filtAt + 400 + ticksUs (bf (s.icfg n.val) 25 16) ≤ s.tb) :
    ∃ u, execOffPulse q n s = .next u ∧ FieldOnly s u ∧ (u.inp q n.val).judged = false ∧
      (u.inp q n.val).judgedAt = s.tb := by
  have run : execOffPulse q n s = .next (s.judge q n.val false) := by
    simp [execOffPulse, live, used, mode, judgeable, was, low, long]
  have field : FieldOnly s (s.judge q n.val false) :=
    fieldOnly_of_sansOuts (sansOuts_of_sansIns (State.judge_sansIns ..))
  exact ⟨_, run, field, judge_inp ok n.val (by rw [was]; decide)⟩

end

/-! ### Counters (R74) -/

theorem putCnt_cnts (s : State) (q : Side) (m : Nat) (c : SeqCnt) :
    (s.putCnt q m c).fld.cnts = (s.setFcnt q m c).fld.cnts := by
  unfold State.putCnt State.fireTrigs
  cases q <;> rfl

theorem putCnt_fcnt {s : State} {q : Side} (ok : Tab.ok .start s.fld.cnts = true) (m : Nat) (c : SeqCnt) :
    (s.putCnt q m c).fcnt q m = c := by
  rw [State.fcnt, putCnt_cnts]
  exact fcnt_setFcnt_same ok m c

theorem putCnt_fieldOnly (s : State) (q : Side) (m : Nat) (c : SeqCnt) : FieldOnly s (s.putCnt q m c) :=
  fieldOnly_of_sansEdges (State.putCnt_sansEdges s q m c)

section
variable {s : State} {q : Side} {m : Fin 128}

theorem execGateTime_due (live : s.lives q = true) (mode : s.cntMode m.val = 3)
    (due : (s.fcnt q m.val).gateAt + ticksMs (bf (s.ccfg m.val) 31 16) ≤ s.tb) :
    execGateTime q m s = .next (s.putCnt q m.val { s.fcnt q m.val with
      val := BitVec.ofNat 32 (s.fcnt q m.val).gate, gate := 0,
      gateAt := (s.fcnt q m.val).gateAt + ticksMs (bf (s.ccfg m.val) 31 16) }) := by
  simp [execGateTime, live, mode, due]

theorem execPeriodTimeout_due (live : s.lives q = true) (mode : s.cntMode m.val = 4)
    (due : (s.fcnt q m.val).riseAt.getD (s.fcnt q m.val).gateAt + ticksMs (bf (s.ccfg m.val) 31 16) + 400 ≤ s.tb) :
    execPeriodTimeout q m s = .next (s.putCnt q m.val { s.fcnt q m.val with
      val := 0xFFFFFFFF, stopped := true, riseAt := none }) := by
  simp [execPeriodTimeout, live, mode, due]

end

end Sys2Proof.Machine

/-! DISAGREE and AGREEMENT (R67, R68): an input as it is formed again from its two readings. -/

namespace Sys2Proof.Machine

/-! ### What forming an input writes -/

/-- The field side, and the logic side's end of the links to it. -/
def State.linkEnds (s : State) : Fld × Lgc := (s.fld, s.lgc)

theorem record_linkEnds (s : State) (c v : Nat) (p : List Byte) (b : Bool) (k : Option Nat) :
    (s.record c v p b k).linkEnds = s.linkEnds := by
  have h := record_recorded s c v p b k
  unfold Recorded at h
  rw [h]
  rfl

theorem captureFrom_linkEnds (s : State) (k : Nat) (a e : Nat → Bool) (w : Timer → Bool) :
    (s.captureFrom k a e w).linkEnds = s.linkEnds := by
  refine foldl_view State.linkEnds (fun t x => ?_) _ s
  unfold State.capture
  dsimp only
  (repeat' split) <;> rfl

/-- The cause with which input `n` is formed (R67, R68): 6 joins in while its readings are held to disagree. -/
def State.causeFormed (s : State) (n : Nat) : Nat :=
  let c := (s.table33 n).2.1
  if (s.form n).disagree || s.lgc.inBad.contains n then (if c = 0 then 6 else min c 6) else c

/-- `f` shows input `n` as its readings in `s` form it. -/
structure InForm.Shows (f : InForm) (s : State) (n : Nat) : Prop where
  cause : f.cause = s.causeFormed n
  invalid : f.invalid = (f.cause != 0)
  v : f.v = ((s.table33 n).1 && !f.invalid)
  disagree : f.disagree = (s.form n).disagree

/-- From `s` to `t` input `n` was formed anew. -/
def FormsInput (n : Nat) (s t : State) : Prop := ∃ f : InForm, f.Shows s n ∧
  t.linkEnds = (s.fld, { s.lgc with ins := Tab.set .start s.lgc.ins n f })

section
variable {s t u : State} {n : Nat}

theorem FormsInput.of_linkEnds (h : FormsInput n s t) (same : u.linkEnds = t.linkEnds) : FormsInput n s u :=
  h.imp fun _ => And.imp_right same.trans

theorem FormsInput.record (h : FormsInput n s t) (c v : Nat) (p : List Byte) : FormsInput n s (t.record c v p) :=
  h.of_linkEnds (record_linkEnds ..)

theorem FormsInput.ite {c : Prop} [Decidable c] (h : FormsInput n s t) (k : FormsInput n s u) :
    FormsInput n s (if c then t else u) := by split <;> assumption

end

theorem formInput_forms (s : State) (n : Nat) : FormsInput n s (s.formInput n) := by
  unfold State.formInput
  extract_lets o first
  dsimp -zeta only
  extract_lets c bad val enter half f s1 s2
  have written : FormsInput n s s1 := ⟨f, ⟨rfl, rfl, rfl, rfl⟩, rfl⟩
  have captured : FormsInput n s s2 := .ite written (written.of_linkEnds (captureFrom_linkEnds ..))
  exact .ite captured (.ite (captured.record ..) (.ite (captured.record ..) (.ite (captured.record ..) captured)))

/-! ### Formed again (R68) -/

theorem keepFormed_frame (s : State) (n : Nat) : s.keepFormed.fld = s.fld ∧ s.keepFormed.lgc.ins = s.lgc.ins ∧
    s.keepFormed.lgc.inBad = s.lgc.inBad ∧ s.keepFormed.table33 n = s.table33 n := by
  unfold State.keepFormed
  split <;> exact ⟨rfl, rfl, rfl, rfl⟩

/-- The readings of input `n` are held to disagree, or no longer. -/
def State.withDisagree (s : State) (n : Nat) (d : Bool) : State :=
  { s with lgc := { s.lgc with ins := Tab.set .start s.lgc.ins n { s.form n with disagree := d } } }

/-- From `s` to `u` input `n` alone was formed again, its readings held to disagree where `d`. -/
structure Reformed (s u : State) (n : Nat) (d : Bool) : Prop where
  fld : u.fld = s.fld
  disagree : (u.form n).disagree = d
  cause : (u.form n).cause =
    if d then (if (s.table33 n).2.1 = 0 then 6 else min (s.table33 n).2.1 6) else (s.table33 n).2.1
  invalid : (u.form n).invalid = ((u.form n).cause != 0)
  v : (u.form n).v = ((s.table33 n).1 && !(u.form n).invalid)
  others : ∀ m, m ≠ n → u.form m = s.form m

theorem withDisagree_reformed {s : State} {n : Nat} (ok : Tab.ok .start s.lgc.ins = true)
    (whole : s.lgc.inBad.contains n = false) (d : Bool) :
    Reformed s ((s.withDisagree n d).keepFormed.formInput n) n d := by
  have ok1 : Tab.ok .start (s.withDisagree n d).lgc.ins = true := Tab.ok_set _ _ ok
  have held : (s.withDisagree n d).form n = { s.form n with disagree := d } := (Tab.get_set ok n n _).trans (if_pos rfl)
  obtain ⟨fld, ins, inBad, readings⟩ := keepFormed_frame (s.withDisagree n d) n
  obtain ⟨f, shows, ends⟩ := formInput_forms (s.withDisagree n d).keepFormed n
  generalize (s.withDisagree n d).keepFormed = t at *
  have form (m : Nat) : (t.formInput n).form m = if m = n then f else (s.withDisagree n d).form m := by
    have written : (t.formInput n).lgc.ins = Tab.set .start (s.withDisagree n d).lgc.ins n f :=
      (congrArg (·.2.ins) ends).trans (congrArg (Tab.set .start · n f) ins)
    rw [State.form, written, Tab.get_set ok1]
    rfl
  have own : (t.formInput n).form n = f := (form n).trans (if_pos rfl)
  have before : (t.form n).disagree = d := by rw [State.form, ins, ← State.form, held]
  have table : t.table33 n = s.table33 n := readings
  refine ⟨(congrArg Prod.fst ends).trans fld, ?_, ?_, ?_, ?_, fun m other => ?_⟩
  · rw [own, shows.disagree, before]
  · rw [own, shows.cause, State.causeFormed, before, inBad, table]
    change (if d || s.lgc.inBad.contains n then _ else _) = _
    rw [whole, Bool.or_false]
  · rw [own, shows.invalid]
  · rw [own, shows.v, table]
  · rw [form, if_neg other]
    exact (Tab.get_set ok n m _).trans (if_neg other)

section
variable {s : State} {n : Fin 192} {t : Nat}

theorem execDisagree_due (mem : n.val ∈ s.inputsOf) (differ : (s.form n.val).diffAt = some t)
    (new : (s.form n.val).disagree = false) (due : t + 4000000 ≤ s.tb) :
    execDisagree n s = .next ((s.withDisagree n.val true).keepFormed.formInput n.val) := by
  simp [execDisagree, differ, mem, new, due, State.withDisagree]

theorem execAgreement_due (mem : n.val ∈ s.inputsOf) (agree : (s.form n.val).agreeAt = some t)
    (held : (s.form n.val).disagree = true) (due : t + 20000000 ≤ s.tb) :
    execAgreement n s = .next ((s.withDisagree n.val false).keepFormed.formInput n.val) := by
  simp [execAgreement, agree, mem, held, due, State.withDisagree]

end

end Sys2Proof.Machine

/-! Inputs are filtered, debounced and counted (O52). -/

namespace Sys2Proof.Machine

/-- Readings that disagree make the input INVALID and 0. -/
theorem Reformed.disagrees {s u : State} {n : Nat} (h : Reformed s u n true) : u.fld = s.fld ∧
    (u.form n).invalid = true ∧ (u.form n).v = false ∧ (u.form n).disagree = true ∧
    (u.form n).cause = (if (s.table33 n).2.1 = 0 then 6 else min (s.table33 n).2.1 6) ∧
    ∀ m, m ≠ n → u.form m = s.form m := by
  have cause := h.cause
  rw [if_pos rfl] at cause
  have caused : (u.form n).cause ≠ 0 := by
    rw [cause]
    split <;> omega
  have invalid : (u.form n).invalid = true := h.invalid.trans (bne_iff_ne.2 caused)
  exact ⟨h.fld, invalid, by rw [h.v, invalid, Bool.not_true, Bool.and_false], h.disagree, cause, h.others⟩

/-- Readings that agree again form the input by themselves. -/
theorem Reformed.agrees {s u : State} {n : Nat} (h : Reformed s u n false) : u.fld = s.fld ∧
    (u.form n).invalid = decide ((s.table33 n).2.1 ≠ 0) ∧ (u.form n).cause = (s.table33 n).2.1 ∧
    (u.form n).disagree = false ∧
    (u.form n).v = (decide ((s.table33 n).2.1 = 0) && (s.table33 n).1) ∧ ∀ m, m ≠ n → u.form m = s.form m := by
  have cause : (u.form n).cause = (s.table33 n).2.1 := h.cause
  have invalid : (u.form n).invalid = decide ((s.table33 n).2.1 ≠ 0) := by
    rw [h.invalid, cause, Bool.eq_iff_iff, bne_iff_ne, decide_eq_true_eq]
  refine ⟨h.fld, invalid, cause, h.disagree, ?_, h.others⟩
  rw [h.v, invalid, decide_not, Bool.not_not, Bool.and_comm]

/-- Settles O52: clause by clause, each command by its own rule. -/
theorem inputsAreFilteredDebouncedAndCounted : Obligations.InputsAreFilteredDebouncedAndCounted := by
  unfold Obligations.InputsAreFilteredDebouncedAndCounted
  refine ⟨fun s t mV on ok => ?inputChange, fun s q t => ?glitchFilter,
    fun s q n live used ok => ⟨?debounce, ?offPulse⟩,
    fun s q m live ok => ⟨?gateTime, ?periodTimeout⟩, fun s n t mem ok whole => ⟨?disagree, ?agreement⟩⟩
  case inputChange =>
    obtain ⟨u, run, field, terms⟩ := execInputChange_compares on ok t mV
    have own (q : Side) : u.term q t.val = (s.term q t.val).compared q t.val mV s.tb := (terms q t).trans (if_pos rfl)
    refine ⟨u, run, field, fun q x => ⟨?_, fun other => (terms q x).trans (if_neg other)⟩, fun q => ?_⟩
    · rw [terms]
      split
      · rename_i same
        rw [same, Term.compared_filt]
      · rfl
    · rw [own, Term.compared_level]
      exact ⟨(compare57_high · _), (compare57_low · _), fun moves => Term.compared_since (by rwa [Term.compared_level])⟩
  case glitchFilter => exact ⟨execGlitchFilter_early, fun live new held ok => execGlitchFilter_filters live new held ok⟩
  case debounce => exact fun valid new => ⟨execDebounce_early, execDebounce_debounces live used ok valid new⟩
  case offPulse => exact execOffPulse_judges live used ok
  case gateTime =>
    exact fun mode due => ⟨_, execGateTime_due live mode due, putCnt_fieldOnly .., putCnt_fcnt ok m.val _⟩
  case periodTimeout =>
    exact fun mode due => ⟨_, execPeriodTimeout_due live mode due, putCnt_fieldOnly .., putCnt_fcnt ok m.val _⟩
  case disagree =>
    exact fun differ new due =>
      ⟨_, execDisagree_due mem differ new due, (withDisagree_reformed ok whole true).disagrees⟩
  case agreement =>
    exact fun agree held due =>
      ⟨_, execAgreement_due mem agree held due, (withDisagree_reformed ok whole false).agrees⟩

end Sys2Proof.Machine

/-! What the timer events and the followers of a latch leave alone (R15, R283, R289, R291): all but the timers, the
flags and converter triggers of what falls due in them, and the observed differences. -/

namespace Sys2Proof.Machine

/-- The state apart from its timers, the flags they set, the converters they trigger and the differences seen in
shadow. -/
def State.sansTimers (s : State) : State :=
  { s with tmr := State.reset.tmr, flagSet := [], cnv := { s.cnv with convs := [] },
           cfg := { s.cfg with dseen := 0 } }

@[simp] theorem sansTimers_ite (c : Prop) [Decidable c] (a b : State) :
    (if c then a else b).sansTimers = if c then a.sansTimers else b.sansTimers := apply_ite ..

@[simp] theorem foldl_sansTimers {α : Type} {f : State → α → State} (h : ∀ a x, (f a x).sansTimers = a.sansTimers)
    (l : List α) (s : State) : (l.foldl f s).sansTimers = s.sansTimers := foldl_view State.sansTimers h l s

section
variable (s : State)

@[simp] theorem State.setTimer_sansTimers (n : Nat) (t : Timer) : (s.setTimer n t).sansTimers = s.sansTimers := rfl

@[simp] theorem State.updTimer_sansTimers (n : Nat) (f : Timer → Timer) :
    (s.updTimer n f).sansTimers = s.sansTimers := (rfl)

@[simp] theorem State.noteFlag_sansTimers (k : Nat) : (s.noteFlag k).sansTimers = s.sansTimers := rfl

@[simp] theorem State.capture_sansTimers (n : Nat) : (s.capture n).sansTimers = s.sansTimers := by
  simp [State.capture]

@[simp] theorem State.captureFrom_sansTimers (k : Nat) (a e : Nat → Bool) (w : Timer → Bool) :
    (s.captureFrom k a e w).sansTimers = s.sansTimers := by
  simp [State.captureFrom]

@[simp] theorem State.onChain_sansTimers (n : Nat) (f : Timer → Timer) :
    (s.onChain n f).sansTimers = s.sansTimers := by
  simp [State.onChain]

@[simp] theorem State.cnvTrigger_sansTimers (c : Nat) : (s.cnvTrigger c).sansTimers = s.sansTimers := by
  unfold State.cnvTrigger
  dsimp only
  rw [sansTimers_ite, State.noteFlag_sansTimers, ite_self]
  rfl

@[simp] theorem State.triggerAll_sansTimers (k : Nat) (f : ConvImg → Bool) :
    (s.triggerAll k f).sansTimers = s.sansTimers := by
  simp [State.triggerAll]

@[simp] theorem State.takeDues_sansTimers : s.takeDues.sansTimers = s.sansTimers := by
  simp [State.takeDues, State.takeDue, State.takeCompare, State.takeEnd]

@[simp] theorem State.startLatch_sansTimers (st : Bool) (r l : Nat) (rise : Bool) :
    (s.startLatch st r l rise).sansTimers = s.sansTimers := by
  simp [State.startLatch]

@[simp] theorem State.seeDiffer_sansTimers : s.seeDiffer.sansTimers = s.sansTimers := by
  unfold State.seeDiffer
  split <;> rfl

/-- R289, R291: consumers of a latch are timers. -/
@[simp] theorem State.latchEdges_sansTimers (old : State) (k : Nat) :
    (s.latchEdges old k).sansTimers = s.sansTimers := by
  unfold State.latchEdges
  split
  · rfl
  · simp

end

section
variable {s t : State} (h : t.sansTimers = s.sansTimers)
include h

theorem sea_of_sansTimers : t.sea = s.sea := congrArg (fun u => u.sea) h

theorem tb_of_sansTimers : t.tb = s.tb := congrArg (fun u => u.tb) h

theorem staged_of_sansTimers : t.cfg.staged = s.cfg.staged := congrArg (fun u => u.cfg.staged) h

theorem room_of_sansTimers (r : Nat) : t.room r = s.room r := congrArg (fun u => u.room r) h

theorem irm_of_sansTimers (k : Nat) : t.irm k = s.irm k := congrArg (fun u => u.irm k) h

theorem keyImg_of_sansTimers (k : Nat) : t.keyImg k = s.keyImg k := congrArg (fun u => u.keyImg k) h

theorem part_of_sansTimers (r : Nat) : t.part r = s.part r := congrArg (fun u => u.part r) h

theorem evaluable_of_sansTimers (r : Nat) : t.evaluable r = s.evaluable r := congrArg (fun u => u.evaluable r) h

/-- Beside the sea, `t` differs from `s` in what timers reach. -/
theorem eq_of_sansTimers {u : State} (sea : u = { t with sea := u.sea }) :
    u = { s with sea := u.sea, tmr := u.tmr, flagSet := u.flagSet, cnv := { s.cnv with convs := u.cnv.convs },
                 cfg := { s.cfg with dseen := u.cfg.dseen } } := by
  have same : ({ t with sea := u.sea } : State) =
      { s with sea := u.sea, tmr := t.tmr, flagSet := t.flagSet, cnv := { s.cnv with convs := t.cnv.convs },
               cfg := { s.cfg with dseen := t.cfg.dseen } } :=
    (congrArg (fun v : State => { v with
      sea := u.sea, tmr := t.tmr, flagSet := t.flagSet, cnv := { v.cnv with convs := t.cnv.convs },
      cfg := { v.cfg with dseen := t.cfg.dseen } }) h :)
  rw [sea]
  exact same

end

end Sys2Proof.Machine

/-! Rooms and image rooms of the sea: what they read after a write, who can evaluate, and what a comparison with a
mirror, a failure and the service of the free rooms do (R91 to R95). -/

namespace Sys2Proof.Machine

/-! ### Entries of the sea -/

theorem Tab.get_of_mem_from {α : Type} [DecidableEq α] {d : α} {t : Tab α} {a : Nat} {e : Nat × α}
    (h : Tab.okFrom d a t = true) (he : e ∈ t) : a ≤ e.1 ∧ Tab.get d t e.1 = e.2 := by
  induction t generalizing a with
  | nil => cases he
  | cons x t ih =>
    simp only [Tab.okFrom, Bool.and_eq_true, decide_eq_true_eq] at h
    obtain ⟨⟨below, -⟩, rest⟩ := h
    rcases List.mem_cons.1 he with rfl | he
    · exact ⟨below, by simp [Tab.get]⟩
    · obtain ⟨above, read⟩ := ih rest he
      refine ⟨by omega, ?_⟩
      simp only [Tab.get]
      rw [if_neg (by omega), if_neg (by omega), read]

/-- A key that is listed once reads as its listed value. -/
theorem Tab.get_of_mem {α : Type} [DecidableEq α] {d : α} {t : Tab α} {e : Nat × α} (h : Tab.ok d t = true)
    (he : e ∈ t) : Tab.get d t e.1 = e.2 := (Tab.get_of_mem_from h he).2

section
variable {s : State}

theorem room_setRoom (ok : Tab.ok .start s.sea.rooms = true) (r q : Nat) (v : Room) :
    (s.setRoom r v).room q = if q = r then v else s.room q := Tab.get_set ok r q v

theorem room_setRoom_same (ok : Tab.ok .start s.sea.rooms = true) (r : Nat) (v : Room) :
    (s.setRoom r v).room r = v := (room_setRoom ok r r v).trans (if_pos rfl)

theorem irm_setIrm (ok : Tab.ok .none s.sea.imap = true) (k n : Nat) (v : IRoom) :
    (s.setIrm k v).irm n = if n = k then v else s.irm n := Tab.get_set ok k n v

theorem irm_setIrm_same (ok : Tab.ok .none s.sea.imap = true) (k : Nat) (v : IRoom) : (s.setIrm k v).irm k = v :=
  (irm_setIrm ok k k v).trans (if_pos rfl)

theorem setIrm_setIrm (ok : Tab.ok .none s.sea.imap = true) (k : Nat) (v w : IRoom) :
    (s.setIrm k v).setIrm k w = s.setIrm k w := by
  simp only [State.setIrm, Tab.set_set ok]

theorem setIrm_irm (ok : Tab.ok .none s.sea.imap = true) (k : Nat) : s.setIrm k (s.irm k) = s := by
  simp only [State.setIrm, State.irm, Tab.set_get ok]

/-- An image room whose room is `r` is the one that `r` carries as part 0. -/
theorem room_of_part {r key : Nat} (ok : Tab.ok .none s.sea.imap = true) (h : s.part r = some (key, 0)) :
    (s.irm key).room = some r := by
  unfold State.part at h
  obtain ⟨e, mem, he⟩ := List.exists_of_findSome?_eq_some h
  have read : s.irm e.1 = e.2 := Tab.get_of_mem ok mem
  split_ifs at he with carries
  case pos =>
    cases he
    rw [read]
    exact beq_iff_eq.1 carries
  all_goals cases he

/-- A room that can evaluate carries a part of an image room, in a living device. -/
theorem evaluable_some {r key part : Nat} {m : RoomImg} (h : s.evaluable r = some (key, part, m)) :
    s.part r = some (key, part) ∧ s.keyImg key = some m := by
  unfold State.evaluable at h
  split at h
  · cases h
  · split at h
    · cases h
    next carried =>
      split at h
      · cases h
      next img =>
        dsimp only at h
        split at h
        · cases h
        · obtain ⟨rfl, rfl, rfl⟩ := Option.some.inj h
          exact ⟨carried, img⟩

end

/-! ### Records of rooms -/

theorem roomRecord_recorded (s : State) (r key event site : Nat) : Recorded s (s.roomRecord r key event site) :=
  record_recorded ..

theorem tb_of_recorded {s t : State} (h : Recorded s t) : t.tb = s.tb := by
  unfold Recorded at h
  rw [h]

/-- What rooms and image rooms are read from: the configuration and the sea. -/
def State.placing (s : State) : Cfg × Sea := (s.cfg, s.sea)

theorem placing_of_recorded {s t : State} (h : Recorded s t) : t.placing = s.placing := by
  unfold Recorded at h
  rw [h]
  rfl

section
variable {s t : State} (h : t.placing = s.placing)
include h

theorem sea_of_placing : t.sea = s.sea := congrArg Prod.snd h

theorem staged_of_placing : t.cfg.staged = s.cfg.staged := congrArg (fun x => x.1.staged) h

theorem room_of_placing (r : Nat) : t.room r = s.room r := by
  rw [State.room, sea_of_placing h, State.room]

theorem irm_of_placing (k : Nat) : t.irm k = s.irm k := by
  rw [State.irm, sea_of_placing h, State.irm]

theorem keyImg_of_placing (k : Nat) : t.keyImg k = s.keyImg k := by
  have cfg : t.cfg = s.cfg := congrArg Prod.fst h
  simp only [State.keyImg, State.roomImg, State.img, cfg]

end

/-! ### Room and mirror (R93) -/

/-- Room `w` is room `v` but for the marks of the comparison with its mirror. -/
def Room.Marked (v w : Room) : Prop :=
  w = { v with differs := w.differs, cells := { v.cells with due := w.cells.due } }

theorem Room.marked (v : Room) (d e : Bool) :
    v.Marked { v with differs := d, cells := { v.cells with due := e } } := rfl

/-- Nothing moved but the map of the image rooms and the marks of their rooms. -/
structure MarksMove (s u : State) : Prop where
  rest  : u = { s with sea := u.sea }
  rooms : ∀ r, (s.room r).Marked (u.room r)

theorem MarksMove.refl (s : State) : MarksMove s s := ⟨rfl, fun _ => rfl⟩

theorem MarksMove.setRoom {s t : State} (h : MarksMove s t) (ok : Tab.ok .start t.sea.rooms = true) {r : Nat}
    {w : Room} (hw : (s.room r).Marked w) : MarksMove s (t.setRoom r w) := by
  refine ⟨(congrArg (fun u : State => u.setRoom r w) h.rest :), fun q => ?_⟩
  rw [room_setRoom ok]
  split
  · next same => exact same ▸ hw
  · exact h.rooms q

theorem MarksMove.setIrm {s t : State} (h : MarksMove s t) (k : Nat) (v : IRoom) : MarksMove s (t.setIrm k v) :=
  ⟨(congrArg (fun u : State => u.setIrm k v) h.rest :), h.rooms⟩

/-- A comparison that does not find its second difference moves marks. -/
theorem compareMirror_marksMove {s : State} {key : Nat} (ok : Tab.ok .start s.sea.rooms = true)
    (first : ∀ r, (s.irm key).room = some r → (s.room r).differs = false) : MarksMove s (s.compareMirror key) := by
  have still := MarksMove.refl s
  unfold State.compareMirror
  dsimp only
  split
  · next r x hr hx =>
    split_ifs with unsettled agree again
    · exact still
    · exact (still.setRoom ok (Room.marked ..)).setIrm ..
    · exact absurd again (by simp [first r hr])
    · exact (still.setRoom ok (Room.marked ..)).setRoom (Tab.ok_set r _ ok) (Room.marked ..)
  · exact still

theorem compareMirror_alone {s : State} {key : Nat} (mirror : (s.irm key).mirror = none)
    (building : (s.irm key).building = none) : s.compareMirror key = s := by
  unfold State.compareMirror
  simp only [mirror, building, Option.map_none, ite_self, Option.or_none]
  cases (s.irm key).room <;> rfl

/-! ### Failures (R91 to R95) -/

/-- R15: what consumers saw is noted once in a tick. -/
theorem markLatches_eq {s : State} {key : Nat} {m : RoomImg} (ok : Tab.ok .none s.sea.imap = true)
    (img : s.keyImg key = some m) :
    ∃ w, s.markLatches key = s.setIrm key { s.irm key with wasAt := some s.tb, was := w } := by
  unfold State.markLatches
  simp only [img]
  split
  · next noted =>
    refine ⟨(s.irm key).was, ?_⟩
    rw [← noted]
    exact (setIrm_irm ok key).symm
  · exact ⟨_, rfl⟩

theorem dropMirror_alone {s : State} {key : Nat} (mirror : (s.irm key).mirror = none)
    (building : (s.irm key).building = none) (failed : Bool) : s.dropMirror key failed = s := by
  unfold State.dropMirror
  simp only [mirror, building, Option.map_none, Option.or_none]

/-- An image room without a mirror fails: its latches freeze at the failed room's (R95). -/
theorem failImage_marked {s t : State} {key r : Nat} {m : RoomImg} (marked : s.markLatches key = t)
    (img : t.keyImg key = some m) (room : (t.irm key).room = some r) (mirror : (t.irm key).mirror = none)
    (building : (t.irm key).building = none) (new : (t.irm key).failedAt = none)
    (committed : (t.room r).cells.committed = true) :
    s.failImage key = (t.setIrm key { t.irm key with
        failedAt := some t.tb, frozen := (t.room r).cells.latches }).setRoom r
      { t.room r with st := .failed, differs := false } := by
  unfold State.failImage
  simp only [marked, room, mirror, new, dropMirror_alone mirror building, img, committed, if_true, Option.getD_none]
  rfl

theorem failImage_alone {s : State} {key r : Nat} {m : RoomImg} (ok : Tab.ok .none s.sea.imap = true)
    (img : s.keyImg key = some m) (room : (s.irm key).room = some r) (mirror : (s.irm key).mirror = none)
    (building : (s.irm key).building = none) (new : (s.irm key).failedAt = none)
    (committed : (s.room r).cells.committed = true) :
    ∃ w, s.failImage key = (s.setIrm key { s.irm key with
        failedAt := some s.tb, frozen := (s.room r).cells.latches, wasAt := some s.tb, was := w }).setRoom r
      { s.room r with st := .failed, differs := false } := by
  obtain ⟨w, marked⟩ := markLatches_eq ok img
  refine ⟨w, ?_⟩
  have read := irm_setIrm_same ok key { s.irm key with wasAt := some s.tb, was := w }
  rw [failImage_marked marked img (by rw [read]; exact room) (by rw [read]; exact mirror)
    (by rw [read]; exact building) (by rw [read]; exact new) committed, setIrm_setIrm ok, read]
  rfl

/-! ### The service of the free rooms (R93, R94) -/

theorem st_of_mem_freeRooms {s : State} {r : Nat} (h : r ∈ s.freeRooms) : (s.room r).st = .free := by
  simp only [State.freeRooms, List.mem_filter, Bool.and_eq_true, beq_iff_eq] at h
  exact h.2.1

/-- What rewrites and mirrors that begin leave alone: the rooms that are not free, and the failures. -/
structure Serves (s t : State) : Prop where
  last  : t.sea.last = s.sea.last
  imap  : Tab.ok .none s.sea.imap = true → Tab.ok .none t.sea.imap = true ∧
    ∀ k, (t.irm k).failedAt = (s.irm k).failedAt ∧ (t.irm k).frozen = (s.irm k).frozen
  rooms : Tab.ok .start s.sea.rooms = true → Tab.ok .start t.sea.rooms = true ∧
    ∀ r, (s.room r).st ≠ .free → t.room r = s.room r

theorem Serves.refl (s : State) : Serves s s :=
  ⟨rfl, fun ok => ⟨ok, fun _ => ⟨rfl, rfl⟩⟩, fun ok => ⟨ok, fun _ _ => rfl⟩⟩

theorem Serves.trans {s t u : State} (h : Serves s t) (k : Serves t u) : Serves s u where
  last := k.last.trans h.last
  imap ok := by
    obtain ⟨okt, ht⟩ := h.imap ok
    obtain ⟨oku, ku⟩ := k.imap okt
    exact ⟨oku, fun n => ⟨(ku n).1.trans (ht n).1, (ku n).2.trans (ht n).2⟩⟩
  rooms ok := by
    obtain ⟨okt, ht⟩ := h.rooms ok
    obtain ⟨oku, ku⟩ := k.rooms okt
    refine ⟨oku, fun r taken => ?_⟩
    have same := ht r taken
    exact (ku r (same ▸ taken)).trans same

theorem Serves.foldl {α : Type} {f : State → α → State} (h : ∀ a x, Serves a (f a x)) (l : List α) (s : State) :
    Serves s (l.foldl f s) := by
  induction l generalizing s with
  | nil => exact .refl s
  | cons x l ih => exact (h s x).trans (ih _)

/-- An image room takes a free room. -/
theorem serves_take {s : State} {key r : Nat} {v : IRoom} (free : r ∈ s.freeRooms)
    (failedAt : v.failedAt = (s.irm key).failedAt) (frozen : v.frozen = (s.irm key).frozen) (w : Room) :
    Serves s ((s.setIrm key v).setRoom r w) := by
  refine ⟨rfl, fun ok => ⟨Tab.ok_set key v ok, fun k => ?_⟩, fun ok => ⟨Tab.ok_set r w ok, fun q taken => ?_⟩⟩
  · change ((s.setIrm key v).irm k).failedAt = _ ∧ ((s.setIrm key v).irm k).frozen = _
    rw [irm_setIrm ok]
    split
    · next same => exact same ▸ ⟨failedAt, frozen⟩
    · exact ⟨rfl, rfl⟩
  · exact (Tab.get_set ok r q w).trans (if_neg fun e : q = r => taken (e ▸ st_of_mem_freeRooms free))

theorem startRewrite_serves (s : State) (key : Nat) : Serves s (s.startRewrite key) := by
  unfold State.startRewrite
  dsimp only
  split
  · exact .refl s
  · next chosen => exact serves_take (key := key) (mem_of_chooseRoom chosen) (by rfl) (by rfl) _

theorem startMirror_serves (s : State) (key : Nat) : Serves s (s.startMirror key) := by
  unfold State.startMirror
  dsimp only
  split
  · split
    · exact .refl s
    · split
      · exact .refl s
      · next chosen => exact serves_take (key := key) (mem_of_chooseMirror chosen) (by rfl) (by rfl) _
  · exact .refl s

/-- Free rooms are served after staging has ended, where its cost ends it (R323). -/
theorem serveSea_serves (s : State) : Serves (if s.seaCosts then s.endStage .capacity else s) s.serveSea :=
  (Serves.foldl startRewrite_serves _ _).trans (.foldl startMirror_serves _ _)

theorem serveSea_serves_unstaged {s : State} (unstaged : s.cfg.staged = none) : Serves s s.serveSea := by
  have served := serveSea_serves s
  rwa [if_neg (by simp [State.seaCosts, unstaged])] at served

end Sys2Proof.Machine

/-! EVALUATION, REFRESH, EVALUATION_TIMEOUT, DELAY_EXPIRY and LONG_DELAY_EXPIRY (R86, R87, R89 to R91, R421). -/

namespace Sys2Proof.Machine

/-! ### Commits (R89) -/

section
variable {s : State} {r key part : Nat} {m : RoomImg}

/-- What room `r` holds after its true pass on the ports of this instant. -/
def State.passCells (s : State) (r key : Nat) (m : RoomImg) : Cells :=
  commitCells m (s.room r).cells (s.portsOf (decide (64 ≤ key)) (s.room r) m) s.tb

theorem commitRoom_agreeing (held : (s.room r).st ≠ .held) (loaded : part ≠ 3) :
    s.commitRoom r key part m =
      ((s.setRoom r { s.room r with cells := s.passCells r key m }).latchEdges s key).compareMirror key := by
  simp only [State.commitRoom, held, loaded, decide_false, Bool.false_eq_true, if_false]
  rfl

/-- A commit of a room that is not held: its followers are timers, and the comparison moves marks only. -/
theorem commitRoom_commits {d : State} (same : d.sansTimers = s.sansTimers) (held : (s.room r).st ≠ .held)
    (loaded : part ≠ 3) (ok : Tab.ok .start s.sea.rooms = true)
    (first : ∀ q, (s.irm key).room = some q → (s.room q).differs = false) :
    RoomCommits s (d.commitRoom r key part m) r
      (commitCells m (s.room r).cells (d.portsOf (decide (64 ≤ key)) (s.room r) m) s.tb) := by
  have read := room_of_sansTimers same
  have cells : d.passCells r key m =
      commitCells m (s.room r).cells (d.portsOf (decide (64 ≤ key)) (s.room r) m) s.tb := by
    rw [State.passCells, read, tb_of_sansTimers same]
  rw [commitRoom_agreeing (by rwa [read]) loaded, cells, read]
  generalize commitCells m (s.room r).cells (d.portsOf (decide (64 ≤ key)) (s.room r) m) s.tb = c
  generalize hv : ({ s.room r with cells := c } : Room) = v
  generalize ht : (d.setRoom r v).latchEdges d key = t
  have reached : t.sansTimers = (s.setRoom r v).sansTimers := by
    rw [← ht, State.latchEdges_sansTimers]
    exact (congrArg (fun u => u.setRoom r v) same :)
  have rooms (q : Nat) : t.room q = if q = r then v else s.room q :=
    (room_of_sansTimers reached q).trans (room_setRoom ok r q v)
  have okt : Tab.ok .start t.sea.rooms = true := by
    rw [sea_of_sansTimers reached]
    exact Tab.ok_set r v ok
  have firstt (q : Nat) (hq : (t.irm key).room = some q) : (t.room q).differs = false := by
    rw [irm_of_sansTimers reached] at hq
    have before := first q hq
    rw [rooms]
    split
    · next e => rw [← hv]; exact e ▸ before
    · exact before
  obtain ⟨rest, marks⟩ := compareMirror_marksMove okt firstt
  have own : v.Marked ((t.compareMirror key).room r) := by
    have here := marks r
    rwa [rooms, if_pos rfl] at here
  subst hv
  refine ⟨eq_of_sansTimers reached rest, ?_, ?_, fun q hq => ?_⟩
  · exact (congrArg Room.st own :)
  · exact (congrArg Room.cells own :)
  · have here := marks q
    rwa [rooms, if_neg hq] at here

/-- R91: a held room whose two passes agree goes back to the state that it had. -/
theorem commitRoom_returns (held : (s.room r).st = .held) (loaded : part ≠ 3) (ok : Tab.ok .start s.sea.rooms = true)
    (mirror : (s.irm key).mirror = none) (building : (s.irm key).building = none) :
    (s.commitRoom r key part m).room r = { s.room r with
      st := (s.room r).heldAs, first := satAdd 0xFFFF (s.room r).first 1, cells := s.passCells r key m } := by
  generalize hv : ({ s.room r with
    st := (s.room r).heldAs, first := satAdd 0xFFFF (s.room r).first 1, cells := s.passCells r key m } : Room) = v
  have commits : s.commitRoom r key part m = (((s.setRoom r v).roomRecord r key 0 (s.room r).heldSite).latchEdges s
      key).compareMirror key := by
    rw [← hv]
    simp only [State.commitRoom, held, loaded, decide_true, if_true, if_false]
    rfl
  generalize ht : ((s.setRoom r v).roomRecord r key 0 (s.room r).heldSite).latchEdges s key = t at commits
  have sea : t.sea = (s.setRoom r v).sea := by
    rw [← ht, sea_of_sansTimers (State.latchEdges_sansTimers ..),
      sea_of_placing (placing_of_recorded (roomRecord_recorded ..))]
  have entry : t.irm key = s.irm key := by
    rw [State.irm, sea]
    rfl
  rw [commits, compareMirror_alone (entry ▸ mirror) (entry ▸ building), State.room, sea]
  exact room_setRoom_same ok r v

end

/-! ### Disagreements (R91) -/

/-- The room of an image room has failed: SEA_LAST names the site, and the latches are frozen (R91, R95). -/
structure RoomFailed (u : State) (r key site now : Nat) (frozen : Tab Bool) : Prop where
  st       : (u.room r).st = .failed
  failedAt : (u.irm key).failedAt = some now
  frozen   : (u.irm key).frozen = frozen
  last     : u.sea.last = some (site, key % 64, r)

theorem RoomFailed.serves {s u : State} {r key site now : Nat} {frozen : Tab Bool}
    (h : RoomFailed s r key site now frozen) (k : Serves s u) (okr : Tab.ok .start s.sea.rooms = true)
    (oki : Tab.ok .none s.sea.imap = true) : RoomFailed u r key site now frozen := by
  have own := (k.rooms okr).2 r (by rw [h.st]; decide)
  obtain ⟨failedAt, latches⟩ := (k.imap oki).2 key
  exact ⟨own ▸ h.st, failedAt.trans h.failedAt, latches.trans h.frozen, k.last.trans h.last⟩

/-- The room that fails is charged and named in SEA_LAST (R91). -/
def State.blame (s : State) (r key site : Nat) : State :=
  let v := s.room r
  let s1 := s.setRoom r { v with st := v.heldAs, fails := satAdd 0xFFFF v.fails 1 }
  { s1 with sea := { s1.sea with last := some (site, key % 64, r) } }

theorem failRoom_of_part {s : State} {r key : Nat} (carried : s.part r = some (key, 0)) (site : Nat) :
    s.failRoom r site = (((s.blame r key site).roomRecord r key 1 site).failImage key).serveSea := by
  have carried' (v : Room) : (s.setRoom r v).part r = some (key, 0) := carried
  simp only [State.failRoom, carried', OfNat.zero_ne_ofNat, zero_ne_one, or_self, if_false]
  rfl

theorem blame_cells {s : State} {r : Nat} (ok : Tab.ok .start s.sea.rooms = true) (key site : Nat) :
    ((s.blame r key site).room r).cells = (s.room r).cells :=
  (congrArg Room.cells (room_setRoom_same ok r _) :)

/-- The second disagreement of an image room's only room (R91, R95). -/
theorem failRoom_fails {s : State} {r key site : Nat} {m : RoomImg} (okr : Tab.ok .start s.sea.rooms = true)
    (oki : Tab.ok .none s.sea.imap = true) (carried : s.part r = some (key, 0)) (img : s.keyImg key = some m)
    (mirror : (s.irm key).mirror = none) (building : (s.irm key).building = none)
    (new : (s.irm key).failedAt = none) (committed : (s.room r).cells.committed = true)
    (unstaged : s.cfg.staged = none) :
    RoomFailed (s.failRoom r site) r key site s.tb (s.room r).cells.latches := by
  have recorded := roomRecord_recorded (s.blame r key site) r key 1 site
  rw [failRoom_of_part carried]
  generalize (s.blame r key site).roomRecord r key 1 site = n at recorded ⊢
  have placed := placing_of_recorded recorded
  have sea := sea_of_placing placed
  have entry : n.irm key = s.irm key := (irm_of_placing placed key :)
  have cells := (congrArg Room.cells (room_of_placing placed r)).trans (blame_cells okr key site)
  have tb : n.tb = s.tb := (tb_of_recorded recorded :)
  have staged := (staged_of_placing placed).trans unstaged
  have img := (keyImg_of_placing placed key).trans img
  have okn : Tab.ok .none n.sea.imap = true := sea ▸ oki
  have okn' : Tab.ok .start n.sea.rooms = true := sea ▸ Tab.ok_set r _ okr
  obtain ⟨w, frozen⟩ := failImage_alone okn img (entry ▸ room_of_part oki carried) (entry ▸ mirror)
    (entry ▸ building) (entry ▸ new) (cells ▸ committed)
  rw [frozen, ← cells, ← tb]
  refine RoomFailed.serves ?_ (serveSea_serves_unstaged staged) (Tab.ok_set r _ okn')
    (Tab.ok_set key _ okn)
  have read (v : IRoom) : (n.setIrm key v).irm key = v := irm_setIrm_same okn key v
  refine ⟨?_, ?_, ?_, ?_⟩
  · exact congrArg Room.st (room_setRoom_same (s := n.setIrm key _) okn' r _)
  · exact congrArg IRoom.failedAt (read _)
  · exact congrArg IRoom.frozen (read _)
  · exact congrArg Sea.last sea

/-! ### The commands -/

section
variable {s : State} {p : Fin 64} {key part : Nat} {m : RoomImg} (ev : s.evaluable p.val = some (key, part, m))
include ev

theorem evaluable_takeDues : s.takeDues.evaluable p.val = some (key, part, m) :=
  (evaluable_of_sansTimers s.takeDues_sansTimers p.val).trans ev

theorem execEvaluation_agrees (due : s.takeDues.evalDue p.val key m = true) :
    exec (.evaluation p []) s = .next (s.takeDues.commitRoom p.val key part m) := by
  change execEvaluation p [] s = _
  simp only [execEvaluation, evaluable_takeDues ev, due, Bool.not_true, Bool.false_eq_true, if_false]

theorem execEvaluation_disagrees (due : s.takeDues.evalDue p.val key m = true) (x : Nat) (l : List Nat) :
    exec (.evaluation p (x :: l)) s = .next (s.takeDues.disagreeRoom p.val (if x < 960 then x else 0x3FF)) := by
  change execEvaluation p (x :: l) s = _
  simp only [execEvaluation, evaluable_takeDues ev, due, Bool.not_true, Bool.false_eq_true, if_false]

theorem execEvaluationTimeout_due (due : s.takeDues.evalDue p.val key m = true) :
    exec (.evaluationTimeout p) s = .next (s.takeDues.disagreeRoom p.val 0x3FF) := by
  change execEvaluationTimeout p s = _
  simp only [execEvaluationTimeout, evaluable_takeDues ev, due, if_true]

theorem execRefresh_due (loaded : (s.room p.val).cells.loaded = true)
    (old : (s.room p.val).cells.lastEval + 200000 ≤ s.tb) :
    exec (.refresh p) s = .next (s.takeDues.commitRoom p.val key part m) := by
  change execRefresh p s = _
  simp only [execRefresh, ev, loaded, old, decide_true, Bool.and_true, if_true]

/-- A delay site whose count runs: its expiry waits for its capture once the count has run its time (R86). -/
theorem execDelayExpiry_counts {x : SiteImg} {t : Nat} (site : m.sites.find? (fun y => y.site == x.site) = some x)
    (runs : Tab.get none (s.room p.val).cells.dly x.site = some t) :
    exec (.delayExpiry p x.site) s = .next (if s.ticking && decide (expiryOf 200 x.delay t ≤ s.tb)
      then s.addExpiry p.val x.site else s) := by
  change execDelayExpiry p x.site s = _
  simp only [execDelayExpiry, ev, site, runs]

/-- A long delay unit whose count runs (R87). -/
theorem execLongDelayExpiry_counts {u : Fin 8} {x : LdImg} {t : Nat}
    (unit : m.lds.find? (fun y => y.unit == u.val) = some x)
    (runs : Tab.get none (s.room p.val).cells.ldDly u.val = some t) :
    exec (.longDelayExpiry p u) s = .next (if s.ticking && decide (expiryOf 200000 x.time t ≤ s.tb)
      then s.addExpiry p.val (1000 + u.val) else s) := by
  change execLongDelayExpiry p u s = _
  simp only [execLongDelayExpiry, ev, unit, runs]

end

/-- A disagreement of a room that is not held holds it, with an evaluation due (R91). -/
theorem disagreeRoom_holds {s : State} {r : Nat} (held : (s.room r).st ≠ .held) (site : Nat) :
    s.takeDues.disagreeRoom r site = s.takeDues.setRoom r { s.room r with
      st := .held, heldAs := (s.room r).st, heldSite := site
      cells := { (s.room r).cells with due := true, lastEval := s.tb } } := by
  have read := room_of_sansTimers s.takeDues_sansTimers r
  rw [State.disagreeRoom, read, if_neg held, s.takeDues_tb]

theorem disagreeRoom_again {s : State} {r : Nat} (held : (s.room r).st = .held) (site : Nat) :
    s.disagreeRoom r site = s.failRoom r site := by
  rw [State.disagreeRoom, if_pos held]

/-- A held room is called for again (R91). -/
theorem evalDue_of_held {s : State} {r key : Nat} {m : RoomImg} (held : (s.room r).st = .held)
    (loaded : (s.room r).cells.loaded = true) : s.evalDue r key m = true := by
  simp [State.evalDue, held, loaded]

theorem addExpiry_new {s : State} {r n : Nat} (new : (s.room r).cells.expired.contains n = false) :
    s.addExpiry r n = s.setRoom r { s.room r with
      cells := { (s.room r).cells with expired := (s.room r).cells.expired ++ [n] } } := by
  simp only [State.addExpiry, new, Bool.false_eq_true, if_false]

theorem expiry_due {s : State} {unit n t r k : Nat} (ticks : s.ticking = true) (due : expiryOf unit n t ≤ s.tb)
    (new : (s.room r).cells.expired.contains k = false) :
    (if s.ticking && decide (expiryOf unit n t ≤ s.tb) then s.addExpiry r k else s) = s.setRoom r { s.room r with
      cells := { (s.room r).cells with expired := (s.room r).cells.expired ++ [k] } } := by
  rw [if_pos (by simp [ticks, due]), addExpiry_new new]

theorem expiry_early {s t : State} {unit n k : Nat} (early : s.tb < expiryOf unit n k) :
    (if s.ticking && decide (expiryOf unit n k ≤ s.tb) then t else s) = s := by
  rw [if_neg (by simp [early])]

/-- Settles O50: each command by its rule, on the state in which the timer events due have been taken. -/
theorem roomsEvaluateAndHold : Obligations.RoomsEvaluateAndHold := by
  unfold Obligations.RoomsEvaluateAndHold
  intro s p key part m ev okr oki
  have taken := s.takeDues_sansTimers
  have read := room_of_sansTimers taken p.val
  obtain ⟨carried, img⟩ := evaluable_some ev
  refine ⟨fun held loaded first => ⟨fun due => ?evaluation, fun start old => ?refresh⟩,
    fun held due => ⟨fun x l => ?hold, ?timeout⟩,
    fun held whole mirror building start => ?again,
    fun x _ t site runs => ⟨fun ticks due new => ?expiry, fun early => ?noExpiry⟩,
    fun u x t unit runs => ⟨fun ticks due new => ?longExpiry, fun early => ?noLongExpiry⟩⟩
  case evaluation => exact ⟨_, execEvaluation_agrees ev due, commitRoom_commits taken held loaded okr first⟩
  case refresh => exact ⟨_, execRefresh_due ev start old, commitRoom_commits taken held loaded okr first⟩
  case hold => exact (execEvaluation_disagrees ev due x l).trans (congrArg _ (disagreeRoom_holds held _))
  case timeout => exact (execEvaluationTimeout_due ev due).trans (congrArg _ (disagreeRoom_holds held _))
  case again =>
    subst whole
    have heldt := (congrArg Room.st read).trans held
    have entry := irm_of_sansTimers taken key
    have due : s.takeDues.evalDue p.val key m = true :=
      evalDue_of_held heldt ((congrArg (fun v => v.cells.loaded) read).trans start)
    have okt : Tab.ok .start s.takeDues.sea.rooms = true := (sea_of_sansTimers taken) ▸ okr
    refine ⟨⟨_, execEvaluation_agrees ev due, ?_⟩, fun x l unstaged new committed =>
      ⟨_, execEvaluation_disagrees ev due x l, ?_⟩⟩
    · have back := commitRoom_returns (m := m) heldt (part := 0) (by decide) okt (entry ▸ mirror) (entry ▸ building)
      rw [back, State.passCells, read, s.takeDues_tb]
      exact ⟨rfl, rfl, rfl⟩
    · rw [disagreeRoom_again heldt]
      have failed := failRoom_fails (site := if x < 960 then x else 0x3FF) okt ((sea_of_sansTimers taken) ▸ oki)
        ((part_of_sansTimers taken p.val).trans carried) ((keyImg_of_sansTimers taken key).trans img)
        (entry ▸ mirror) (entry ▸ building) (entry ▸ new) (read ▸ committed)
        ((staged_of_sansTimers taken).trans unstaged)
      rw [read, s.takeDues_tb] at failed
      exact ⟨failed.st, failed.failedAt, failed.frozen, failed.last⟩
  case expiry => exact (execDelayExpiry_counts ev site runs).trans (congrArg _ (expiry_due ticks due new))
  case noExpiry => exact (execDelayExpiry_counts ev site runs).trans (congrArg _ (expiry_early early))
  case longExpiry => exact (execLongDelayExpiry_counts ev unit runs).trans (congrArg _ (expiry_due ticks due new))
  case noLongExpiry => exact (execLongDelayExpiry_counts ev unit runs).trans (congrArg _ (expiry_early early))

end Sys2Proof.Machine

/-! MIRROR_BUILD, REWRITE, HOLD_ALLOWANCE, ROOM_SELF_TEST, ROOM_SELF_TEST_END, SAG_RIDE_THROUGH and SPEED_MONITOR
(R83, R93 to R97, R101). -/

namespace Sys2Proof.Machine

/-! ### A sea in which nothing waits -/

/-- Nothing is staged, no image room has failed, and none calls for a mirror. -/
def State.calm (s : State) : Prop := s.cfg.staged = none ∧ ∀ e ∈ s.sea.imap, e.2.failedAt = none ∧
  ∀ m, s.keyImg e.1 = some m → m.mirrored = false

theorem calm_of_placing {s t : State} (h : t.placing = s.placing) (calm : s.calm) : t.calm := by
  unfold State.calm
  rw [staged_of_placing h, sea_of_placing h]
  simp only [keyImg_of_placing h]
  exact calm

theorem startMirror_unmirrored {s : State} {key : Nat} (h : ∀ m, s.keyImg key = some m → m.mirrored = false) :
    s.startMirror key = s := by
  unfold State.startMirror
  dsimp only
  split
  · next m r img hr => rw [if_pos (by simp [h m img])]
  · rfl

/-- A free room finds nothing to serve in a calm sea. -/
theorem serveSea_calm {s : State} (calm : s.calm) : s.serveSea = s := by
  obtain ⟨unstaged, sound⟩ := calm
  have free : s.seaCosts = false := by simp [State.seaCosts, unstaged]
  have waiting : s.waiting = [] := by
    have none : (s.sea.imap.filter fun e => e.2.failedAt.isSome && e.2.rewrite.isNone) = [] :=
      List.filter_eq_nil_iff.2 fun e he => by simp [(sound e he).1]
    simp only [State.waiting, none, List.foldl_nil, List.map_nil]
  have mirrors (l : List Nat) (hl : ∀ k ∈ l, ∀ m, s.keyImg k = some m → m.mirrored = false) :
      l.foldl State.startMirror s = s := by
    induction l with
    | nil => rfl
    | cons k l ih =>
      rw [List.foldl_cons, startMirror_unmirrored (hl k List.mem_cons_self)]
      exact ih fun n hn => hl n (List.mem_cons_of_mem k hn)
  unfold State.serveSea
  simp only [free, Bool.false_eq_true, if_false, waiting, List.foldl_nil]
  refine mirrors _ fun k hk => ?_
  obtain ⟨e, he, rfl⟩ := List.mem_map.1 hk
  exact (sound e he).2

/-- One room of a calm sea was written, and the rooms that are free are served. -/
theorem serveSea_room {s t : State} {r : Nat} {v : Room} (calm : s.calm) (ok : Tab.ok .start s.sea.rooms = true)
    (placed : t.placing = (s.setRoom r v).placing) (q : Nat) :
    t.serveSea.room q = if q = r then v else s.room q := by
  rw [serveSea_calm (calm_of_placing placed calm), room_of_placing placed, room_setRoom ok]

/-! ### Rooms that are never used again (R96) -/

/-- The rooms that are retired stay as they are. -/
def KeepsRetired (s t : State) : Prop := Tab.ok .start s.sea.rooms = true →
  Tab.ok .start t.sea.rooms = true ∧ ∀ r, (s.room r).st = .retired → t.room r = s.room r

theorem KeepsRetired.trans {s t u : State} (h : KeepsRetired s t) (k : KeepsRetired t u) : KeepsRetired s u :=
  fun ok => by
    obtain ⟨okt, ht⟩ := h ok
    obtain ⟨oku, ku⟩ := k okt
    refine ⟨oku, fun r retired => ?_⟩
    have same := ht r retired
    exact (ku r (same ▸ retired)).trans same

theorem KeepsRetired.of_rooms {s t : State} (h : t.sea.rooms = s.sea.rooms) : KeepsRetired s t := fun ok => by
  refine ⟨h ▸ ok, fun r _ => ?_⟩
  rw [State.room, h, State.room]

theorem KeepsRetired.foldl {α : Type} {f : State → α → State} (h : ∀ a x, KeepsRetired a (f a x)) (l : List α)
    (s : State) : KeepsRetired s (l.foldl f s) := by
  induction l generalizing s with
  | nil => exact .of_rooms rfl
  | cons x l ih => exact (h s x).trans (ih _)

theorem Serves.keepsRetired {s t : State} (h : Serves s t) : KeepsRetired s t := fun ok =>
  have ⟨okt, kept⟩ := h.rooms ok
  ⟨okt, fun r retired => kept r (by rw [retired]; decide)⟩

theorem roomToTest_keepsRetired (s : State) (r : Nat) (b : Bool) : KeepsRetired s (s.roomToTest r b) := by
  unfold State.roomToTest
  dsimp only
  split
  · exact .of_rooms rfl
  · next usable =>
    refine fun ok => ⟨Tab.ok_set _ _ ok, fun q retired => ?_⟩
    rw [room_setRoom ok, if_neg]
    rintro rfl
    exact usable (by simp [retired])

theorem sea_of_sources {s t : State} (h : t.sources = s.sources) : t.sea = s.sea :=
  congrArg (·.1.2.2.2.2.2) h

theorem endStage_keepsRetired (s : State) (why : StageEnd) : KeepsRetired s (s.endStage why) := by
  unfold State.endStage
  split
  · exact .of_rooms rfl
  · refine (KeepsRetired.of_rooms (congrArg Sea.rooms (sea_of_sources (State.dropStagedResets_sources s)))).trans ?_
    generalize s.dropStagedResets = s1
    have tested : KeepsRetired s1 (s1.stagedRooms.foldl (fun a r => a.roomToTest r false) s1) :=
      .foldl (fun a r => roomToTest_keepsRetired a r false) _ s1
    dsimp only
    generalize s1.stagedRooms.foldl (fun a r => a.roomToTest r false) s1 = s2 at tested ⊢
    refine tested.trans (.of_rooms ?_)
    rw [sea_of_sources (State.record_sources ..), sea_of_sources (State.finish_sources ..)]
    rfl

theorem serveSea_keepsRetired (s : State) : KeepsRetired s s.serveSea := by
  refine KeepsRetired.trans ?_ (serveSea_serves s).keepsRetired
  split
  · exact endStage_keepsRetired s _
  · exact .of_rooms rfl

section
variable (s : State)

theorem blow_placing (w b : Nat) : (s.blow w b).placing = s.placing := by
  unfold State.blow
  split
  · rfl
  · dsimp only
    split
    · rw [placing_of_recorded (record_recorded ..)]
      split <;> rfl
    · unfold State.fuseKick
      split_ifs <;> rfl

theorem offIfRetired_placing (d : Nat) : (s.offIfRetired d).placing = s.placing := by
  unfold State.offIfRetired
  dsimp only
  split
  · rw [placing_of_recorded (record_recorded ..)]
    rfl
  · rfl

theorem retireRoom_placing (r : Nat) : (s.retireRoom r).placing =
    (s.setRoom r { s.room r with st := .retired, cells := .start }).placing := by
  unfold State.retireRoom
  rw [offIfRetired_placing, placing_of_recorded (roomRecord_recorded ..), State.retireRoomBit, blow_placing]

/-- A room that is retired is so for what the free rooms serve next. -/
theorem retireRoom_retires (ok : Tab.ok .start s.sea.rooms = true) (r : Nat) :
    ((s.retireRoom r).serveSea.room r).st = .retired := by
  have placed := retireRoom_placing s r
  have rooms := congrArg Sea.rooms (sea_of_placing placed)
  have retired : ((s.retireRoom r).room r).st = .retired := by
    rw [room_of_placing placed, room_setRoom_same ok]
  have okt : Tab.ok .start (s.retireRoom r).sea.rooms = true := by
    rw [rooms]
    exact Tab.ok_set r _ ok
  rw [(serveSea_keepsRetired _ okt).2 r retired, retired]

end

/-! ### The commands of mirrors and rewrites (R93, R94) -/

section
variable {s : State} (live : s.alive = true) {p : Fin 64} (on : s.roomOn p.val = true)
include live on

theorem execMirrorBuild_copies {key r : Nat} (carried : s.part p.val = some (key, 2))
    (new : (s.irm key).built = false) (room : (s.irm key).room = some r) (held : (s.room r).st ≠ .held) :
    exec (.mirrorBuild p) s = .next ((s.setRoom p.val { s.room p.val with cells :=
      { (s.room r).cells with due := true, lastEval := s.tb, expired := [] } }).setIrm key
      { s.irm key with built := true }) := by
  change execMirrorBuild p s = _
  have heldFalse : ((s.room r).st == RoomSt.held) = false := beq_eq_false_iff_ne.2 held
  simp only [execMirrorBuild, carried, room, new, on, live, heldFalse, Bool.not_true, Bool.or_self,
    Bool.false_eq_true, if_false]

theorem execRewrite_loads {key : Nat} {m : RoomImg} (carried : s.part p.val = some (key, 3))
    (img : s.keyImg key = some m) (new : (s.room p.val).cells.loaded = false) :
    exec (.rewrite p) s = .next (s.setRoom p.val { s.room p.val with cells := startCells m s.tb }) := by
  change execRewrite p s = _
  simp only [execRewrite, carried, img, new, on, live, Bool.not_true, Bool.or_self, Bool.false_eq_true, if_false]

/-! ### Self-tests (R96, R97) -/

theorem execRoomSelfTest_failed (idle : s.part p.val = none) (failed : (s.room p.val).st = .failed) :
    exec (.roomSelfTest p) s = .next (s.setRoom p.val { s.room p.val with st := .testing, testAt := s.tb }) := by
  change execRoomSelfTest p s = _
  simp only [execRoomSelfTest, idle, failed, on, live, Option.isSome_none, Bool.not_true, Bool.or_self,
    Bool.false_eq_true, if_false, if_true]

theorem execRoomSelfTest_free (idle : s.part p.val = none) (free : (s.room p.val).st = .free)
    (first : ∀ r, r < 64 → (s.room r).st = .testing → (s.room r).afterFail = true) :
    exec (.roomSelfTest p) s =
      .next (s.setRoom p.val { s.room p.val with st := .testing, testAt := s.tb, afterFail := false }) := by
  change execRoomSelfTest p s = _
  have alone : ((List.range 64).any fun r => (s.room r).st == .testing && !(s.room r).afterFail) = false := by
    simpa using first
  simp only [execRoomSelfTest, idle, free, on, live, alone, Option.isSome_none, Bool.not_true, Bool.not_false,
    Bool.or_self, Bool.and_self, reduceCtorEq, decide_true, Bool.false_eq_true, if_false, if_true]

variable (testing : (s.room p.val).st = .testing)
include testing

/-- R97: a routine test that finds nothing. -/
theorem execRoomSelfTestEnd_routine (routine : (s.room p.val).afterFail = false) :
    exec (.roomSelfTestEnd p .noneFound) s =
      .next (s.setRoom p.val { s.room p.val with st := .free }).serveSea := by
  change execRoomSelfTestEnd p .noneFound s = _
  simp [execRoomSelfTestEnd, testing, on, live, routine]

/-- R96: a test after a failure that finds nothing: the failure was a transient. -/
theorem execRoomSelfTestEnd_transient (failed : (s.room p.val).afterFail = true) :
    let trans := s.pwr.opsec :: within24h (s.room p.val).trans s.pwr.opsec
    let t := (s.setRoom p.val { s.room p.val with st := .free, afterFail := false, trans := trans }).roomRecord
      p.val 0 6 0x3FF
    exec (.roomSelfTestEnd p .noneFound) s = .next
      (if trans.length < 3 then t else t.retireRoom p.val).serveSea := by
  change execRoomSelfTestEnd p .noneFound s = _
  simp [execRoomSelfTestEnd, testing, on, live, failed]

theorem execRoomSelfTestEnd_repaired (n : Nat) :
    exec (.roomSelfTestEnd p (.repaired n)) s = .next (s.repairRoom p.val n).serveSea := by
  change execRoomSelfTestEnd p (.repaired n) s = _
  simp [execRoomSelfTestEnd, testing, on, live]

theorem execRoomSelfTestEnd_irreparable :
    exec (.roomSelfTestEnd p .irreparable) s = .next (s.retireRoom p.val).serveSea := by
  change execRoomSelfTestEnd p .irreparable s = _
  simp [execRoomSelfTestEnd, testing, on, live]

end

theorem repairRoom_within {s : State} {r n : Nat} (spare : n ≤ (s.room r).spares) :
    (s.repairRoom r n).placing = (s.setRoom r { s.room r with
      st := .free, afterFail := false, spares := (s.room r).spares - n }).placing := by
  rw [State.repairRoom, if_pos spare]
  exact placing_of_recorded (roomRecord_recorded ..)

theorem repairRoom_beyond {s : State} {r n : Nat} (spent : (s.room r).spares < n) :
    s.repairRoom r n = s.retireRoom r := by
  rw [State.repairRoom, if_neg (by omega)]

/-! ### Hold allowances (R95) -/

theorem endHold_sound {s : State} {key : Nat} (sound : (s.irm key).failedAt = none) : s.endHold key = s := by
  unfold State.endHold
  dsimp only
  split
  · next h => cases sound.symm.trans h
  · rfl

theorem endHold_ends {s : State} {key t : Nat} {m : RoomImg} (ok : Tab.ok .none s.sea.imap = true)
    (img : s.keyImg key = some m) (failed : (s.irm key).failedAt = some t) (holds : (s.irm key).demand = false)
    (ranOut : t + ticksMs m.hold ≤ s.tb) :
    ∃ w, s.endHold key = (s.setIrm key { s.irm key with
      demand := true, wasAt := some s.tb, was := w }).latchEdges s key := by
  obtain ⟨w, marked⟩ := markLatches_eq ok img
  refine ⟨w, ?_⟩
  unfold State.endHold
  simp only [img, failed, holds, ranOut, marked, irm_setIrm_same ok, setIrm_setIrm ok, Bool.not_false, decide_true,
    Bool.and_self, if_true]

theorem latch_of_demand {s : State} {r : Nat} {m : RoomImg} (img : s.roomImg false r = some m)
    (demand : (s.irm r).demand = true) (l : Nat) : s.latch false r l = m.latchDemand l := by
  have key : roomKey false r = r := rfl
  simp only [State.latch, State.latchAs, img, key, demand, Bool.false_and, Bool.false_eq_true, if_false, if_true]

/-- A room of the running image is named by its number. -/
theorem keyImg_running (s : State) (r : Fin 64) : s.keyImg r.val = s.roomImg false r.val := by
  rw [State.keyImg, decide_eq_false (by omega), Nat.mod_eq_of_lt r.isLt]

/-- A hold allowance that has run out puts the latches at demand, with what consumers saw noted. -/
theorem execHoldAllowance_ends {s : State} (live : s.alive = true) {r : Fin 64} {m : RoomImg} {t : Nat}
    (ok : Tab.ok .none s.sea.imap = true) (img : s.keyImg r.val = some m)
    (failed : (s.irm r.val).failedAt = some t) (holds : (s.irm r.val).demand = false)
    (ranOut : t + ticksMs m.hold ≤ s.tb) (staged : (s.irm (64 + r.val)).failedAt = none) :
    ∃ w, exec (.holdAllowance r) s = .next ((s.setIrm r.val { s.irm r.val with
      demand := true, wasAt := some s.tb, was := w }).latchEdges s r.val) := by
  obtain ⟨w, ended⟩ := endHold_ends ok img failed holds ranOut
  refine ⟨w, ?_⟩
  change execHoldAllowance r s = _
  rw [execHoldAllowance, if_pos live, ended, endHold_sound]
  rw [irm_of_sansTimers (State.latchEdges_sansTimers ..), irm_setIrm ok, if_neg (by omega), staged]

/-! ### Ride-throughs (R83) -/

theorem execSagRideThrough_ends {s : State} {p : Fin 64} {key part n t : Nat} {m : RoomImg} {x : PortImg}
    (ev : s.evaluable p.val = some (key, part, m)) (port : m.ports.find? (fun y => y.port == x.port) = some x)
    (source : x.source = .input n) (sag : (s.form n).sagAt = some t) (ranOut : t + ticksMs x.ride ≤ s.tb)
    (invalid : (s.form n).invalid = true) :
    exec (.sagRideThrough p x.port) s = .next (s.setRoom p.val { s.room p.val with
      rideEnded := Tab.set 0 (s.room p.val).rideEnded x.port (t + 1)
      cells := { (s.room p.val).cells with due := true } }) := by
  change execSagRideThrough p x.port s = _
  simp only [execSagRideThrough, ev, port, source, sag, ranOut, invalid, decide_true, Bool.and_self, if_true]

/-! ### Speed monitors (R101, R105) -/

theorem setDelay_low {v : Nat} (low : v ≤ 1500) (s : State) :
    s.setDelay .a v = { s with sea := { s.sea with delayA := v } } ∧
      s.setDelay .b v = { s with sea := { s.sea with delayB := v } } := by
  simp only [State.setDelay, Nat.not_lt.2 low, false_and, if_false, and_self]

theorem setSpeed_high {v : Nat} (high : 180 ≤ v) (s : State) :
    s.setSpeed .a v = { s with eng := { s.eng with speedA := v } } ∧
      s.setSpeed .b v = { s with eng := { s.eng with speedB := v } } := by
  simp only [State.setSpeed, Nat.not_lt.2 high, false_and, if_false, and_self]

/-- Readings within their limits are shown, and nothing is recorded. -/
theorem execSpeedMonitor_shows {s : State} {a b x y : Nat} (live : s.alive = true)
    (seaA : s.powered (seaDom .a) = true) (seaB : s.powered (seaDom .b) = true)
    (engA : s.powered (engDom .a) = true) (engB : s.powered (engDom .b) = true)
    (lowA : a ≤ 1500) (lowB : b ≤ 1500) (highA : 180 ≤ x) (highB : 180 ≤ y) :
    exec (.speedMonitor [a, b] [x, y]) s = .next { s with
      sea := { s.sea with delayA := a, delayB := b }, eng := { s.eng with speedA := x, speedB := y } } := by
  have powered (t : State) (d : Nat) (h : t.pwr = s.pwr) : t.powered d = s.powered d := by
    simp only [State.powered, State.dom, h]
  change execSpeedMonitor [a, b] [x, y] s = _
  simp [execSpeedMonitor, live, sideNat, setDelay_low lowA, setDelay_low lowB, setSpeed_high highA,
    setSpeed_high highB, powered, seaA, seaB, engA, engB]

/-- Settles O51: clause by clause, each command by its own rule. -/
theorem roomsAreRewrittenMirroredAndTested : Obligations.RoomsAreRewrittenMirroredAndTested := by
  unfold Obligations.RoomsAreRewrittenMirroredAndTested
  intro calm s live
  refine ⟨fun p on => ⟨fun key r carried new room held => ?mirror, fun key m carried img new => ?rewrite,
      fun idle => ⟨fun failed => ?failedTest, fun free first => ?routineTest⟩, fun testing ok => ?testEnd⟩,
    fun r m t img failed holds ranOut staged ok => ?holdAllowance,
    fun p key part m x n t ev port source sag ranOut invalid => ?ride,
    fun a b x y seaA seaB engA engB lowA lowB highA highB => ?speed⟩
  case mirror => exact execMirrorBuild_copies live on carried new room held
  case rewrite => exact execRewrite_loads live on carried img new
  case failedTest => exact execRoomSelfTest_failed live on idle failed
  case routineTest => exact execRoomSelfTest_free live on idle free first
  case testEnd =>
    refine ⟨execRoomSelfTestEnd_routine live on testing, fun routine still => ?freed,
      fun failed few still => ?transient, fun failed many => ?third,
      fun n => ⟨fun spent => ?beyond, fun spare still => ?within⟩, ?irreparable⟩
    case freed =>
      exact (execRoomSelfTestEnd_routine live on testing routine).trans
        (congrArg _ (serveSea_calm (s := s.setRoom p.val _) still))
    case transient =>
      refine ⟨_, execRoomSelfTestEnd_transient live on testing failed, ?_⟩
      rw [if_pos (by rw [List.length_cons]; exact Nat.succ_lt_succ few),
        serveSea_room still ok (placing_of_recorded (roomRecord_recorded ..)), if_pos rfl]
    case third =>
      refine ⟨_, execRoomSelfTestEnd_transient live on testing failed, ?_⟩
      rw [if_neg (by rw [List.length_cons]; exact Nat.not_lt.2 (Nat.succ_le_succ many))]
      refine retireRoom_retires _ ?_ p.val
      rw [sea_of_placing (placing_of_recorded (roomRecord_recorded ..))]
      exact Tab.ok_set p.val _ ok
    case beyond =>
      refine ⟨_, execRoomSelfTestEnd_repaired live on testing n, ?_⟩
      rw [repairRoom_beyond spent]
      exact retireRoom_retires s ok p.val
    case within =>
      have room := serveSea_room still ok (repairRoom_within spare)
      exact ⟨_, execRoomSelfTestEnd_repaired live on testing n, (room p.val).trans (if_pos rfl),
        fun r other => (room r).trans (if_neg other)⟩
    case irreparable =>
      exact ⟨_, execRoomSelfTestEnd_irreparable live on testing, retireRoom_retires s ok p.val,
        fun still r other => (serveSea_room still ok (retireRoom_placing s p.val) r).trans (if_neg other)⟩
  case holdAllowance =>
    obtain ⟨w, ended⟩ := execHoldAllowance_ends live ok img failed holds ranOut staged
    generalize hv : ({ s.irm r.val with demand := true, wasAt := some s.tb, was := w } : IRoom) = v at ended
    have reached := State.latchEdges_sansTimers (s.setIrm r.val v) s r.val
    generalize (s.setIrm r.val v).latchEdges s r.val = u at ended reached
    have entry : u.irm r.val = v := (irm_of_sansTimers reached r.val).trans (irm_setIrm_same ok r.val v)
    have image : u.roomImg false r.val = some m :=
      (keyImg_running u r).symm.trans ((keyImg_of_sansTimers reached r.val).trans img)
    refine ⟨u, ended, ?_, latch_of_demand image (by rw [entry, ← hv]), eq_of_sansTimers reached rfl⟩
    rw [sea_of_sansTimers reached, entry, ← hv]
  case ride => exact execSagRideThrough_ends ev port source sag ranOut invalid
  case speed => exact execSpeedMonitor_shows live seaA seaB engA engB lowA lowB highA highB

end Sys2Proof.Machine

/-! The evaluation engines: what their tables read after a write, how a request names an engine, and a use of a
check-value unit without defect (chapter 5). -/

namespace Sys2Proof.Machine

variable {s : State}

theorem engine_setEngine (ok : Tab.ok .start s.eng.engines = true) (e k : Nat) (v : Engine) :
    (s.setEngine e v).engine k = if k = e then v else s.engine k := Tab.get_set ok e k v

theorem engine_setEngine_same (ok : Tab.ok .start s.eng.engines = true) (e : Nat) (v : Engine) :
    (s.setEngine e v).engine e = v := (engine_setEngine ok e e v).trans (if_pos rfl)

theorem inst_setInst_same (ok : Tab.ok none s.eng.insts = true) (st : Bool) (i : Nat) (v : Option Inst) :
    (s.setInst st i v).inst st i = v := (Tab.get_set ok _ _ v).trans (if_pos rfl)

theorem mem_inService {e : Nat} : e ∈ s.inService ↔
    e < 8 ∧ ((s.engine e).st = .active ∨ (s.engine e).st = .spare) := by
  simp [State.inService]

/-- The body of a request that names one engine. -/
theorem numAt_engine (e : Fin 8) : numAt [BitVec.ofNat 8 e.val] 0 1 = e.val := by
  revert e
  decide

/-- A body of OP 0 names its engine and nothing else (R348). -/
theorem debugBody_attach (e : Fin 8) : debugShaped (debugBody e.val 0 0 0 0 []) = true ∧
    numAt (debugBody e.val 0 0 0 0 []) 0 1 = e.val ∧ numAt (debugBody e.val 0 0 0 0 []) 1 1 = 0 := by
  revert e
  decide

/-- An admitted request is answered as its command's own rules say. -/
theorem request_answered {s1 t : State} {h : Hdr} {k : Kind} {op status : Nat} {body : List Byte}
    {eff : State → Nat → Answer} (a : admission s h k = some (s1, op)) (rules : eff s1 op = (t, status, body)) :
    s.request h k true eff = answer t op h k.opcode status body := by rw [request_admitted a, rules]

theorem payload_fault (c : Cvu) (p : BitVec 2) (bs : List Byte) : (c.payload p bs).fault = false := by
  unfold Cvu.payload Cvu.feed Cvu.init
  rfl

theorem payload_upset (c : Cvu) (p : BitVec 2) (bs : List Byte) : (c.payload p bs).upset = c.upset := by
  unfold Cvu.payload Cvu.feed Cvu.init
  rfl

/-- A unit without defect checks a byte string, and shows no fault. -/
theorem runUnit_payload (ok : Tab.ok .fresh s.cvu = true) {u : Nat} (sound : (s.unit u).upset = 0) (bs : List Byte) :
    s.runUnit u (fun c => c.payload 3#2 bs) = s.setUnit u ((s.unit u).payload 3#2 bs) ∧
    ((s.setUnit u ((s.unit u).payload 3#2 bs)).unit u).fault = false :=
  ⟨runUnit_clean ok _ sound (payload_upset ..), by
    rw [unit_setUnit ok, if_pos rfl]
    exact payload_fault ..⟩

end Sys2Proof.Machine

/-! ENGINE_SPLIT, DRAIN_END and ENGINE_JOIN (R134, R135). -/

namespace Sys2Proof.Machine

variable {s : State}

theorem engineSplit_drains {e op : Nat} (he : e ∈ s.inService) (still : s.migrating = false)
    (fits : s.splitFits e false = true) : s.engineSplit e op =
      (((s.setEngine e { s.engine e with drainOp := op, forDebug := false }).setEngSt e
        .draining).redistribute.settle, stAccepted, []) := by
  have named : ¬8 ≤ e := Nat.not_le.2 (mem_inService.1 he).1
  rw [State.engineSplit, if_neg named, if_neg (by simp [still]), if_neg (by simp [he]), if_neg (by simp [fits])]

/-- A drain ends at a window boundary once no window and no move from the engine is left (R134). -/
theorem execDrainEnd_ends {e : Fin 8} (draining : (s.engine e.val).st = .draining) (ticks : s.ticking = true)
    (boundary : s.tb % 50000 = 0)
    (idle : ∀ x ∈ s.eng.insts, ∀ w, x.2 = some w → w.left ≠ some e.val ∧ ∀ y ∈ w.wins, y.eng ≠ e.val) :
    exec (.drainEnd e) s =
      let v := s.engine e.val
      let s1 := s.setEngine e.val { v with drainOp := 0, forDebug := false }
      .next (if v.forDebug then ((s1.setEngSt e.val .debug).finish v.drainOp stOk).settle
        else (((s1.setEngSt e.val .split).startP2 e.val).finish v.drainOp stOk).settle) := by
  refine congrArg Host.Outcome.next (if_neg fun h => ?_)
  simp only [draining, ticks, boundary, ne_eq, not_true_eq_false, decide_false, Bool.not_true, bne_self_eq_false,
    Bool.false_or, List.any_eq_true] at h
  obtain ⟨x, hx, waits⟩ := h
  cases hw : x.2 with
  | none => simp [hw] at waits
  | some w =>
    obtain ⟨left, wins⟩ := idle x hx w hw
    simp only [hw, Bool.or_eq_true, beq_iff_eq, left, false_or, List.any_eq_true] at waits
    obtain ⟨y, hy, same⟩ := waits
    exact wins y hy same

theorem engineJoin_tests {e op : Nat} (he : e < 8) (split : (s.engine e).st = .split) :
    s.engineJoin e op = (s.startTest e (.join op), stAccepted, []) := by
  rw [State.engineJoin, if_neg (Nat.not_le.2 he), if_neg (not_not.2 split)]

/-- Settles O23: each command by its own rule. -/
theorem splitAndJoin : Obligations.SplitAndJoin := by
  unfold Obligations.SplitAndJoin
  refine ⟨fun s s1 h op e admitted still he fits => ?split,
    fun s e draining ticks boundary idle => ⟨fun debug => ?debug, fun split => ?drained⟩,
    fun s s1 h op e admitted split => ?join⟩
  case split =>
    refine congrArg Host.Outcome.next (request_answered admitted ?_)
    rw [numAt_engine]
    exact engineSplit_drains he still fits
  case debug =>
    exact (execDrainEnd_ends draining ticks boundary idle).trans (congrArg Host.Outcome.next (if_pos debug))
  case drained =>
    exact (execDrainEnd_ends draining ticks boundary idle).trans
      (congrArg Host.Outcome.next (if_neg (Bool.eq_false_iff.1 split)))
  case join =>
    refine congrArg Host.Outcome.next (request_answered admitted ?_)
    rw [numAt_engine]
    exact engineJoin_tests e.isLt split

end Sys2Proof.Machine

/-! SELF_TEST_END (R117, R129, R135, R304). -/

namespace Sys2Proof.Machine

/-- An engine that has passed its self-test serves again (Table 5.5). -/
def State.spared (s : State) (e : Nat) : State := ((s.setEngSt e .spare).replace).settle

/-- The failed windows for which an engine was tested, charged in order (R117; log 45). -/
def State.chargeAll (s : State) (e : Nat) (cs : List Charge) : State := cs.foldl (fun a c => a.charge e c) s

/-- What the end of a self-test does with the engine, by its result and by why it was tested (R117, R129, R135). -/
def State.afterTest (t : State) (e : Nat) (good : Bool) : TestWhy → State
  | .window cs =>
    if !good then t.retireEngine e
    else if ((t.chargeAll e cs).engine e).trans.length < 3 ∨ cs.contains .engine = false then
      (t.chargeAll e cs).spared e
    else (t.chargeAll e cs).retireEngine e
  | .join op => if good then ((t.joinTaint e).spared e).finish op stOk else (t.retireEngine e).finish op stFault
  | .auto => if good then (t.joinTaint e).spared e else t.retireEngine e

section
variable {t : State} {e : Nat} {cs : List Charge}

theorem afterTest_serves (h : ((t.chargeAll e cs).engine e).trans.length < 3 ∨ Charge.engine ∉ cs) :
    t.afterTest e true (.window cs) = (t.chargeAll e cs).spared e := if_pos (by simpa using h)

theorem afterTest_window_bad : t.afterTest e false (.window cs) = t.retireEngine e := by simp [State.afterTest]

theorem afterTest_join (op : Nat) : t.afterTest e true (.join op) = ((t.joinTaint e).spared e).finish op stOk ∧
    t.afterTest e false (.join op) = (t.retireEngine e).finish op stFault := by simp [State.afterTest]

theorem afterTest_auto : t.afterTest e true .auto = (t.joinTaint e).spared e ∧
    t.afterTest e false .auto = t.retireEngine e := by simp [State.afterTest]

theorem afterTest_third (many : 3 ≤ ((t.chargeAll e cs).engine e).trans.length) (own : Charge.engine ∈ cs) :
    t.afterTest e true (.window cs) = (t.chargeAll e cs).retireEngine e :=
  if_neg (by simpa using ⟨many, own⟩)

end

/-- With the half powered and the check-value unit sound, the known-answer test decides (R304). -/
theorem execSelfTestEnd_judges {s : State} {e : Fin 8} {why : TestWhy} (testing : (s.engine e.val).st = .testing)
    (powered : s.powered (engDom (engSide e.val)) = true) (sound : (s.unit e.val).failed = false)
    (reason : (s.engine e.val).why = why) :
    exec (.selfTestEnd e .pass) s = .next (s.afterTest e.val true why) ∧
    exec (.selfTestEnd e .fail) s = .next (s.afterTest e.val false why) ∧
    exec (.selfTestEnd e .unit) s = .next ((s.failUnit e.val).afterTest e.val false why) := by
  have ran : ¬(decide ((s.engine e.val).st ≠ .testing) || !s.powered (engDom (engSide e.val))) = true := by
    simp [testing, powered]
  have ends (r : SelfTest) : exec (.selfTestEnd e r) s = .next ((if r = .unit then s.failUnit e.val else s).afterTest
      e.val (decide (r = .pass)) why) := by
    change execSelfTestEnd e r s = _
    unfold execSelfTestEnd
    dsimp only
    rw [if_neg ran, sound, Bool.not_false, Bool.and_true, reason]
    cases why <;> rfl
  refine ⟨?_, ?_, ?_⟩
  · simpa using ends .pass
  · simpa using ends .fail
  · simpa using ends .unit

/-- Settles O24: the verdict that the reason for the test calls for, case by case. -/
theorem engineSelfTestVerdicts : Obligations.EngineSelfTestVerdicts := by
  unfold Obligations.EngineSelfTestVerdicts
  intro s e testing powered sound ok v tr counted spare
  have ends {why : TestWhy} := execSelfTestEnd_judges (why := why) testing powered sound
  have own : (counted.engine e.val).trans = tr := by rw [engine_setEngine_same ok]
  refine ⟨fun why few => ?few, fun why many => ?third, fun q why => ?comparator, fun cs why => ?window,
    fun op why => ?join, fun why => ?auto⟩
  case few => exact (ends why).1.trans (congrArg _ (afterTest_serves (cs := [.engine]) (.inl (own ▸ few))))
  case third => exact (ends why).1.trans (congrArg _ (afterTest_third (cs := [.engine]) (own ▸ many) (by simp)))
  case comparator => exact (ends why).1.trans (congrArg _ (afterTest_serves (cs := [.cmp q]) (.inr (by simp))))
  case window =>
    obtain ⟨pass, fail, unit⟩ := ends why
    exact ⟨fun h => pass.trans (congrArg _ (afterTest_serves h)),
      fun many own => pass.trans (congrArg _ (afterTest_third many own)),
      fail.trans (congrArg _ afterTest_window_bad), unit.trans (congrArg _ afterTest_window_bad)⟩
  case join =>
    obtain ⟨pass, fail, unit⟩ := ends why
    exact ⟨pass.trans (congrArg _ (afterTest_join op).1), fail.trans (congrArg _ (afterTest_join op).2),
      unit.trans (congrArg _ (afterTest_join op).2)⟩
  case auto =>
    obtain ⟨pass, fail, unit⟩ := ends why
    exact ⟨pass.trans (congrArg _ afterTest_auto.1), fail.trans (congrArg _ afterTest_auto.2),
      unit.trans (congrArg _ afterTest_auto.2)⟩

end Sys2Proof.Machine
/-! DEBUG_ATTACH, DEBUG_DETACH and BREAKPOINT (R136, R137, R348). -/

namespace Sys2Proof.Machine

variable {s : State}

theorem debugAttach_drains {e op : Nat} (still : s.migrating = false) (free : s.eng.attached = none)
    (able : (s.engine e).st ∉ [EngSt.suspect, .testing, .retired, .off]) :
    let t := s.setEngine e
      { s.engine e with tainted := true, drainOp := op, forDebug := true, halted := false }
    let u : State := { t with eng := { t.eng with taint := true, attached := some e } }
    s.debugAttach e op =
      ((((((u.taintRecord e 0).announce).evict e).setEngSt e .draining).redistribute).settle, stAccepted, []) := by
  have able : ¬(s.eng.attached.isSome ||
      [EngSt.suspect, .testing, .retired, .off].contains (s.engine e).st) = true := by
    rw [free, Bool.eq_false_iff.2 (mt List.contains_iff_mem.1 able)]
    simp
  unfold State.debugAttach
  dsimp only
  rw [if_neg (by simp [still]), if_neg able]

theorem debugDetach_splits {e : Nat} (he : e < 8) (debug : (s.engine e).st = .debug)
    (attached : s.eng.attached = some e) :
    let a := s.setEngine e { s.engine e with halted := false, breaks := [], drainOp := 0, forDebug := false }
    let b : State := { a with eng := { a.eng with attached := none } }
    s.debugDetach e = ((((b.setEngSt e .split).taintRecord e 1).announce).settle, stOk, []) := by
  rw [State.debugDetach, if_neg (Nat.not_le.2 he), if_neg (not_not.2 debug), State.detachEngine, attached]
  dsimp only
  rw [if_pos debug]

/-- A breakpoint halts the engine, and what its memories hold is open anew (R348; log 9). -/
theorem execBreakpoint_halts {e : Fin 8} (debug : (s.engine e.val).st = .debug)
    (running : (s.engine e.val).halted = false) (breaks : (s.engine e.val).breaks ≠ [])
    (ok : Tab.ok .start s.takeDues.eng.engines = true) : ∃ t, exec (.breakpoint e) s = .next t ∧
      t = { s.takeDues with free := s.takeDues.free + 1
                            eng := { s.takeDues.eng with engines := t.eng.engines } } ∧
      t.engine e.val = { s.takeDues.engine e.val with halted := true, spaces := [], ran := s.takeDues.free + 1 } ∧
      ∀ k, k ≠ e.val → t.engine k = s.takeDues.engine k := by
  generalize hu : s.takeDues = u at ok
  have halts : exec (.breakpoint e) s =
      .next ((u.runs e.val).setEngine e.val { (u.runs e.val).engine e.val with halted := true }) := by
    rw [← hu]
    exact congrArg Host.Outcome.next (if_neg (by simp [debug, running, breaks]))
  have ran (k : Nat) : (u.runs e.val).engine k =
      if k = e.val then { u.engine e.val with spaces := [], ran := u.free + 1 } else u.engine k :=
    engine_setEngine ok ..
  have okr : Tab.ok .start (u.runs e.val).eng.engines = true := Tab.ok_set _ _ ok
  refine ⟨_, halts, rfl, ?_, fun k other => ?_⟩
  · rw [engine_setEngine_same okr, ran, if_pos rfl]
  · rw [engine_setEngine okr, if_neg other, ran, if_neg other]

/-- Settles O25: each command by its own rule. -/
theorem debuggerAttachAndDetach : Obligations.DebuggerAttachAndDetach := by
  unfold Obligations.DebuggerAttachAndDetach
  refine ⟨fun s s1 h op e admitted still free able => ?attach, fun s s1 h op e admitted debug attached => ?detach,
    fun s e debug running breaks => execBreakpoint_halts debug running breaks⟩
  case attach =>
    obtain ⟨shaped, engine, attach⟩ := debugBody_attach e
    have asked : exec (.debugAttach h (debugBody e.val 0 0 0 0 [])) s =
      .next (s.debugRequest h (debugBody e.val 0 0 0 0 [])) := rfl
    refine asked.trans (congrArg Host.Outcome.next ?_)
    unfold State.debugRequest
    rw [shaped, engine, attach]
    exact request_answered admitted (debugAttach_drains still free able)
  case detach =>
    refine congrArg Host.Outcome.next (request_answered admitted ?_)
    rw [numAt_engine]
    exact debugDetach_splits e.isLt debug attached

end Sys2Proof.Machine
/-! HOLD_DEADLINE while an image is in shadow (R127, R321): CFG_DSEEN takes the difference that the fall of the
outputs makes, so more changes than the recorder and its unit. -/

namespace Sys2Proof.Machine

/-- One instance with HOLDW, in window period 250 µs, on engine 0. -/
def heldImg : InstImg :=
  { num := 0, type := 1, auto := false, hostreset := true, word := 0x80400000, home := 0, rank := 0,
    ride := 0, binds := [], pars := [] }

/-- An image of that instance, whose output 0 commands field output 0 (FLD_OCFG 0x82000000). -/
def heldImage : Image :=
  { hdr := { signed := false, keyslot := 0, sealCode := 0, spare := 1, gen := 1, len := 132,
             nsect := 0, shadow := 10, name := [] },
    frameCfg := 0xC800, gthr := 0xC0A0, silence := 1000, engCmp := 0x01F40001,
    icfg := [], src := 0, pole := 0, sonly := 0, ocfg := [0x82000000], osrca := [], osrcb := [],
    ccfg := [], convs := [], timers := [], rooms := [], insts := [heldImg], sfuncs := [],
    axes := [], trigs := [], fabric := none, porch := none }

/-- The instance with its output 1, its hold ended by tick 0. -/
def heldInst : Inst :=
  { st := { FnSt.start heldImg with outs := 1 }, engine := some 0, status := 0, started := true, moving := false,
    restore := false, wins := [], left := none, ckBad := false, spec := none, lastHash := none, lastWin := 0,
    lastAt := 0, prevOuts := 1, hold := some 0, safe := false, ckpt := none, ckIn := .a, from_ := none, began := 0,
    resets := [] }

/-- The image runs, and is staged too: the instance and its staged twin both command the output ON. -/
def heldInShadow : State :=
  { State.reset with cfg := { Cfg.reset with image := some heldImage, staged := some heldImage }
                     eng := { Eng.reset with insts := [(0, some heldInst), (1024, some heldInst)] } }

/-- As the hold passes, the running output falls and the staged one stays: CFG_DSEEN shows output 0. -/
theorem holdDeadline_differs : ∃ t, exec (.holdDeadline false 0) heldInShadow = .next t ∧ t.cfg.dseen = 1 :=
  ⟨_, rfl, by decide +kernel⟩

/-- Refutes O29: with an image in shadow HOLD_DEADLINE changes CFG_DSEEN too (R321), beside the instances, the
recorder and its unit. -/
theorem not_failedWindowsHoldThenGoSafe : ¬ Obligations.FailedWindowsHoldThenGoSafe := by
  unfold Obligations.FailedWindowsHoldThenGoSafe
  intro h
  obtain ⟨-, hold, -⟩ := h heldInShadow false 0 heldImg heldInst rfl rfl rfl rfl rfl rfl
  obtain ⟨t, next, -, -, kept⟩ := hold 0 rfl (Nat.zero_le _)
  obtain ⟨u, differs, seen⟩ := holdDeadline_differs
  have same : t = u := Host.Outcome.next.inj (next.symm.trans differs)
  have still : t.cfg = heldInShadow.cfg := (congrArg State.cfg kept :)
  rw [← same, still] at seen
  exact absurd seen (by decide)

end Sys2Proof.Machine
/-! WINDOW_START (R107, R109, R110, R121). -/

namespace Sys2Proof.Machine

/-! ### Periods -/

theorem InstImg.ticks_eq (x : InstImg) : x.ticks = 50000 * 2 ^ x.window := by
  unfold InstImg.ticks windowTicks ticksUs
  ring

theorem InstImg.ticks_dvd {x y : InstImg} (h : x.window ≤ y.window) : x.ticks ∣ y.ticks := by
  rw [x.ticks_eq, y.ticks_eq]
  exact Nat.mul_dvd_mul_left _ (Nat.pow_dvd_pow 2 h)

/-! ### What begins -/

/-- The window that an instance begins on engine `e`: its snapshot, and pass A of the run-ahead where that had this
very snapshot (R110, R121). -/
def State.newWindow (s : State) (st : Bool) (m : Image) (im : InstImg) (v : Inst) (e : Nat) : Window :=
  { start := s.tb, snap := s.snapshot st m im v, resets := v.resets, eng := e, flags := s.flagsShown st m im
    passA := (v.spec.filter fun p => p.1 == snapHash (s.snapshot st m im v)).map Prod.snd }

/-- The engine's unit computes the hash of a snapshot (R109). -/
def State.hashed (s : State) (e : Nat) (x : Snap) : State :=
  s.setUnit e ((s.unit e).payload 3#2 (Config.snapshotBytes (snapWords x)))

/-- ENG_SPEC_HIT or ENG_SPEC_MISS counts (R121). -/
def Engine.ranAhead (g : Engine) (hit : Bool) : Engine :=
  if hit then { g with hits := (g.hits + 1) % 2 ^ 32 } else { g with misses := (g.misses + 1) % 2 ^ 32 }

theorem newWindow_hit {s : State} {st : Bool} {m : Image} {im : InstImg} {v : Inst} {p : PassA} (e : Nat)
    (h : v.spec = some (snapHash (s.snapshot st m im v), p)) : (s.newWindow st m im v e).passA = some p := by
  simp [State.newWindow, h, Option.filter]

theorem newWindow_miss {s : State} {st : Bool} {m : Image} {im : InstImg} {v : Inst} (e : Nat)
    (h : ∀ p, v.spec ≠ some (snapHash (s.snapshot st m im v), p)) : (s.newWindow st m im v e).passA = none := by
  unfold State.newWindow
  cases hv : v.spec with
  | none => rfl
  | some x =>
    have other : x.1 ≠ snapHash (s.snapshot st m im v) := fun same => h x.2 (by rw [hv, ← same])
    simp [Option.filter, other]

section
variable {s : State} {st : Bool} {i : Nat} {im : InstImg}

theorem beginWindow_off (img : s.instImg st i = some im) (off : s.tb % im.ticks ≠ 0) : s.beginWindow st i = s := by
  unfold State.beginWindow
  split
  · next m im' v _ img' _ =>
    obtain rfl : im' = im := Option.some.inj (img'.symm.trans img)
    exact if_pos (by simp [off])
  · rfl

variable {m : Image} {v : Inst} {e : Nat}

theorem startsOn_own (prio : im.prio ≠ 2) (still : v.moving = false) (on : v.engine = some e)
    (serves : e ∈ s.inService) : s.startsOn im v = some e := by
  rw [State.startsOn, if_neg prio, if_neg (Bool.eq_false_iff.1 still), on]
  exact if_pos (List.contains_iff_mem.2 serves)

theorem beginWindow_begins (image : s.img st = some m) (img : s.instImg st i = some im) (inst : s.inst st i = some v)
    (prio : im.prio ≠ 2) (still : v.moving = false) (on : v.engine = some e) (serves : e ∈ s.inService)
    (judging : s.judging = true) (ticks : s.ticking = true) (begun : 8 ≤ s.pwr.step) (due : s.tb % im.ticks = 0)
    (few : v.wins.length < 2) (new : ∀ w ∈ v.wins, w.start ≠ s.tb)
    (last : v.started = true → v.lastWin ≠ s.tb / im.ticks) (okc : Tab.ok .fresh s.cvu = true)
    (sound : (s.unit e).upset = 0) :
    let w := s.newWindow st m im v e
    s.beginWindow st i = ((s.hashed e w.snap).setEngine e ((s.engine e).ranAhead w.passA.isSome)).setInst st i
      (some { v with wins := v.wins ++ [w], resets := [], spec := none }) := by
  obtain ⟨hash, fine⟩ := runUnit_payload okc sound (Config.snapshotBytes (snapWords (s.snapshot st m im v)))
  unfold State.beginWindow
  simp only [image, img, inst, startsOn_own prio still on serves]
  rw [hash, fine]
  refine if_neg fun waits => ?_
  simp only [ticks, judging, due, Bool.not_true, bne_self_eq_false, Bool.and_false, Bool.or_false, Bool.false_or,
    Bool.or_eq_true, decide_eq_true_eq, Nat.not_lt.2 begun, Nat.not_le.2 few, false_or, or_false] at waits
  cases hw : v.wins.getLast? with
  | some w => exact new w (List.mem_of_getLast? hw) (by simpa [hw] using waits)
  | none =>
    obtain ⟨started, same⟩ : v.started = true ∧ v.lastWin = s.tb / im.ticks := by simpa [hw] using waits
    exact last started same

end

/-- The first window of step 8 ends start-up (R269). -/
theorem execWindowStart_runs {s t : State} {st : Bool} {i : Fin 1024} {v x : Inst} (begins : s.beginWindow st i.val = t)
    (before : s.inst st i.val = some v) (after : t.inst st i.val = some x) (more : x.wins.length ≠ v.wins.length) :
    exec (.windowStart st i) s = .next (if s.pwr.step = 8 then t.endStart else t) := by
  change execWindowStart st i s = _
  unfold execWindowStart
  simp only [begins, before, after, Option.map_some, Option.getD_some, ne_eq, more, not_false_eq_true, and_true]

/-- Settles O27: the periods, the boundary, and the one window that begins there. -/
theorem windowsStartOnTheBoundary : Obligations.WindowsStartOnTheBoundary := by
  unfold Obligations.WindowsStartOnTheBoundary
  refine ⟨InstImg.ticks_eq, fun x y n h due => ?longer, fun s st i im img off => ?off, ?begins⟩
  case longer => exact Nat.mod_eq_zero_of_dvd ((InstImg.ticks_dvd h).trans (Nat.dvd_of_mod_eq_zero due))
  case off =>
    refine congrArg Host.Outcome.next ?_
    dsimp only
    rw [beginWindow_off img off]
    simp
  case begins =>
    intro s i m im v e image img inst prio still on serves judging ticks begun due few new last oki oke okc sound
    have begins := beginWindow_begins image img inst prio still on serves judging ticks begun due few new last okc sound
    generalize hw : s.newWindow false m im v e = w at begins
    have snap : w.snap = s.snapshot false m im v := hw ▸ rfl
    have here := inst_setInst_same (s := (s.hashed e w.snap).setEngine e ((s.engine e).ranAhead w.passA.isSome))
      oki false i.val (some { v with wins := v.wins ++ [w], resets := [], spec := none })
    have counts : ((s.hashed e w.snap).setEngine e ((s.engine e).ranAhead w.passA.isSome)).engine e =
        (s.engine e).ranAhead w.passA.isSome := engine_setEngine_same oke e _
    refine ⟨_, w, execWindowStart_runs begins inst here (by simp), hw ▸ rfl, hw ▸ due, hw ▸ rfl, snap, hw ▸ rfl, here,
      fun p hit => ?_, fun miss => ?_, fun j other => ?_, rfl⟩
    · have kept : w.passA = some p := hw ▸ newWindow_hit e (snap ▸ hit)
      exact ⟨kept, counts.trans (by rw [kept]; rfl)⟩
    · have kept : w.passA = none := hw ▸ newWindow_miss e (snap ▸ miss)
      exact ⟨kept, counts.trans (by rw [kept]; rfl)⟩
    · exact (Tab.get_set oki _ _ _).trans (if_neg other)

end Sys2Proof.Machine
/-! The signatures of a window (R112 to R114): coded native values decode to themselves, and a signature is a word. -/

namespace Sys2Proof.Machine

/-! ### The AN code -/

/-- The code of a native value has no residue and decodes to it (R112). -/
theorem anDecode_anEncode (v : Word) : anDecode (anEncode v) = some v := by
  have low : -2147483648 ≤ v.toInt := by simpa using BitVec.le_toInt v
  have high : v.toInt < 2147483648 := by simpa using BitVec.toInt_lt (x := v)
  have coded : (anEncode v).toInt = v.toInt * anMod := by
    rw [anEncode, BitVec.toInt_ofInt, anMod]
    exact Int.bmod_eq_of_le (by omega) (by omega)
  rw [anDecode, anResidue, coded, if_pos (Int.mul_emod_left ..), Int.mul_ediv_cancel _ (by decide), BitVec.ofInt_toInt]

/-- Pass B that writes pass A's values as they are writes what pass A wrote. -/
theorem decodeWrites_native (snap : List Coded) (ws : List (Word × Word)) :
    decodeWrites snap (ws.map fun e => (e.1, .native e.2)) = some ws := by
  induction ws with
  | nil => rfl
  | cons e ws ih => simp [decodeWrites, evalB, anDecode_anEncode, ih]

/-! ### Signatures -/

theorem bitRev_lt (w r : Nat) : bitRev w r < 2 ^ w := by
  have step (l : List Nat) (inside : ∀ i ∈ l, i < w) (acc : Nat) (low : acc < 2 ^ w) :
      l.foldl (fun acc i => if r.testBit i then acc ||| 1 <<< (w - 1 - i) else acc) acc < 2 ^ w := by
    induction l generalizing acc with
    | nil => exact low
    | cons i l ih =>
      refine ih (fun j hj => inside j (List.mem_cons_of_mem _ hj)) _ ?_
      have hi : i < w := inside i List.mem_cons_self
      have bit : 1 <<< (w - 1 - i) < 2 ^ w := by
        rw [Nat.one_shiftLeft]
        exact Nat.pow_lt_pow_right (by decide) (by omega)
      dsimp only
      split
      · exact Nat.or_lt_two_pow low bit
      · exact low
  exact step _ (fun i hi => List.mem_range.1 hi) 0 (by positivity)

/-- A signature fits the delay register (R114, R115). -/
theorem signature_lt (i n : Nat) (ws : List (Word × Word)) : signature i n ws < 2 ^ 32 :=
  Nat.xor_lt_two_pow (bitRev_lt 32 _) (by decide)

theorem rail_of (i n : Nat) (ws : List (Word × Word)) : (PassA.of i n ws).rail.toNat = signature i n ws :=
  (BitVec.toNat_ofNat ..).trans (Nat.mod_eq_of_lt (signature_lt i n ws))

end Sys2Proof.Machine

/-! Urgent requests in their order (R173). -/

namespace Sys2Proof.Machine

/-- A list in which what satisfies `p` comes first falls into that and the rest. -/
theorem eq_filter_append_filter_not {α : Type} {p : α → Bool} {l : List α} (h : l.Pairwise fun x y => p y → p x) :
    l = l.filter p ++ l.filter fun x => !p x := by
  induction l with
  | nil => rfl
  | cons x l ih =>
    obtain ⟨first, rest⟩ := List.pairwise_cons.1 h
    cases hx : p x with
    | true => rw [List.filter_cons_of_pos hx, List.filter_cons_of_neg (by simp [hx]), List.cons_append, ← ih rest]
    | false =>
      have behind (y : α) (hy : y ∈ l) : p y = false :=
        Bool.eq_false_iff.2 fun h => Bool.eq_false_iff.1 hx (first y hy h)
      rw [List.filter_eq_nil_iff.2 (by simpa [hx] using behind), List.nil_append,
        List.filter_eq_self.2 (by simpa [hx] using behind)]

/-- A request that goes ahead of those that engine `e` issues at `now`. -/
def UrgAsk.ahead (now e : Nat) (x : UrgAsk) : Bool := decide (x.tick < now) || decide (x.eng ≤ e)

theorem askUrgent_in_order {t : State} (m : Image) (e : Nat) (ask : List (Fin 32))
    (order : t.lgc.urg.Pairwise fun x y => x.tick < y.tick ∨ (x.tick = y.tick ∧ x.eng ≤ y.eng))
    (past : ∀ x ∈ t.lgc.urg, x.tick ≤ t.tb) : ∃ before after, t.lgc.urg = before ++ after ∧
      (∀ x ∈ before, x.tick < t.tb ∨ x.eng ≤ e) ∧ (∀ x ∈ after, x.tick = t.tb ∧ e < x.eng) ∧
      t.askUrgent false m e ask = { t with lgc := { t.lgc with urg := before ++
        ((ask.filter fun c => m.chanOwner c.val == some e).map fun c =>
          ({ tick := t.tb, eng := e, conv := c.val / 8, ch := c.val % 8 } : UrgAsk)) ++ after } } := by
  have first : t.lgc.urg.Pairwise fun x y => y.ahead t.tb e → x.ahead t.tb e := by
    refine order.imp_of_mem fun {x y} _ hy h ahead => ?_
    have := past y hy
    simp only [UrgAsk.ahead, Bool.or_eq_true, decide_eq_true_eq] at ahead ⊢
    omega
  refine ⟨_, _, eq_filter_append_filter_not first, fun x hx => ?_, fun x hx => ?_, rfl⟩
  · simpa [UrgAsk.ahead] using (List.mem_filter.1 hx).2
  · obtain ⟨mem, behind⟩ := List.mem_filter.1 hx
    have := past x mem
    simp only [UrgAsk.ahead, Bool.not_or, Bool.and_eq_true, Bool.not_eq_true', decide_eq_false_iff_not] at behind
    omega

end Sys2Proof.Machine
/-! What a commit publishes (R111, R120, R124 to R126): the instance as it stands after the window, and its masks. -/

namespace Sys2Proof.Machine

/-! ### What leaves the instances and the masks -/

/-- From `s` to `t` no instance changed, and no mask but by the mark of a firing. -/
structure KeepsMasks (s t : State) : Prop where
  insts : t.eng.insts = s.eng.insts
  ok    : Tab.ok .zero s.eng.masks = true → Tab.ok .zero t.eng.masks = true
  mask  : Tab.ok .zero s.eng.masks = true → ∀ st k, (t.mask st k).mask = (s.mask st k).mask

section
variable {s t u : State}

theorem KeepsMasks.of_eng (h : t.eng = s.eng) : KeepsMasks s t :=
  ⟨by rw [h], fun ok => by rwa [h], fun _ st k => by rw [State.mask, h, State.mask]⟩

theorem KeepsMasks.trans (h : KeepsMasks s t) (k : KeepsMasks t u) : KeepsMasks s u :=
  ⟨k.insts.trans h.insts, fun ok => k.ok (h.ok ok), fun ok st n => (k.mask (h.ok ok) st n).trans (h.mask ok st n)⟩

theorem KeepsMasks.foldl {α : Type} {f : State → α → State} (h : ∀ a x, KeepsMasks a (f a x)) (l : List α) (s : State) :
    KeepsMasks s (l.foldl f s) := by
  induction l generalizing s with
  | nil => exact .of_eng rfl
  | cons x l ih => exact (h s x).trans (ih _)

theorem KeepsMasks.of_recorded (h : Recorded s t) : KeepsMasks s t := .of_eng (by
  unfold Recorded at h
  rw [h])

theorem KeepsMasks.inst (h : KeepsMasks s t) (st : Bool) (i : Nat) : t.inst st i = s.inst st i := by
  rw [State.inst, h.insts, State.inst]

theorem eng_of_recorded (h : Recorded s t) : t.eng = s.eng := by
  unfold Recorded at h
  rw [h]

theorem eng_of_sansTimers (h : t.sansTimers = s.sansTimers) : t.eng = s.eng := congrArg (fun u => u.eng) h

end

theorem latchTrips_eng (s : State) (t : Nat) (m : Long) : (s.latchTrips t m).eng = s.eng := by
  unfold State.latchTrips
  dsimp only
  split
  · rfl
  · exact (eng_of_recorded (record_recorded ..)).trans rfl

theorem fire_eng (s : State) (t : Nat) : (s.fire t).eng = { s.eng with
    masks := Tab.set .zero s.eng.masks (trigKey false t) { s.mask false t with fired := some s.tb } } := by
  have captured := State.captureFrom_sansTimers s 3 (fun a => a % 32 == t) (fun _ => true) fun _ => true
  unfold State.fire
  dsimp only
  rw [latchTrips_eng]
  dsimp only [State.mask]
  rw [eng_of_sansTimers captured, tb_of_sansTimers captured]

/-- A firing marks its mask, and changes none. -/
theorem fire_keepsMasks (s : State) (t : Nat) : KeepsMasks s (s.fire t) := by
  have eng := fire_eng s t
  refine ⟨by rw [eng], fun ok => ?_, fun ok st k => ?_⟩
  · rw [eng]
    exact Tab.ok_set _ _ ok
  · rw [State.mask, eng]
    dsimp only
    rw [Tab.get_set ok]
    split
    · next same => rw [State.mask, State.mask, same]
    · rfl

theorem releaseTrips_keepsMasks (s : State) (m : Image) (i : InstImg) (f : FnSt) :
    KeepsMasks s (s.releaseTrips m i f) := by
  unfold State.releaseTrips
  split
  · exact .of_eng rfl
  · dsimp only
    refine KeepsMasks.trans ?_ (.foldl (fun a t => ?_) _ _)
    · exact .of_eng rfl
    · split
      · split
        · exact fire_keepsMasks a t
        · exact .of_eng rfl
      · exact .of_eng rfl

theorem noteRecords_recorded (s : State) (st : Bool) (i : InstImg) (f : FnSt) : Recorded s (s.noteRecords st i f) := by
  refine Recorded.foldl (fun a n => ?_) _ s
  cases n <;> exact record_recorded ..

theorem logicRecord_recorded (s : State) (st : Bool) (i : InstImg) (old new : FnSt) :
    Recorded s (s.logicRecord st i old new) := by
  unfold State.logicRecord
  exact .ite (.refl s) (record_recorded ..)

theorem finish_eng (s : State) (op status : Nat) (body : List Byte) : (s.finish op status body).eng = s.eng := by
  rw [finish_eq]

theorem endResets_eng (s : State) (w : Window) (took : Bool) : (s.endResets w took).eng = s.eng :=
  foldl_view State.eng (fun _ _ => finish_eng ..) _ s

theorem seeDiffer_eng (s : State) : s.seeDiffer.eng = s.eng := by
  unfold State.seeDiffer
  split <;> rfl

theorem checkFree_eng (s : State) (u : Nat) : (s.checkFree u).eng = s.eng :=
  (eng_of_recorded (runUnit_recorded ..) :)

/-! ### The masks of a commit (R124, R125) -/

/-- The mask of one trigger becomes `w`; one that has fired in this tick latches what is new. -/
def State.publishOne (st : Bool) (w : Long) (s : State) (t : Nat) : State :=
  let o := s.mask st t
  let masks := Tab.set .zero s.eng.masks (trigKey st t)
    { o with mask := w, prev := if o.tick = s.tb then o.prev ||| o.mask else o.mask, tick := s.tb }
  let s1 := { s with eng := { s.eng with masks := masks } }
  if !st && o.fired == some s.tb && (w &&& ~~~o.mask) != 0 then s1.latchTrips t (w &&& ~~~o.mask) else s1

theorem trigKey_inj {st : Bool} {j k : Nat} : trigKey st j = trigKey st k ↔ j = k := by
  cases st <;> simp [trigKey]

section
variable {s : State} {st : Bool} {w : Long}

theorem publishOne_eng (t : Nat) : ∃ v, v.mask = w ∧ (s.publishOne st w t).eng =
    { s.eng with masks := Tab.set .zero s.eng.masks (trigKey st t) v } := by
  refine ⟨{ s.mask st t with
    mask := w, tick := s.tb
    prev := if (s.mask st t).tick = s.tb then (s.mask st t).prev ||| (s.mask st t).mask
      else (s.mask st t).mask }, rfl, ?_⟩
  unfold State.publishOne
  dsimp only
  split
  · exact latchTrips_eng ..
  · rfl

theorem publish_masks (l : List Nat) (ok : Tab.ok .zero s.eng.masks = true) :
    (l.foldl (State.publishOne st w) s).eng.insts = s.eng.insts ∧
    Tab.ok .zero (l.foldl (State.publishOne st w) s).eng.masks = true ∧
    ∀ k, ((l.foldl (State.publishOne st w) s).mask st k).mask = if k ∈ l then w else (s.mask st k).mask := by
  induction l generalizing s with
  | nil => exact ⟨rfl, ok, fun k => by simp⟩
  | cons t l ih =>
    obtain ⟨v, named, one⟩ := publishOne_eng (s := s) (st := st) (w := w) t
    have okt : Tab.ok .zero (s.publishOne st w t).eng.masks = true := by
      rw [one]
      exact Tab.ok_set _ _ ok
    have mask (k : Nat) : ((s.publishOne st w t).mask st k).mask = if k = t then w else (s.mask st k).mask := by
      rw [State.mask, one, Tab.get_set ok, apply_ite Mask.mask, named]
      simp only [trigKey_inj, State.mask]
    obtain ⟨insts, okl, masks⟩ := ih okt
    refine ⟨insts.trans (by rw [one]), okl, fun k => (masks k).trans ?_⟩
    rw [mask]
    by_cases hl : k ∈ l
    · rw [if_pos hl, if_pos (List.mem_cons_of_mem t hl)]
    · simp only [List.mem_cons, hl, or_false, if_false]

end

end Sys2Proof.Machine
/-! The commit of a window (R111, R120). -/

namespace Sys2Proof.Machine

/-- A sound pass A has staged what the rules give. -/
theorem staged_sound (f : FnSt) (p : PassA) : staged f p .none = f := if_neg (by decide)

/-- The instance as a commit leaves it, on a state whose unit has checked the record: `saved` where the other half's
checkpoint memory serves, `bad` where the unit shows a fault. -/
def Inst.afterCommit (v : Inst) (now : Nat) (im : InstImg) (w : Window) (f : FnSt) (saved bad : Bool) : Inst :=
  { v with st := f, wins := v.wins.drop 1, status := 0, started := true, lastHash := some (snapHash w.snap)
           lastWin := w.start / im.ticks, lastAt := now, prevOuts := if v.safe then 0 else v.st.outs, hold := none
           safe := false, ckpt := if saved then some (f, w.start / im.ticks) else none
           ckIn := otherSide (engSide w.eng), ckBad := saved && bad
           from_ := if v.engine = some w.eng then none else v.from_
           left := if v.left = some w.eng then v.left else none }

/-- The record of a commit is made where a checkpoint memory serves, and the instance takes its new state. -/
def State.putCommit (s : State) (st : Bool) (im : InstImg) (v : Inst) (w : Window) (f : FnSt) : State :=
  let saved := s.ckmFor w.eng && im.prio != 2
  let s0 := if saved then s.checkFree w.eng else s
  s0.setInst st im.num (some (v.afterCommit s.tb im w f saved (s0.unit w.eng).fault))

/-- The flags that the snapshot showed to their owner are cleared (R195). -/
def State.clearShown (s : State) (flags : List Nat) : State :=
  flags.foldl (fun acc k => acc.clearFlags { num := k, wrap := false, qerr := true, excess := true }) s

theorem clearShown_eng (s : State) (flags : List Nat) : (s.clearShown flags).eng = s.eng :=
  foldl_view State.eng (f := fun acc k => acc.clearFlags { num := k, wrap := false, qerr := true, excess := true })
    (fun _ _ => rfl) flags s

/-- What a commit does once its masks are published. -/
def State.closeCommit (s : State) (st : Bool) (m : Image) (im : InstImg) (old : FnSt) (w : Window) (f : FnSt) : State :=
  let s1 := if st then s else s.releaseTrips m im f
  ((((s1.logicRecord st im old f).noteRecords st im f).endResets w f.took).seeDiffer)

theorem commitWindow_eq (s : State) (st : Bool) (m : Image) (im : InstImg) (v : Inst) (w : Window) (p : PassA)
    (fault : PassFault) : s.commitWindow st m im v w p fault =
      let f := staged (fnStep im (im.axisOf m) w.snap v.st) p fault
      ((m.owned im.num).foldl (State.publishOne st (maskFor m im f))
        ((s.putCommit st im v w f).clearShown w.flags)).closeCommit st m im v.st w f := rfl

theorem closeCommit_keepsMasks (s : State) (st : Bool) (m : Image) (im : InstImg) (old : FnSt) (w : Window) (f : FnSt) :
    KeepsMasks s (s.closeCommit st m im old w f) := by
  have released : KeepsMasks s (if st then s else s.releaseTrips m im f) := by
    split
    · exact .of_eng rfl
    · exact releaseTrips_keepsMasks ..
  have recorded := (logicRecord_recorded (if st then s else s.releaseTrips m im f) st im old f).trans
    (noteRecords_recorded _ st im f)
  exact (released.trans (.of_recorded recorded)).trans (.of_eng ((seeDiffer_eng _).trans (endResets_eng ..)))

theorem putCommit_eng (s : State) (st : Bool) (im : InstImg) (v : Inst) (w : Window) (f : FnSt) : ∃ bad,
    (s.putCommit st im v w f).eng = { s.eng with
      insts := Tab.set none s.eng.insts (instKey st im.num)
        (some (v.afterCommit s.tb im w f (s.ckmFor w.eng && im.prio != 2) bad)) } := by
  have checked : (if s.ckmFor w.eng && im.prio != 2 then s.checkFree w.eng else s).eng = s.eng := by
    split
    · exact checkFree_eng ..
    · rfl
  refine ⟨((if s.ckmFor w.eng && im.prio != 2 then s.checkFree w.eng else s).unit w.eng).fault, ?_⟩
  unfold State.putCommit State.setInst
  dsimp only
  rw [checked]

theorem commitWindow_commits {t : State} (st : Bool) (m : Image) (im : InstImg) (v : Inst) (w : Window) (p : PassA)
    (oki : Tab.ok none t.eng.insts = true) (okm : Tab.ok .zero t.eng.masks = true) : ∃ bad,
    let f := fnStep im (im.axisOf m) w.snap v.st
    let u := t.commitWindow st m im v w p .none
    u.inst st im.num = some (v.afterCommit t.tb im w f (t.ckmFor w.eng && im.prio != 2) bad) ∧
    ∀ k ∈ m.owned im.num, (u.mask st k).mask = maskFor m im f := by
  rw [commitWindow_eq, staged_sound]
  generalize fnStep im (im.axisOf m) w.snap v.st = f
  obtain ⟨bad, put⟩ := putCommit_eng t st im v w f
  have cleared := clearShown_eng (t.putCommit st im v w f) w.flags
  dsimp only
  generalize (t.putCommit st im v w f).clearShown w.flags = a at cleared ⊢
  have ok : Tab.ok .zero a.eng.masks = true := by rwa [cleared, put]
  obtain ⟨insts, okp, masks⟩ := publish_masks (s := a) (st := st) (w := maskFor m im f) (m.owned im.num) ok
  have closed := closeCommit_keepsMasks ((m.owned im.num).foldl (State.publishOne st (maskFor m im f)) a)
    st m im v.st w f
  refine ⟨bad, ?_, fun k hk => ?_⟩
  · rw [closed.inst, State.inst, insts, cleared, put]
    exact (Tab.get_set oki ..).trans (if_pos rfl)
  · rw [closed.mask okp, masks, if_pos hk]

end Sys2Proof.Machine
/-! The judgement of a signature pair (R116 to R119): the comparators, the skew test and the verdict. -/

namespace Sys2Proof.Machine

/-! ### A comparator that retires -/

theorem judging_of_cmpOk {s : State} {q : Side} (h : s.cmpOk q = true) : s.judging = true := by
  cases q <;> simp [State.judging, h]

/-- With one comparator left that judges, no instance is touched (R118, R119). -/
theorem retireCmp_other {s : State} {q : Side} (own : s.cmpOk q = true) (other : s.cmpOk (otherSide q) = true) :
    (s.retireCmp q).judging = true ∧ (s.retireCmp q).eng.insts = s.eng.insts := by
  have serves : s.cmp q ≠ .retired := by
    rw [of_decide_eq_true own]
    decide
  have fuses : LinkJudged .a (s.setCmp q .retired)
      (((s.setCmp q .retired).retireBit (8 + sideNat q)).record 0x0703 2 [BitVec.ofNat 8 (sideNat q), 2#8]) :=
    (retireBit_judged ..).trans (record_judged ..)
  have eng := fuses.congr State.eng fun _ _ _ _ _ => rfl
  unfold State.retireCmp
  rw [if_neg serves]
  generalize State.record _ _ _ _ = t at eng ⊢
  have kept : t.cmp (otherSide q) = s.cmp (otherSide q) := by
    cases q <;> simp only [State.cmp, otherSide, eng] <;> rfl
  have judging : t.judging = true := judging_of_cmpOk (q := otherSide q) (by rwa [State.cmpOk, kept])
  rw [State.noJudge, if_pos judging]
  refine ⟨judging, ?_⟩
  rw [eng]
  cases q <;> rfl

/-! ### The skew test (R118) -/

/-- The next comparison of engine `e` is the N-th one. -/
def State.skewDue (s : State) (e : Nat) : Bool :=
  decide (((s.engine e).judged + 1) % max (match s.img false with
    | some m => bf m.engCmp 24 16
    | none => 64) 1 = 0)

/-- One more comparison of engine `e`, with a skew test where one is due. -/
def State.counted (s : State) (e : Nat) : State :=
  s.setEngine e { s.engine e with judged := (s.engine e).judged + 1, skews := (s.engine e).skews + b2n (s.skewDue e) }

/-- ENG_CMPCNT counts a skew test. -/
def State.skewed (s : State) : State := { s with eng := { s.eng with skews := (s.eng.skews + 1) % 65536 } }

/-- A comparison without a false answer: it is counted, and a skew test with it where one is due. -/
def State.compared (s : State) (e : Nat) : State := if s.skewDue e then (s.counted e).skewed else s.counted e

theorem compared_judging (s : State) (e : Nat) : (s.compared e).judging = s.judging := by
  unfold State.compared
  split <;> rfl

theorem compared_cmpOk (s : State) (e : Nat) (q : Side) : (s.compared e).cmpOk q = s.cmpOk q := by
  unfold State.compared
  split <;> cases q <;> rfl

theorem compared_insts (s : State) (e : Nat) : (s.compared e).eng.insts = s.eng.insts := by
  unfold State.compared
  split <;> rfl

/-- A skew test that comparator `q` answers with MATCH: it is recorded, and retired (R118). -/
def State.skewRetires (s : State) (e : Nat) (q : Side) : State :=
  (((s.counted e).record 0x0703 2 [BitVec.ofNat 8 (sideNat q), 0#8]).retireCmp q).skewed

theorem skewRetires_other {s : State} {q : Side} (e : Nat) (own : s.cmpOk q = true)
    (other : s.cmpOk (otherSide q) = true) :
    (s.skewRetires e q).judging = true ∧ (s.skewRetires e q).eng.insts = s.eng.insts := by
  have eng := eng_of_recorded (record_recorded (s.counted e) 0x0703 2 [BitVec.ofNat 8 (sideNat q), 0#8] false none)
  have cmp (k : Side) : ((s.counted e).record 0x0703 2 [BitVec.ofNat 8 (sideNat q), 0#8]).cmp k = s.cmp k := by
    cases k <;> simp only [State.cmp, eng] <;> rfl
  obtain ⟨judging, insts⟩ := retireCmp_other (q := q)
    (s := (s.counted e).record 0x0703 2 [BitVec.ofNat 8 (sideNat q), 0#8])
    (by rwa [State.cmpOk, cmp]) (by rwa [State.cmpOk, cmp])
  exact ⟨judging, insts.trans (by rw [eng]; rfl)⟩

/-- The comparison is counted; at the N-th one both comparators are shown the pair with a bit inverted. -/
def State.skewChecked (s : State) (e sa sb : Nat) (valid : Bool) (ca cb : CmpStuck) : State :=
  if s.skewDue e then
    let same := valid && sa == (sb ^^^ 2 ^ ((s.engine e).skews % 32))
    (((s.counted e).skewTest .a ca same).skewTest .b cb same).skewed
  else s.counted e

/-- What the answers of the comparators come to (R116, R117, R119). -/
def State.tally (s : State) (ma mb valid : Bool) : Judged :=
  let a := s.cmpOk .a
  let b := s.cmpOk .b
  if a && b then
    if ma && mb then { s := s, commit := valid, charge := .engine, split := false }
    else if ma || mb then { s := s, commit := false, charge := .cmp (if ma then .b else .a), split := true }
    else { s := s, commit := false, charge := .engine, split := false }
  else { s := s, commit := valid && ((a && ma) || (b && mb)), charge := .engine, split := false }

theorem judgePair_eq (s : State) (e sa sb : Nat) (valid : Bool) (ca cb : CmpStuck) :
    s.judgePair e sa sb valid ca cb = (s.skewChecked e sa sb valid ca cb).tally
      (cmpAnswer ca (valid && sa == sb)) (cmpAnswer cb (valid && sa == sb)) valid := rfl

section
variable {s : State}

theorem skewTest_mismatch {q : Side} {c : CmpStuck} {same : Bool} (h : cmpAnswer c same = false) :
    s.skewTest q c same = s := if_neg (by simp [h])

theorem skewTest_match {q : Side} {c : CmpStuck} {same : Bool} (on : s.cmpOk q = true) (h : cmpAnswer c same = true) :
    s.skewTest q c same = (s.record 0x0703 2 [BitVec.ofNat 8 (sideNat q), 0#8]).retireCmp q := if_pos (by simp [on, h])

theorem skewChecked_sound {e sa sb : Nat} {valid : Bool} {ca cb : CmpStuck}
    (a : s.skewDue e = true → cmpAnswer ca (valid && sa == (sb ^^^ 2 ^ ((s.engine e).skews % 32))) = false)
    (b : s.skewDue e = true → cmpAnswer cb (valid && sa == (sb ^^^ 2 ^ ((s.engine e).skews % 32))) = false) :
    s.skewChecked e sa sb valid ca cb = s.compared e := by
  unfold State.skewChecked State.compared
  split
  · next due =>
    dsimp only
    rw [skewTest_mismatch (a due), skewTest_mismatch (b due)]
  · rfl

/-- An inverted bit makes a pair differ. -/
theorem beq_xor_pow (n k : Nat) : (n == n ^^^ 2 ^ k) = false := by
  rw [beq_eq_false_iff_ne]
  intro h
  have := congrArg (Nat.testBit · k) h
  simp at this

/-! ### The verdict -/

theorem tally_agreed (judging : s.judging = true) :
    s.tally true true true = { s := s, commit := true, charge := .engine, split := false } := by
  unfold State.judging at judging
  unfold State.tally
  cases ha : s.cmpOk .a <;> cases hb : s.cmpOk .b <;> simp_all

theorem tally_differ (valid : Bool) :
    s.tally false false valid = { s := s, commit := false, charge := .engine, split := false } := by
  unfold State.tally
  dsimp only
  split <;> simp

theorem tally_split (a : s.cmpOk .a = true) (b : s.cmpOk .b = true) (valid : Bool) :
    s.tally false true valid = { s := s, commit := false, charge := .cmp .a, split := true } ∧
    s.tally true false valid = { s := s, commit := false, charge := .cmp .b, split := true } := by
  simp [State.tally, a, b]

end

end Sys2Proof.Machine
/-! COMMIT (R109, R113 to R119). -/

namespace Sys2Proof.Machine

/-- Window `w` of an instance is the oldest in progress, and may commit by now (R108). -/
structure CommitDue (s : State) (st : Bool) (i : Fin 1024) (m : Image) (im : InstImg) (v : Inst)
    (w : Window) : Prop where
  image  : s.img st = some m
  img    : s.instImg st i.val = some im
  inst   : s.inst st i.val = some v
  oldest : v.wins.head? = some w
  live   : s.alive = true
  inTime : s.tb ≤ w.start + im.ticks + 10000

/-- Pass A of the window waits on both rails of the delay register, each bit on one of them (R115). -/
structure PassReady (i : Fin 1024) (im : InstImg) (w : Window) (wA : List (Word × Word)) (p : PassA) : Prop where
  given  : w.passA.getD (PassA.of i.val (w.start / im.ticks) wA) = p
  valid  : p.rail' = ~~~p.rail
  faulty : p.faulty = false

/-- The unit of engine `e` has no defect. -/
structure UnitSound (s : State) (e : Nat) : Prop where
  table : Tab.ok .fresh s.cvu = true
  upset : (s.unit e).upset = 0
  fault : (s.unit e).fault = false

/-- The unit of engine `e` has computed a signature. -/
def State.signedBy (s : State) (e : Nat) (bytes : List Byte) : State := s.setUnit e ((s.unit e).payload 3#2 bytes)

theorem passUnit_sound {s : State} {e : Nat} (h : UnitSound s e) (bytes : List Byte) :
    s.passUnit e bytes = (s.signedBy e bytes, false) := by
  obtain ⟨run, fine⟩ := runUnit_payload h.table h.upset bytes
  rw [State.passUnit, if_neg (Bool.eq_false_iff.1 h.fault), run]
  dsimp only
  rw [fine]
  rfl

/-- What a commit ends with: the urgent requests of the pass, and the engines settle (R173). -/
def State.commits (s : State) (st : Bool) (m : Image) (im : InstImg) (v : Inst) (w : Window) (p : PassA)
    (ask : List (Fin 32)) : State :=
  ((s.commitWindow st m im v w p .none).askUrgent st m w.eng ask).settle

/-- What a judgement does with the window; `code`: a residue is not 0 (R113). -/
def Judged.ends (j : Judged) (st : Bool) (i : Fin 1024) (m : Image) (im : InstImg) (w : Window) (p : PassA)
    (ask : List (Fin 32)) (code : Bool) : State :=
  if j.commit then
    match j.s.inst st i.val with
    | some v1 => j.s.commits st m im v1 w p ask
    | none => j.s
  else if !j.s.judging then j.s
  else j.s.failWindow st im w (if code then 1 else if j.split then 4 else 0) (if code then .engine else j.charge)

/-! ### Pairs that agree and pairs that differ -/

section
variable {s : State} {e sa sb : Nat} {ca cb : CmpStuck}

/-- Sound comparators let a pair that agrees pass, skew test or not. -/
theorem judgePair_agreed (judging : s.judging = true) (same : sa = sb) : s.judgePair e sa sb true .ok .ok =
    { s := s.compared e, commit := true, charge := .engine, split := false } := by
  subst same
  rw [judgePair_eq, skewChecked_sound (fun _ => beq_xor_pow ..) fun _ => beq_xor_pow ..]
  simpa [cmpAnswer] using tally_agreed ((compared_judging s e).trans judging)

/-- Sound comparators let no pair pass that differs. -/
theorem judgePair_differ (differ : sa ≠ sb)
    (skew : s.skewDue e = true → sa ≠ sb ^^^ 2 ^ ((s.engine e).skews % 32)) : s.judgePair e sa sb true .ok .ok =
    { s := s.compared e, commit := false, charge := .engine, split := false } := by
  have mismatch (due : s.skewDue e = true) :
      cmpAnswer .ok (true && sa == (sb ^^^ 2 ^ ((s.engine e).skews % 32))) = false := by
    simpa [cmpAnswer] using skew due
  rw [judgePair_eq, skewChecked_sound mismatch mismatch]
  simpa [cmpAnswer, beq_eq_false_iff_ne.2 differ] using tally_differ (s := s.compared e) true

/-- Without a valid pair of signatures there is no MATCH. -/
theorem judgePair_invalid : s.judgePair e sa sb false .ok .ok =
    { s := s.compared e, commit := false, charge := .engine, split := false } := by
  rw [judgePair_eq, skewChecked_sound (fun _ => rfl) fun _ => rfl]
  exact tally_differ false

section
variable (onA : s.cmpOk .a = true) (onB : s.cmpOk .b = true) (same : sa = sb)
include onA onB same

/-- A comparator that alone answers MISMATCH is charged (R117). -/
theorem judgePair_split :
    s.judgePair e sa sb true .stuckMismatch .ok =
      { s := s.compared e, commit := false, charge := .cmp .a, split := true } ∧
    s.judgePair e sa sb true .ok .stuckMismatch =
      { s := s.compared e, commit := false, charge := .cmp .b, split := true } := by
  subst same
  obtain ⟨a, b⟩ := tally_split ((compared_cmpOk s e .a).trans onA) ((compared_cmpOk s e .b).trans onB) true
  rw [judgePair_eq, judgePair_eq, skewChecked_sound (fun _ => rfl) fun _ => beq_xor_pow ..,
    skewChecked_sound (fun _ => beq_xor_pow ..) fun _ => rfl]
  exact ⟨by simpa [cmpAnswer] using a, by simpa [cmpAnswer] using b⟩

/-- A comparator that answers MATCH at a skew test is retired, and the other one judges (R118, R119). -/
theorem judgePair_skewed (due : s.skewDue e = true) :
    s.judgePair e sa sb true .stuckMatch .ok =
      { s := s.skewRetires e .a, commit := true, charge := .engine, split := false } ∧
    s.judgePair e sa sb true .ok .stuckMatch =
      { s := s.skewRetires e .b, commit := true, charge := .engine, split := false } := by
  subst same
  have mismatch (t : State) (q : Side) : t.skewTest q .ok (sa == sa ^^^ 2 ^ ((s.engine e).skews % 32)) = t :=
    skewTest_mismatch (beq_xor_pow ..)
  have retires (q : Side) (on : s.cmpOk q = true) : ((s.counted e).skewTest q .stuckMatch
      (sa == sa ^^^ 2 ^ ((s.engine e).skews % 32))).skewed = s.skewRetires e q :=
    congrArg State.skewed (skewTest_match (on : (s.counted e).cmpOk q = true) rfl)
  have checkedA : s.skewChecked e sa sa true .stuckMatch .ok = s.skewRetires e .a := by
    rw [State.skewChecked, if_pos due, Bool.true_and, ← retires .a onA]
    exact congrArg State.skewed (mismatch _ .b)
  have checkedB : s.skewChecked e sa sa true .ok .stuckMatch = s.skewRetires e .b := by
    rw [State.skewChecked, if_pos due, Bool.true_and, ← retires .b onB]
    exact congrArg (fun t : State => (t.skewTest .b .stuckMatch _).skewed) (mismatch _ .a)
  have agreedA := tally_agreed (skewRetires_other e onA onB).1
  have agreedB := tally_agreed (skewRetires_other e onB onA).1
  rw [judgePair_eq, judgePair_eq, checkedA, checkedB]
  exact ⟨by simpa [cmpAnswer] using agreedA, by simpa [cmpAnswer] using agreedB⟩

end
end

/-! ### The command -/

section
variable {s : State} {st : Bool} {i : Fin 1024} {m : Image} {im : InstImg} {v : Inst} {w : Window}
  {wA : List (Word × Word)} {wB : List (Word × PassB)} {ask : List (Fin 32)} {a b : CmpStuck} {p : PassA}

section
variable (due : CommitDue s st i m im v w)
include due

/-- With no comparator left nothing commits (R119). -/
theorem execCommit_unjudged (prio : im.prio ≠ 2) (none : s.judging = false) :
    exec (.commit st i wA wB ask .none a b) s = .next s := by
  obtain ⟨rest, wins⟩ := List.head?_eq_some_iff.1 due.oldest
  change execCommit st i wA wB ask .none a b s = _
  unfold execCommit
  simp only [due.image, due.img, due.inst, wins, prio, none]
  simp

variable (pass : PassReady i im w wA p)
include pass

/-- P2 work needs no comparator (R119). -/
theorem execCommit_p2 (prio : im.prio = 2) :
    exec (.commit st i wA wB ask .none a b) s = .next (s.commits st m im v w p ask) := by
  obtain ⟨rest, wins⟩ := List.head?_eq_some_iff.1 due.oldest
  have inTime : ¬w.start + im.ticks + commitSlack < s.tb := Nat.not_lt.2 due.inTime
  change execCommit st i wA wB ask .none a b s = _
  unfold execCommit
  simp only [due.image, due.img, due.inst, wins, due.live, inTime, prio, PassA.disturbed, pass.given]
  simp [State.commits]

theorem execCommit_judges (unit : UnitSound s w.eng) (prio : im.prio ≠ 2) (judging : s.judging = true) :
    let n := w.start / im.ticks
    let dec := decodeWrites (snapCoded w.snap) wB
    exec (.commit st i wA wB ask .none a b) s =
      .next (((s.signedBy w.eng (signed i.val n (dec.getD []))).judgePair w.eng p.rail.toNat
        (signature i.val n (dec.getD [])) (!dec.isNone) a b).ends st i m im w p ask dec.isNone) := by
  obtain ⟨rest, wins⟩ := List.head?_eq_some_iff.1 due.oldest
  have inTime : ¬w.start + im.ticks + commitSlack < s.tb := Nat.not_lt.2 due.inTime
  change execCommit st i wA wB ask .none a b s = _
  unfold execCommit
  simp only [due.image, due.img, due.inst, wins, due.live, inTime, prio, PassA.disturbed, pass.given, judging,
    passUnit_sound unit, pass.faulty, PassA.valid, pass.valid]
  simp [Judged.ends, State.commits] <;> rfl

variable (unit : UnitSound s w.eng) (prio : im.prio ≠ 2)
include unit prio

theorem execCommit_commits {t : State} {ws : List (Word × Word)} {c : Charge} {split : Bool}
    (judging : s.judging = true) (dec : decodeWrites (snapCoded w.snap) wB = some ws)
    (judged : (s.signedBy w.eng (signed i.val (w.start / im.ticks) ws)).judgePair w.eng p.rail.toNat
      (signature i.val (w.start / im.ticks) ws) true a b = { s := t, commit := true, charge := c, split := split })
    (insts : t.eng.insts = s.eng.insts) :
    exec (.commit st i wA wB ask .none a b) s = .next (t.commits st m im v w p ask) := by
  have inst : t.inst st i.val = some v := by
    rw [State.inst, insts]
    exact due.inst
  refine (execCommit_judges due pass unit prio judging).trans ?_
  simp only [dec, Option.getD_some, Option.isNone_some, Bool.not_false, judged, Judged.ends, if_true, inst]

theorem execCommit_fails {t : State} {ws : List (Word × Word)} {c : Charge} {split : Bool} {cause : Nat}
    (judging : s.judging = true) (dec : decodeWrites (snapCoded w.snap) wB = some ws)
    (judged : (s.signedBy w.eng (signed i.val (w.start / im.ticks) ws)).judgePair w.eng p.rail.toNat
      (signature i.val (w.start / im.ticks) ws) true a b = { s := t, commit := false, charge := c, split := split })
    (still : t.judging = true) (named : (if split then 4 else 0) = cause) :
    exec (.commit st i wA wB ask .none a b) s = .next (t.failWindow st im w cause c) := by
  refine (execCommit_judges due pass unit prio judging).trans ?_
  simp [dec, judged, Judged.ends, still, ← named]

/-- Where both passes have the same signature the window commits. -/
theorem execCommit_agrees {ws : List (Word × Word)} (judging : s.judging = true)
    (dec : decodeWrites (snapCoded w.snap) wB = some ws)
    (same : p.rail.toNat = signature i.val (w.start / im.ticks) ws) :
    exec (.commit st i wA wB ask .none .ok .ok) s = .next (((s.signedBy w.eng
      (signed i.val (w.start / im.ticks) ws)).compared w.eng).commits st m im v w p ask) :=
  execCommit_commits due pass unit prio judging dec (judgePair_agreed judging same) (compared_insts ..)

/-- Where the signatures differ the window fails with cause 0. -/
theorem execCommit_differs {ws : List (Word × Word)} (judging : s.judging = true)
    (dec : decodeWrites (snapCoded w.snap) wB = some ws)
    (other : p.rail.toNat ≠ signature i.val (w.start / im.ticks) ws)
    (skew : s.skewDue w.eng = true →
      p.rail.toNat ≠ signature i.val (w.start / im.ticks) ws ^^^ 2 ^ ((s.engine w.eng).skews % 32)) :
    exec (.commit st i wA wB ask .none .ok .ok) s = .next (((s.signedBy w.eng
      (signed i.val (w.start / im.ticks) ws)).compared w.eng).failWindow st im w 0 .engine) :=
  execCommit_fails due pass unit prio judging dec (judgePair_differ other skew)
    ((compared_judging ..).trans judging) rfl

/-- A residue that is not 0 fails the window with cause 1 (R113). -/
theorem execCommit_code (judging : s.judging = true) (dec : decodeWrites (snapCoded w.snap) wB = none) :
    exec (.commit st i wA wB ask .none .ok .ok) s = .next (((s.signedBy w.eng
      (signed i.val (w.start / im.ticks) [])).compared w.eng).failWindow st im w 1 .engine) := by
  have judged := judgePair_invalid (s := s.signedBy w.eng (signed i.val (w.start / im.ticks) [])) (e := w.eng)
    (sa := p.rail.toNat) (sb := signature i.val (w.start / im.ticks) [])
  have still : ((s.signedBy w.eng (signed i.val (w.start / im.ticks) [])).compared w.eng).judging = true :=
    (compared_judging ..).trans judging
  refine (execCommit_judges due pass unit prio judging).trans ?_
  simp [dec, judged, Judged.ends, still]

variable {ws : List (Word × Word)} (dec : decodeWrites (snapCoded w.snap) wB = some ws)
  (same : p.rail.toNat = signature i.val (w.start / im.ticks) ws) (onA : s.cmpOk .a = true) (onB : s.cmpOk .b = true)
include dec same onA onB

/-- A comparator that alone answers MISMATCH fails the window with cause 4, and is charged (R117). -/
theorem execCommit_splits :
    exec (.commit st i wA wB ask .none .stuckMismatch .ok) s = .next (((s.signedBy w.eng
      (signed i.val (w.start / im.ticks) ws)).compared w.eng).failWindow st im w 4 (.cmp .a)) ∧
    exec (.commit st i wA wB ask .none .ok .stuckMismatch) s = .next (((s.signedBy w.eng
      (signed i.val (w.start / im.ticks) ws)).compared w.eng).failWindow st im w 4 (.cmp .b)) := by
  have judging := judging_of_cmpOk onA
  obtain ⟨splitA, splitB⟩ := judgePair_split (s := s.signedBy w.eng (signed i.val (w.start / im.ticks) ws))
    (e := w.eng) onA onB same
  have still := (compared_judging (s.signedBy w.eng (signed i.val (w.start / im.ticks) ws)) w.eng).trans judging
  exact ⟨execCommit_fails due pass unit prio judging dec splitA still rfl,
    execCommit_fails due pass unit prio judging dec splitB still rfl⟩

/-- A comparator that answers MATCH at a skew test is retired, and the commit goes on (R118). -/
theorem execCommit_skews (test : s.skewDue w.eng = true) :
    exec (.commit st i wA wB ask .none .stuckMatch .ok) s = .next (((s.signedBy w.eng
      (signed i.val (w.start / im.ticks) ws)).skewRetires w.eng .a).commits st m im v w p ask) ∧
    exec (.commit st i wA wB ask .none .ok .stuckMatch) s = .next (((s.signedBy w.eng
      (signed i.val (w.start / im.ticks) ws)).skewRetires w.eng .b).commits st m im v w p ask) := by
  have judging := judging_of_cmpOk onA
  have signed_judging (q : Side) := skewRetires_other (q := q)
    (s := s.signedBy w.eng (signed i.val (w.start / im.ticks) ws)) w.eng
  obtain ⟨skewA, skewB⟩ := judgePair_skewed (s := s.signedBy w.eng (signed i.val (w.start / im.ticks) ws))
    (e := w.eng) onA onB same test
  exact ⟨execCommit_commits due pass unit prio judging dec skewA (signed_judging .a onA onB).2,
    execCommit_commits due pass unit prio judging dec skewB (signed_judging .b onB onA).2⟩

end
end

end Sys2Proof.Machine
/-! A commit takes the agreed result (O28). -/

namespace Sys2Proof.Machine

/-- Settles O28: the judgement clause by clause, then what a commit publishes, then the urgent requests. -/
theorem commitTakesTheAgreedResult : Obligations.CommitTakesTheAgreedResult := by
  unfold Obligations.CommitTakesTheAgreedResult
  refine ⟨?judgement, ?publishes, fun t m e ask order past => askUrgent_in_order m e ask order past⟩
  case judgement =>
    intro s st i m im v w rest wA wB ask image img inst num wins live inTime fault upset okc n p com ends valid faulty
    have due : CommitDue s st i m im v w := ⟨image, img, inst, by rw [wins]; rfl, live, inTime⟩
    have pass : PassReady i im w wA p := ⟨rfl, valid, faulty⟩
    have unit : UnitSound s w.eng := ⟨okc, upset, fault⟩
    refine ⟨execCommit_p2 due pass, fun prio => ?_⟩
    intro g skew checked tested judged
    refine ⟨fun ws dec => ⟨fun same judging => execCommit_agrees due pass unit prio judging dec same,
        fun other judging skewed => execCommit_differs due pass unit prio judging dec other skewed,
        fun same onA onB => ?comparators⟩,
      fun none judging => execCommit_code due pass unit prio judging none,
      fun none a b => execCommit_unjudged due prio none, fun fresh native judging => ?native⟩
    case comparators =>
      obtain ⟨splitA, splitB⟩ := execCommit_splits due pass unit prio dec same onA onB
      exact ⟨splitA, splitB, execCommit_skews due pass unit prio dec same onA onB⟩
    case native =>
      have own : p = PassA.of i.val n wA := congrArg (fun x : Option PassA => x.getD (PassA.of i.val n wA)) fresh
      exact execCommit_agrees due pass unit prio judging (native ▸ decodeWrites_native _ wA) (own ▸ rail_of i.val n wA)
  case publishes =>
    intro t st m im v w p num inst oki okm u
    obtain ⟨bad, published, masks⟩ := commitWindow_commits (t := t) st m im v w p oki okm
    refine ⟨_, published, rfl, rfl, rfl, rfl, rfl, rfl, rfl, fun serves prio => ?_, masks⟩
    have saved : (t.ckmFor w.eng && im.prio != 2) = true := by simp [serves, prio]
    rw [saved]
    rfl

end Sys2Proof.Machine

/-! CAL_ZERO, CAL_FULL, CAL_COMMIT, CAL_DISCARD, CAL_AVERAGE_END and CALIBRATION_TIMEOUT (R185, R186). -/

namespace Sys2Proof.Machine

/-! ### The bodies of the requests -/

/-- The body of a request that names one channel. -/
theorem numAt_channel (c : Fin 32) : numAt [BitVec.ofNat 8 c.val] 0 1 = c.val := by
  revert c
  decide

/-- Most significant byte first, four bytes spell the word they were cut from (R3). -/
theorem beNat_wordBytes (v : Word) : beNat (wordBytes v) = v.toNat := by
  have below := v.isLt
  simp only [wordBytes, beBytes, beNat, List.foldl, BitVec.toNat_ofNat]
  omega

/-- The body of CAL_FULL: the channel, three bytes of zero, the applied value. -/
theorem numAt_calFull (c : Fin 32) (v : Word) :
    numAt ([BitVec.ofNat 8 c.val, 0#8, 0#8, 0#8] ++ wordBytes v) 0 1 = c.val ∧
    numAt ([BitVec.ofNat 8 c.val, 0#8, 0#8, 0#8] ++ wordBytes v) 4 4 = v.toNat :=
  ⟨numAt_channel c, beNat_wordBytes v⟩

/-- Two's complement reads back. -/
theorem sgn_toNat (v : Word) : sgn 32 v.toNat = v.toInt := by
  simp only [sgn, BitVec.toInt_eq_toNat_cond]
  split <;> split <;> omega

/-! ### A session and its averagings -/

section
variable {s : State} {session c op : Nat} {k : Cal}

theorem calZero_starts {r : Nat} (hc : c < 32) (range : s.rangeOf c = some r) (closed : s.cnv.cal = none) :
    s.calZero session c op = (s.setCal (some
      { session := session, chan := c, phase := .zeroing, count := 0, sum := 0, bad := false, since := s.tb,
        zero := 0, full := 0, applied := 0, op := op, lastCmd := s.tb }), stAccepted, []) := by
  rw [State.calZero, if_neg (by simp [range, hc]), if_neg (by simp [closed])]

theorem calOf_own (cal : s.cnv.cal = some k) (own : k.session = session) (chan : k.chan = c) :
    s.calOf session c = some k := by simp [State.calOf, cal, own, chan]

/-- After a completed averaging, CAL_FULL starts the next one. -/
theorem calFull_starts {r : Nat} {v : Int} (hc : c < 32) (range : s.rangeOf c = some r)
    (applied : appliedOk r v = true) (cal : s.calOf session c = some k)
    (phase : k.phase = .zeroed ∨ k.phase = .filled) :
    s.calFull session c v op = (s.setCal (some
      { k with phase := .filling, count := 0, sum := 0, bad := false, since := s.tb
               applied := v * (rangeScale r).2, op := op, lastCmd := s.tb }), stAccepted, []) := by
  unfold State.calFull
  rw [if_neg (Nat.not_le.2 hc), range]
  dsimp only
  rw [if_neg (by simp [applied]), cal]
  obtain zeroed | filled := phase
  · simp only [zeroed]
  · simp only [filled]

theorem calDiscard_ends (hc : c < 32) (cal : s.calOf session c = some k) :
    s.calDiscard session c = (s.setCal none, stOk, []) := by
  rw [State.calDiscard, if_neg (Nat.not_le.2 hc), if_neg (by simp [cal])]

theorem Cal.ends_good {stale : Bool} (now : Nat) (good : k.bad = false) (fresh : stale = false)
    (full : 1024 ≤ k.count) : k.ends stale now = some true := by
  rw [Cal.ends, good, fresh, if_neg (by simp), if_pos full]

theorem Cal.ends_bad (stale : Bool) (now : Nat) (bad : k.bad = true) : k.ends stale now = some false := by
  rw [Cal.ends, bad, if_pos (by simp)]

theorem execCalAverageEnd_zeroed (cal : s.cnv.cal = some k) (phase : k.phase = .zeroing)
    {b : Bool} (ends : k.ends (s.isStale k.chan) s.tb = some b) : execCalAverageEnd s = .next (if b then
      (s.setCal (some { k with phase := .zeroed, zero := k.sum })).finish k.op stOk
      else (s.setCal (some { k with phase := .spoiled })).finish k.op stFault) := by
  simp only [execCalAverageEnd, cal, phase, ends]
  cases b <;> rfl

theorem execCalAverageEnd_filled (cal : s.cnv.cal = some k) (phase : k.phase = .filling)
    {b : Bool} (ends : k.ends (s.isStale k.chan) s.tb = some b) : execCalAverageEnd s = .next (if b then
      (s.setCal (some { k with phase := .filled, full := k.sum })).finish k.op stOk
      else (s.setCal (some { k with phase := .zeroed })).finish k.op stFault) := by
  simp only [execCalAverageEnd, cal, phase, ends]
  cases b <;> rfl

theorem execCalibrationTimeout_ends (cal : s.cnv.cal = some k) (live : s.alive = true)
    (late : k.lastCmd + 120000000000 ≤ s.tb) : execCalibrationTimeout s = .next (s.setCal none) := by
  simp [execCalibrationTimeout, cal, live, late]

end

/-! ### The record of a completed session (R186) -/

/-- The check value that a unit in use without defect shows (Table 14.2). -/
theorem payload_result (c : Cvu) (p : BitVec 2) (bs : List Byte) : (c.payload p bs).result = crcOf p bs := by
  unfold Cvu.payload Cvu.feed Cvu.init
  rfl

/-- A record that is taken: OFS and G as rounded, the limits that its mean difference and its zero hold, and its own
check value. -/
theorem Cal.record_some {k : Cal} {r : CalRec} (taken : k.record = some r) :
    let d : Int := (1000000 * (k.full - k.zero)).natAbs
    ∃ n : Int, (n = 1024 * k.applied ∨ n = -(1024 * k.applied)) ∧ 0 < d ∧ 95 * d ≤ 100 * n ∧ 100 * n ≤ 105 * d ∧
      k.zero.natAbs ≤ 500 * 1024 ∧ r = .made ((2 * k.zero + 1024) / 2048) ((65536 * n + d) / (2 * d)).toNat := by
  unfold Cal.record at taken
  dsimp only at taken ⊢
  generalize 1000000 * (k.full - k.zero) = d at taken ⊢
  have sign : (if d < 0 then -(1024 * k.applied) else 1024 * k.applied) = 1024 * k.applied ∨
      (if d < 0 then -(1024 * k.applied) else 1024 * k.applied) = -(1024 * k.applied) := by
    split
    · exact .inr rfl
    · exact .inl rfl
  generalize (if d < 0 then -(1024 * k.applied) else 1024 * k.applied) = n at taken sign
  split at taken
  · cases taken
  · next within =>
    simp only [not_or, not_lt] at within
    obtain ⟨apart, zero, low, high⟩ := within
    cases taken
    exact ⟨n, sign, by omega, low, high, zero, rfl⟩

/-- A record that is taken carries its own check value. -/
theorem Cal.record_crc {k : Cal} {r : CalRec} (taken : k.record = some r) : r.crc = crc32c r.bytes := by
  obtain ⟨n, -, -, -, -, -, rfl⟩ := k.record_some taken
  rfl

/-! ### CAL_COMMIT (R185) -/

section
variable {s : State} {session c : Nat} {k : Cal} {r : CalRec}

/-- The state in which CAL_COMMIT enters its record: the unit of the active processor has run over OFS and G, the
record is stored, and the session is over. -/
def State.calStored (s : State) (c : Nat) (r : CalRec) : State :=
  let u := procUnit s.por.active
  let t := s.setUnit u ((s.unit u).payload 3#2 r.bytes)
  { t with nv := { t.nv with cal := Tab.set .unity t.nv.cal c r }
           cnv := { t.cnv with cal := none, calWas := Tab.set none s.cnv.calWas c (some (s.calRec c, s.tb)) } }

theorem calCommit_stores (hc : c < 32) (cal : s.calOf session c = some k) (filled : k.phase = .filled)
    (taken : k.record = some r) (units : Tab.ok .fresh s.cvu = true)
    (sound : (s.unit (procUnit s.por.active)).upset = 0) :
    s.calCommit session c = ((s.calStored c r).record 0x0502 1
      ([BitVec.ofNat 8 c] ++ wordBytes (s.calRec c).word ++ wordBytes r.word), stOk, wordBytes r.word) := by
  have run := (runUnit_payload units sound r.bytes).1
  have shown : ((s.setUnit (procUnit s.por.active) ((s.unit (procUnit s.por.active)).payload 3#2 r.bytes)).unit
      (procUnit s.por.active)).result = r.crc := by
    rw [unit_setUnit units, if_pos rfl, payload_result, k.record_crc taken]
    rfl
  unfold State.calCommit
  rw [if_neg (Nat.not_le.2 hc), cal]
  dsimp only
  rw [if_neg (not_not.2 filled), taken]
  dsimp only
  rw [run, shown]
  rfl

theorem calStored_record (code sev : Nat) (p : List Byte) (ok : Tab.ok .unity s.nv.cal = true) :
    ((s.calStored c r).record code sev p).cnv.cal = none ∧
    ∀ j, Tab.get .unity ((s.calStored c r).record code sev p).nv.cal j =
      if j = c then r else Tab.get .unity s.nv.cal j := by
  have entered := record_recorded (s.calStored c r) code sev p false none
  unfold Recorded at entered
  rw [entered]
  exact ⟨rfl, fun j => Tab.get_set ok c j r⟩

end

/-- Settles O30: each command by its own rule. -/
theorem calibrationSession : Obligations.CalibrationSession := by
  unfold Obligations.CalibrationSession
  refine ⟨fun s s1 h op r c admitted range closed => ?zero,
    fun s s1 h op r c k v admitted range applied cal own chan phase => ?full,
    fun s k cal good fresh many => ?averaged, fun s k cal bad => ?failed,
    fun s s1 h op c k r admitted cal own chan filled taken store units sound => ?commit,
    fun s s1 h op c k admitted cal own chan => ?discard,
    fun s k cal live late => execCalibrationTimeout_ends cal live late,
    fun k r taken => ?record⟩
  case zero =>
    refine congrArg Host.Outcome.next (request_answered admitted ?_)
    rw [numAt_channel]
    exact calZero_starts c.isLt range closed
  case full =>
    refine congrArg Host.Outcome.next (request_answered admitted ?_)
    rw [(numAt_calFull c v).1, (numAt_calFull c v).2, sgn_toNat]
    exact calFull_starts c.isLt range applied (calOf_own cal own chan) phase
  case averaged =>
    have ends := Cal.ends_good s.tb good fresh many
    exact ⟨fun phase => execCalAverageEnd_zeroed cal phase ends, fun phase => execCalAverageEnd_filled cal phase ends⟩
  case failed =>
    have ends := Cal.ends_bad (s.isStale k.chan) s.tb bad
    exact ⟨fun phase => execCalAverageEnd_zeroed cal phase ends, fun phase => execCalAverageEnd_filled cal phase ends⟩
  case commit =>
    obtain ⟨ended, stored⟩ := calStored_record (c := c.val) (r := r) 0x0502 1
      ([BitVec.ofNat 8 c.val] ++ wordBytes (s1.calRec c.val).word ++ wordBytes r.word) store
    refine ⟨_, congrArg Host.Outcome.next (request_answered admitted ?_), ended, stored⟩
    rw [numAt_channel]
    exact calCommit_stores c.isLt (calOf_own cal own chan) filled taken units sound
  case discard =>
    refine congrArg Host.Outcome.next (request_answered admitted ?_)
    rw [numAt_channel]
    exact calDiscard_ends c.isLt (calOf_own cal own chan)
  case record =>
    obtain ⟨n, sign, apart, low, high, zero, rfl⟩ := k.record_some taken
    exact ⟨n, sign, apart, low, high, zero, rfl, rfl, rfl, rfl⟩

end Sys2Proof.Machine

/-! Blocks of results as a converter forms and sends them (R235, R236): what a block in formation, its close and an
entry that joins it leave alone. -/

namespace Sys2Proof.Machine

/-- What a converter shows apart from its block in formation, what waits for the uplink, and its pulls. -/
def Cnv1.sampling (v : Cnv1) : Cnv1 :=
  { v with form := [], waitA := false, waitB := false, heldBack := false, held := 0, pulls := [] }

/-- The block of converter `c` may have been formed, closed or sent; nothing else has changed. -/
structure Blocks (c : Nat) (s t : State) : Prop where
  frame  : t = { s with cnv := { s.cnv with convs := t.cnv.convs, flyA := t.cnv.flyA, flyB := t.cnv.flyB } }
  ok     : Tab.ok .start t.cnv.convs = true
  own    : (t.conv c).sampling = (s.conv c).sampling
  others : ∀ j, j ≠ c → t.conv j = s.conv j

theorem conv_setConv_of {s : State} (ok : Tab.ok .start s.cnv.convs = true) (c j : Nat) (v : Cnv1) :
    (s.setConv c v).conv j = if j = c then v else s.conv j := Tab.get_set ok c j v

theorem chan_setChan {s : State} (ok : Tab.ok .start s.cnv.chans = true) (n j : Nat) (v : Chan) :
    (s.setChan n v).chan j = if j = n then v else s.chan j := Tab.get_set ok n j v

section
variable {c : Nat} {s t u : State}

theorem Blocks.refl (ok : Tab.ok .start s.cnv.convs = true) : Blocks c s s := ⟨rfl, ok, rfl, fun _ _ => rfl⟩

theorem Blocks.trans (h : Blocks c s t) (k : Blocks c t u) : Blocks c s u :=
  ⟨by rw [k.frame, h.frame], k.ok, k.own.trans h.own, fun j hj => (k.others j hj).trans (h.others j hj)⟩

theorem Blocks.setConv (ok : Tab.ok .start s.cnv.convs = true) {v : Cnv1} (same : v.sampling = (s.conv c).sampling) :
    Blocks c s (s.setConv c v) :=
  ⟨rfl, Tab.ok_set c v ok, by rw [conv_setConv ok, same], fun j hj => (conv_setConv_of ok c j v).trans (if_neg hj)⟩

theorem Blocks.fly (ok : Tab.ok .start s.cnv.convs = true) (a b : List Flight) :
    Blocks c s { s with cnv := { s.cnv with flyA := a, flyB := b } } := ⟨rfl, ok, rfl, fun _ _ => rfl⟩

theorem Blocks.cnv (h : Blocks c s t) : t = { s with cnv := t.cnv } := h.frame.trans (by rw [h.frame])

theorem Blocks.chan (h : Blocks c s t) (n : Nat) : t.chan n = s.chan n := by rw [h.frame]; rfl

theorem Blocks.run (h : Blocks c s t) : (t.conv c).run = (s.conv c).run := (congrArg Cnv1.run h.own :)

/-- The block that the converter would close now (R235). -/
def State.closing (s : State) (c : Nat) : Flight :=
  { conv := c, blk := blockOf (cutBlock 0 (s.conv c).form).1, begun := false }

/-- With no entry in formation there is nothing to close. -/
theorem closeBlock_empty (empty : (s.conv c).form = []) : s.closeBlock c = s := by simp [State.closeBlock, empty]

/-- While an earlier block waits, nothing is sent: the converter is held back (R236). -/
theorem closeBlock_waits (filled : (s.conv c).form ≠ []) (waits : ((s.conv c).waitA || (s.conv c).waitB) = true) :
    s.closeBlock c = if (s.conv c).heldBack then s else s.setConv c ((s.conv c).hold s.tb) := by
  simp [State.closeBlock, filled, waits]

theorem closeBlock_sends (filled : (s.conv c).form ≠ []) (free : ((s.conv c).waitA || (s.conv c).waitB) = false) :
    s.closeBlock c =
      let t := s.sendBlock c (s.closing c).blk (cutBlock 0 (s.conv c).form).2
      if ripe (cutBlock 0 (s.conv c).form).2 then t.setConv c ((t.conv c).hold t.tb) else t := by
  simp [State.closeBlock, filled, free, State.closing]

theorem sendBlock_blocks (ok : Tab.ok .start s.cnv.convs = true) (b : Block) (rest : List Entry) :
    Blocks c s (s.sendBlock c b rest) :=
  (Blocks.setConv ok (v := { s.conv c with form := rest, waitA := s.lives .a, waitB := s.lives .b }) rfl).trans
    (.fly (Tab.ok_set c _ ok) _ _)

theorem closeBlock_blocks (ok : Tab.ok .start s.cnv.convs = true) : Blocks c s (s.closeBlock c) := by
  by_cases empty : (s.conv c).form = []
  · rw [closeBlock_empty empty]
    exact .refl ok
  cases waits : (s.conv c).waitA || (s.conv c).waitB
  · rw [closeBlock_sends empty waits]
    dsimp only
    have sent := sendBlock_blocks (c := c) ok (s.closing c).blk (cutBlock 0 (s.conv c).form).2
    split
    · exact sent.trans (.setConv sent.ok rfl)
    · exact sent
  · rw [closeBlock_waits empty waits]
    split
    · exact .refl ok
    · exact .setConv ok rfl

/-- The entries in formation at converter `c` are `l`. -/
def State.withForm (s : State) (c : Nat) (l : List Entry) : State := s.setConv c { s.conv c with form := l }

theorem withForm_blocks (ok : Tab.ok .start s.cnv.convs = true) (l : List Entry) : Blocks c s (s.withForm c l) :=
  .setConv ok rfl

theorem conv_withForm (ok : Tab.ok .start s.cnv.convs = true) (l : List Entry) :
    (s.withForm c l).conv c = { s.conv c with form := l } := conv_setConv ok c _

theorem addEntry_eq (s : State) (c : Nat) (e : Entry) : ∃ l closes, s.addEntry c e =
    if closes = true then (s.withForm c l).closeBlock c else s.withForm c l := ⟨_, _, rfl⟩

theorem addEntry_blocks (ok : Tab.ok .start s.cnv.convs = true) (e : Entry) : Blocks c s (s.addEntry c e) := by
  obtain ⟨l, closes, eq⟩ := addEntry_eq s c e
  have joined := withForm_blocks (c := c) ok l
  rw [eq]
  split
  · exact joined.trans (closeBlock_blocks joined.ok)
  · exact joined

/-! ### What is sent -/

theorem conv_sendBlock (ok : Tab.ok .start s.cnv.convs = true) (b : Block) (rest : List Entry) :
    (s.sendBlock c b rest).conv c = { s.conv c with form := rest, waitA := s.lives .a, waitB := s.lives .b } :=
  conv_setConv ok c _

/-- A converter for which no earlier block waits sends its block on the links of the running sequencers, and goes on
with the entries that the block left (R235). -/
theorem closeBlock_sent (ok : Tab.ok .start s.cnv.convs = true) (filled : (s.conv c).form ≠ [])
    (freeA : (s.conv c).waitA = false) (freeB : (s.conv c).waitB = false) :
    (s.closeBlock c).cnv.flyA = (if s.lives .a = true then s.cnv.flyA ++ [s.closing c] else s.cnv.flyA) ∧
    (s.closeBlock c).cnv.flyB = (if s.lives .b = true then s.cnv.flyB ++ [s.closing c] else s.cnv.flyB) ∧
    ((s.closeBlock c).conv c).form = (cutBlock 0 (s.conv c).form).2 := by
  have sent := sendBlock_blocks (c := c) ok (s.closing c).blk (cutBlock 0 (s.conv c).form).2
  have here := conv_sendBlock (c := c) ok (s.closing c).blk (cutBlock 0 (s.conv c).form).2
  rw [closeBlock_sends filled (by simp [freeA, freeB])]
  dsimp only
  split
  · refine ⟨rfl, rfl, ?_⟩
    rw [conv_setConv sent.ok, here]
    rfl
  · exact ⟨rfl, rfl, congrArg Cnv1.form here⟩

/-- An entry that changed its channel to OUTSIDE leaves at once, alone, where nothing is in formation and no earlier
block waits (R179, R235). -/
theorem addEntry_fires (ok : Tab.ok .start s.cnv.convs = true) (e : Entry) (fire : e.fire = true)
    (empty : (s.conv c).form = []) (freeA : (s.conv c).waitA = false) (freeB : (s.conv c).waitB = false)
    (live : s.lives .a = true) : (s.addEntry c e).cnv.flyA = s.cnv.flyA ++
      [{ conv := c, blk := blockOf [{ e with brk := e.brk || false }], begun := false }] := by
  have cut (x : Entry) (hx : x.fire = true) : cutBlock 0 [x] = ([x], []) := by simp [cutBlock, hx]
  have full (x : Entry) (hx : x.fire = true) : ripe [x] = true := by simp [ripe, cut x hx, hx]
  have alone : s.addEntry c e = (s.withForm c [{ e with brk := e.brk || false }]).closeBlock c := by
    simp only [State.addEntry, empty, List.nil_append, List.getLast?_nil]
    exact if_pos (by rw [full { e with brk := e.brk || false } fire, Bool.true_or])
  rw [alone]
  generalize he : ({ e with brk := e.brk || false } : Entry) = x
  have hx : x.fire = true := he ▸ fire
  have here := conv_withForm (c := c) ok [x]
  have form : ((s.withForm c [x]).conv c).form = [x] := congrArg Cnv1.form here
  obtain ⟨sent, -, -⟩ := closeBlock_sent (withForm_blocks (c := c) ok [x]).ok (by rw [form]; exact List.cons_ne_nil _ _)
    ((congrArg Cnv1.waitA here).trans freeA) ((congrArg Cnv1.waitB here).trans freeB)
  rw [sent, if_pos (show (s.withForm c [x]).lives .a = true from live), State.closing, form, cut x hx]
  rfl

end

end Sys2Proof.Machine

/-! CONVERSION_START (R170, R172, R174, R176): what starts next, and the converter after the start. -/

namespace Sys2Proof.Machine

/-! ### What starts (R173, R174, R176) -/

/-- The next entry of the list waits for a trigger (R176). -/
def Cnv1.Triggered (v : Cnv1) (i : ConvImg) : Prop := convMode i = 2 ∧ bitOf (nth i.list v.next 0) 4 = true

/-- The kind of conversion that an urgent request asks for. -/
def askedKind (re : Bool) : ConvKind := if re then .recheck else .urgent

/-- The conversions that go on when an urgent one starts (R174). -/
def Cnv1.left (v : Cnv1) (now : Nat) : List Conv := v.run.filter fun x => decide (v.abortable now ≠ some x)

/-- The slice of an urgent conversion: that of the one it aborts, where there is one. -/
def Cnv1.slotFor (v : Cnv1) (now k : Nat) : Nat := ((v.abortable now).map Conv.slice).getD k

section
variable {v : Cnv1} {i : ConvImg} {k now : Nat}

theorem waits_iff : (convMode i == 2 && bitOf (nth i.list v.next 0) 4) = true ↔ v.Triggered i := by
  simp [Cnv1.Triggered]

theorem pick_list (going : v.heldBack = false) (idle : v.urgent = []) (free : ¬v.Triggered i) :
    v.pick i = some (.list v.next) := by
  rw [← waits_iff] at free
  unfold Cnv1.pick
  dsimp only
  rw [if_neg (Bool.eq_false_iff.1 going), if_neg (fun h => free ((Bool.and_eq_true _ _).mp h).1), idle]
  exact if_neg free

theorem pick_released (going : v.heldBack = false) (waits : v.Triggered i) (release : v.release = true) :
    v.pick i = some (.list v.next) := by
  rw [← waits_iff] at waits
  unfold Cnv1.pick
  dsimp only
  rw [if_neg (Bool.eq_false_iff.1 going), waits, release]
  rfl

theorem pick_waiting (going : v.heldBack = false) (waits : v.Triggered i) (release : v.release = false)
    (idle : v.urgent = []) : v.pick i = none := by
  rw [← waits_iff] at waits
  unfold Cnv1.pick
  dsimp only
  rw [if_neg (Bool.eq_false_iff.1 going), waits, release, idle]
  rfl

theorem pick_urgent {ch : Nat} {re : Bool} {l : List (Nat × Bool)} (going : v.heldBack = false)
    (asked : v.urgent = (ch, re) :: l) (unreleased : v.Triggered i → v.release = false) :
    v.pick i = some (askedKind re) := by
  have locked : ¬((convMode i == 2 && bitOf (nth i.list v.next 0) 4) && v.release) = true := by
    rw [Bool.and_eq_true, waits_iff]
    exact fun ⟨waits, release⟩ => Bool.false_ne_true ((unreleased waits).symm.trans release)
  unfold Cnv1.pick
  dsimp only
  rw [if_neg (Bool.eq_false_iff.1 going), if_neg locked, asked]
  cases re <;> rfl

/-! ### Whether it starts now -/

theorem starts_none (idle : v.pick i = none) : v.starts i k now = none := by
  unfold Cnv1.starts
  rw [idle]

/-- A list entry starts on a free slice once its trigger has come or the interval of the pattern has passed. -/
theorem starts_list {e : Nat} (picked : v.pick i = some (.list e)) (free : ∀ x ∈ v.run, x.slice ≠ k)
    (due : v.release = true ∨ ∀ t, v.startAt = some t → t + pattern v.slices v.phase ≤ now) :
    v.starts i k now = some (.list e, k, none, v) := by
  have slot : (v.run.any fun x => x.slice == k) = false := by simpa using free
  unfold Cnv1.starts
  rw [picked]
  refine if_pos ?_
  simp only [Option.map_none, Option.getD_none, Bool.false_eq_true, if_false, slot, Bool.false_and, Bool.not_false,
    Bool.true_or, Bool.true_and]
  obtain release | late := due
  · rw [release, Bool.true_or]
  · cases h : v.startAt with
    | none => simp
    | some t => simp [late t h]

theorem starts_early {e t : Nat} (picked : v.pick i = some (.list e)) (unreleased : v.release = false)
    (last : v.startAt = some t) (early : now < t + pattern v.slices v.phase) : v.starts i k now = none := by
  unfold Cnv1.starts
  rw [picked]
  refine if_neg ?_
  simp [unreleased, last, early]

/-- R174: the converter after the abort, and the list entry that repeats. -/
theorem abortFor_eq : ∃ n b r, v.abortFor i now = { v with run := v.left now, next := n, brk := b, release := r } ∧
    ∀ y e, v.abortable now = some y → y.kind = .list e → n = e % convLen i := by
  unfold Cnv1.abortFor Cnv1.left
  cases h : v.abortable now with
  | none => exact ⟨v.next, v.brk, v.release, by simp, fun y e hy => by cases hy⟩
  | some x =>
    have keeps : (v.run.filter fun y => decide (some x ≠ some y)) = v.run.filter fun y => y != x :=
      List.filter_congr fun y _ => by
        rw [Bool.eq_iff_iff, decide_eq_true_eq, bne_iff_ne]
        exact ⟨fun h e => h (congrArg some e.symm), fun h e => h (Option.some.inj e).symm⟩
    have found := (List.find?_some h :)
    cases kind : x.kind with
    | list e =>
      refine ⟨e % convLen i, _, _, by simp only [Cnv1.repeat_, kind, keeps]; rfl, fun y f hy hf => ?_⟩
      cases hy
      rw [kind] at hf
      cases hf
      rfl
    | urgent => simp [kind] at found
    | recheck => simp [kind] at found

/-- An urgent request starts once its tick has come, but not on the tick of another start. -/
theorem starts_urgent {re : Bool} (picked : v.pick i = some (askedKind re)) (due : v.urgFrom ≤ now)
    (new : v.startAt ≠ some now) (free : ∀ x ∈ v.left now, x.slice ≠ v.slotFor now k)
    (room : convMode i ≠ 2 ∨ (v.left now).length + 1 < v.slices) :
    ∃ cut, v.starts i k now = some (askedKind re, v.slotFor now k, cut, v.abortFor i now) := by
  obtain ⟨n, b, r, eq, -⟩ := abortFor_eq (v := v) (i := i) (now := now)
  have slot : ((v.abortFor i now).run.any fun x => x.slice == v.slotFor now k) = false := by
    rw [eq]
    simpa using free
  have place : (!(v.abortFor i now).waits i || decide ((v.abortFor i now).run.length + 1 < (v.abortFor i now).slices)) =
      true := by
    rw [eq]
    obtain mode | spare := room
    · simp [Cnv1.waits, mode]
    · rw [Bool.or_eq_true]
      exact .inr (decide_eq_true spare)
  refine ⟨((v.abortable now).filter Conv.diag).map fun x => x.ch % 8, ?_⟩
  unfold Cnv1.slotFor at slot ⊢
  unfold Cnv1.starts
  rw [picked]
  cases re
  all_goals
    refine if_pos ?_
    simpa [askedKind, slot, due, new] using place

theorem starts_urgent_early {re : Bool} (picked : v.pick i = some (askedKind re))
    (early : now < v.urgFrom ∨ v.startAt = some now) : v.starts i k now = none := by
  have late : (decide (v.urgFrom ≤ now) && v.startAt != some now) = false := by
    obtain before | same := early
    · simp [before]
    · simp [same]
  unfold Cnv1.starts
  rw [picked]
  cases re
  all_goals exact if_neg (by simp [askedKind, late])

end

/-! ### The converter after a start (R172, R174) -/

/-- Every interval of the pattern lasts 33 ticks at least (Table 7.2). -/
theorem pattern_least (slices phase : Nat) : 33 ≤ pattern slices phase := by
  have least (l : List Nat) (d j : Nat) (hl : ∀ x ∈ l, 33 ≤ x) (hd : 33 ≤ d) : 33 ≤ nth l j d := by
    rw [nth, List.getD_eq_getElem?_getD]
    cases h : l[j]? with
    | none => exact hd
    | some x => exact hl x (List.mem_of_getElem? h)
  unfold pattern
  split
  · exact least _ _ _ (by decide) (by decide)
  · split
    · exact least _ _ _ (by decide) (by decide)
    · exact least _ _ _ (by decide) (by decide)

/-- The command may start something on slice `k` of converter `c`. -/
structure ConvReady (s : State) (c k : Fin 4) (i : ConvImg) : Prop where
  img  : s.convImg c.val = some i
  on   : s.fieldOn = true
  mode : convMode i ≠ 0
  live : (s.conv c.val).failed = false
  use  : (s.conv c.val).retired.contains k.val = false

section
variable {s : State} {c k : Fin 4} {i : ConvImg}

theorem execConversionStart_eq (ready : ConvReady s c k i) : execConversionStart c k s = .next
    (match (s.conv c.val).starts i k.val s.tb with
      | none => s
      | some (kind, slot, cut, w) =>
        let t := s.setConv c.val (w.start_ i c.val slot s.tb kind cut)
        if w.run.isEmpty && ((w.start_ i c.val slot s.tb kind cut).run.any fun x => x.brk) then t.closeBlock c.val
        else t) := by
  obtain ⟨img, on, mode, live, use⟩ := ready
  unfold execConversionStart
  rw [img]
  dsimp only
  have ready : ¬(!s.fieldOn || (s.conv c.val).failed || decide (convMode i = 0) ||
      (s.conv c.val).retired.contains k.val) = true := by
    simp only [on, live, mode, use]
    decide
  exact congrArg Host.Outcome.next (if_neg ready)

theorem execConversionStart_waits (ready : ConvReady s c k i)
    (still : (s.conv c.val).starts i k.val s.tb = none) : execConversionStart c k s = .next s := by
  rw [execConversionStart_eq ready, still]

/-- The converter takes up the conversion; its block may close (R235). -/
theorem execConversionStart_starts (ready : ConvReady s c k i) (ok : Tab.ok .start s.cnv.convs = true) {kind : ConvKind}
    {slot : Nat} {cut : Option Nat} {w : Cnv1}
    (begins : (s.conv c.val).starts i k.val s.tb = some (kind, slot, cut, w)) :
    ∃ u, execConversionStart c k s = .next u ∧
      Blocks c.val (s.setConv c.val (w.start_ i c.val slot s.tb kind cut)) u := by
  have ok1 : Tab.ok .start (s.setConv c.val (w.start_ i c.val slot s.tb kind cut)).cnv.convs = true := Tab.ok_set _ _ ok
  refine ⟨_, (execConversionStart_eq ready).trans (by rw [begins]), ?_⟩
  dsimp only
  split
  · exact closeBlock_blocks ok1
  · exact .refl ok1

/-- The converter after such a start, block and pulls apart. -/
theorem Blocks.started {n : Nat} {w : Cnv1} {u : State} (ok : Tab.ok .start s.cnv.convs = true)
    (h : Blocks n (s.setConv n w) u) : u = { s with cnv := u.cnv } ∧ (u.conv n).sampling = w.sampling ∧
      ∀ j, j ≠ n → u.conv j = s.conv j :=
  ⟨h.cnv, by rw [h.own, conv_setConv ok],
    fun j hj => (h.others j hj).trans ((conv_setConv_of ok n j w).trans (if_neg hj))⟩

/-- A list entry starts. -/
theorem execConversionStart_list (ready : ConvReady s c k i) (ok : Tab.ok .start s.cnv.convs = true) {e : Nat}
    (picked : (s.conv c.val).pick i = some (.list e)) (free : ∀ x ∈ (s.conv c.val).run, x.slice ≠ k.val)
    (due : (s.conv c.val).release = true ∨ ∀ t, (s.conv c.val).startAt = some t →
      t + pattern (s.conv c.val).slices (s.conv c.val).phase ≤ s.tb) :
    ∃ u x, execConversionStart c k s = .next u ∧ u = { s with cnv := u.cnv } ∧
      (u.conv c.val).run = (s.conv c.val).run ++ [x] ∧ x.slice = k.val ∧ x.started = s.tb ∧ x.kind = .list e ∧
      x.ch = 8 * c.val + bf (nth i.list e 0) 2 0 ∧ (u.conv c.val).startAt = some s.tb ∧
      (u.conv c.val).next = (e + 1) % convLen i ∧ (u.conv c.val).release = false ∧
      (u.conv c.val).urgent = (s.conv c.val).urgent ∧
      (∃ ph, (u.conv c.val).urgFrom =
        if (convMode i == 2 && bitOf (nth i.list e 0) 4 && !(s.conv c.val).urgent.isEmpty) = true
        then s.tb + pattern (s.conv c.val).slices ph else (s.conv c.val).urgFrom) ∧
      ∀ j, j ≠ c.val → u.conv j = s.conv j := by
  obtain ⟨u, run, blocks⟩ := execConversionStart_starts ready ok (starts_list picked free due)
  obtain ⟨frame, own, others⟩ := blocks.started ok
  exact ⟨u, _, run, frame, (congrArg Cnv1.run own :), rfl, rfl, rfl, rfl, (congrArg Cnv1.startAt own :),
    (congrArg Cnv1.next own :), (congrArg Cnv1.release own :), (congrArg Cnv1.urgent own :),
    ⟨_, (congrArg Cnv1.urgFrom own :)⟩, others⟩

/-- An urgent request starts (R174). -/
theorem execConversionStart_urgent (ready : ConvReady s c k i) (ok : Tab.ok .start s.cnv.convs = true) {ch : Nat}
    {re : Bool} {l : List (Nat × Bool)} (picked : (s.conv c.val).pick i = some (askedKind re))
    (asked : (s.conv c.val).urgent = (ch, re) :: l) (due : (s.conv c.val).urgFrom ≤ s.tb)
    (new : (s.conv c.val).startAt ≠ some s.tb)
    (free : ∀ x ∈ (s.conv c.val).left s.tb, x.slice ≠ (s.conv c.val).slotFor s.tb k.val)
    (room : convMode i ≠ 2 ∨ ((s.conv c.val).left s.tb).length + 1 < (s.conv c.val).slices) :
    let v := s.conv c.val
    ∃ u x, execConversionStart c k s = .next u ∧ u = { s with cnv := u.cnv } ∧
      (u.conv c.val).run = v.left s.tb ++ [x] ∧ x.slice = v.slotFor s.tb k.val ∧ x.started = s.tb ∧
      x.ch = 8 * c.val + ch ∧ x.diag = false ∧ x.kind = askedKind re ∧ (u.conv c.val).urgent = l ∧
      (u.conv c.val).urgFrom = s.tb + pattern v.slices 0 ∧
      (u.conv c.val).recheck = (if re = true then (v.recheck + 1) % 256 else v.recheck) ∧
      (u.conv c.val).engine = (if re = true then v.engine else (v.engine + 1) % 65536) ∧
      ∀ y e, v.abortable s.tb = some y → y.kind = .list e → (u.conv c.val).next = e % convLen i := by
  obtain ⟨cut, begins⟩ := starts_urgent picked due new free room
  obtain ⟨n, b, r, eq, repeats⟩ := abortFor_eq (v := s.conv c.val) (i := i) (now := s.tb)
  rw [eq] at begins
  obtain ⟨u, run, blocks⟩ := execConversionStart_starts ready ok begins
  obtain ⟨frame, own, -⟩ := blocks.started ok
  have first : ((s.conv c.val).urgent.head?.map Prod.fst).getD 0 = ch := by rw [asked]; rfl
  have rest : (s.conv c.val).urgent.drop 1 = l := by rw [asked]; rfl
  cases re
  all_goals exact ⟨u, _, run, frame, (congrArg Cnv1.run own :), rfl, rfl, congrArg (8 * c.val + ·) first, rfl, rfl,
    (congrArg Cnv1.urgent own).trans rest, (congrArg Cnv1.urgFrom own :), (congrArg Cnv1.recheck own :),
    (congrArg Cnv1.engine own :), fun y e hy he => (congrArg Cnv1.next own).trans (repeats y e hy he)⟩

end

end Sys2Proof.Machine

/-! CONVERSION_RESULT (R172, R177, R178, R180, R183): how a result is judged, and what it makes of its channel and its
converter. -/

namespace Sys2Proof.Machine

/-! ### The command -/

/-- The oldest conversion has completed on its slice, with the coefficients that the slice then has. -/
def Cnv1.completed (v : Cnv1) (k : Conv) (rest : List Conv) (x : Sample) : Cnv1 :=
  { v with run := rest
           coefs := match x.coef with
             | some q => Tab.set .unity v.coefs k.slice { sofs := q.1, sgain := q.2.1, sskew := q.2.2 }
             | none => v.coefs }

section
variable {s : State} {c : Fin 4} {k : Conv} {rest : List Conv} (x : Sample)

theorem execConversionResult_early (oldest : (s.conv c.val).run = k :: rest) (early : s.tb < k.started + 10) :
    execConversionResult c x s = .next s := by
  unfold execConversionResult
  dsimp only
  rw [oldest]
  exact congrArg Host.Outcome.next (if_pos (by simp [early]))

theorem execConversionResult_eq (oldest : (s.conv c.val).run = k :: rest) (due : k.started + 10 ≤ s.tb)
    (on : s.fieldOn = true) (live : (s.conv c.val).failed = false) : ∃ i, execConversionResult c x s = .next
      (let t := s.setConv c.val ((s.conv c.val).completed k rest x)
       if (x.coef.map coefOk).getD true = true then
         if k.diag = true then t.diagResult c.val k.ch x else t.dataResult c.val k.ch k x
       else (s.setConv c.val (((s.conv c.val).completed k rest x).repeat_ i k)).retireSlice c.val k.slice) := by
  refine ⟨(s.convImg c.val).getD { conv := c.val, cfg := 0, list := [], chans := [] }, ?_⟩
  have ready : ¬(!s.fieldOn || (s.conv c.val).failed || decide (s.tb < k.started + 10)) = true := by
    simp [on, live, due]
  unfold execConversionResult
  dsimp only
  rw [oldest]
  dsimp only
  rw [if_neg ready]
  cases (x.coef.map coefOk).getD true <;> rfl

end

/-! ### Coefficients beyond their limits (R183) -/

section
variable {s : State} {c : Nat}

/-- The converter with its pulls as they now have to be: nothing else of it is planned again (R180). -/
def State.planned (s : State) (c : Nat) (v : Cnv1) : Cnv1 := ((s.convImg c).map fun i => v.aimed i s.tb).getD v

theorem planned_sampling (s : State) (c : Nat) (v : Cnv1) : (s.planned c v).sampling = v.sampling := by
  unfold State.planned
  cases s.convImg c <;> rfl

/-- A slice in service goes out of it, alone or with the converter. -/
theorem retireSlice_cnv (ok : Tab.ok .start s.cnv.convs = true) {k : Nat}
    (used : ¬(s.conv c).retired.contains k = true) :
    ∃ (t : State) (w : Cnv1), Tab.ok .start t.cnv.convs = true ∧ t.cnv.chans = s.cnv.chans ∧
      w.retired = (s.conv c).retired ++ [k] ∧ (s.retireSlice c k).cnv = (t.setConv c w).cnv := by
  unfold State.retireSlice
  dsimp only
  rw [if_neg used]
  have retired : (s.planned c { s.conv c with retired := (s.conv c).retired ++ [k], brk := true }).retired =
      (s.conv c).retired ++ [k] := (congrArg Cnv1.retired (planned_sampling s c _) :)
  unfold State.planned at retired
  generalize ((s.convImg c).map _).getD _ = v at retired ⊢
  have first := record_cnv (s.setConv c v) 0x0501 2 [BitVec.ofNat 8 c, BitVec.ofNat 8 k, 0#8] false none
  split
  · exact ⟨s, v, ok, rfl, retired, first⟩
  · exact ⟨(s.setConv c v).record 0x0501 2 [BitVec.ofNat 8 c, BitVec.ofNat 8 k, 0#8],
      { v with failed := true, run := [], pulls := [] }, by rw [first]; exact Tab.ok_set c v ok,
      (congrArg Cnv.chans first :), retired, record_cnv ..⟩

/-- The slice is out of service, and no channel has changed. -/
theorem retireSlice_retires (ok : Tab.ok .start s.cnv.convs = true) (k : Nat) :
    k ∈ ((s.retireSlice c k).conv c).retired ∧ (s.retireSlice c k).cnv.chans = s.cnv.chans := by
  by_cases out : (s.conv c).retired.contains k = true
  · have same : s.retireSlice c k = s := if_pos out
    rw [same]
    exact ⟨List.contains_iff_mem.1 out, rfl⟩
  · obtain ⟨t, w, okt, chans, retired, cnv⟩ := retireSlice_cnv ok out
    have here : (s.retireSlice c k).conv c = w := by
      rw [State.conv, cnv]
      exact conv_setConv okt c w
    rw [here, retired, cnv]
    exact ⟨List.mem_append_right _ List.mem_cons_self, chans⟩

end

/-! ### An open-wire test (R180) -/

section
variable {s : State} {c n : Nat} (x : Sample)

/-- The judgement of an open-wire test: saturation, or a result too far from the last ordinary one. -/
def State.openWire (s : State) (n : Nat) (x : Sample) : Bool :=
  saturated x (s.chImg n).range || match (s.chan n).ordinary with
    | some o => decide ((s.chImg n).owthr < (resultCode x (s.chImg n).range - o).natAbs)
    | none => false

theorem diagResult_blocks (ok : Tab.ok .start s.cnv.convs = true) :
    Blocks c (s.setChan n { s.chan n with ow := s.openWire n x }) (s.diagResult c n x) := closeBlock_blocks ok

end

/-! ### An ordinary or urgent result (R177, R178, R185) -/

section
variable {s : State} {c n : Nat} {k : Conv} {x : Sample}

/-- The calibrated result of conversion `k` of channel `n`. -/
def State.resultOf (s : State) (n : Nat) (k : Conv) (x : Sample) : Int :=
  (s.calAt n (k.started + 10)).apply (resultCode x (s.chImg n).range) (saturated x (s.chImg n).range)

/-- The result lies outside the band of its channel. -/
def State.isOut (s : State) (n : Nat) (k : Conv) (x : Sample) : Bool := !(s.chImg n).inside (s.resultOf n k x)

/-- The first outside result of an INSIDE channel with CONFIRM asks for a re-check (R178). -/
def State.asksRecheck (s : State) (n : Nat) (k : Conv) (x : Sample) : Bool :=
  s.isOut n k x && !(s.chan n).outside && (s.chImg n).confirm && k.kind != .recheck && !(s.chan n).unconf

/-- The result is that of the re-check for which its channel waits. -/
def State.rechecks (s : State) (n : Nat) (k : Conv) : Bool := k.kind == .recheck && (s.chan n).unconf

/-- The result makes its channel OUTSIDE. -/
def State.goesOut (s : State) (n : Nat) (k : Conv) (x : Sample) : Bool :=
  s.isOut n k x && !(s.chan n).outside && (!(s.chImg n).confirm || s.rechecks n k)

/-- The channel after the result. -/
def State.chanJudged (s : State) (n : Nat) (k : Conv) (x : Sample) : Chan :=
  { s.chan n with
    ordinary := some (resultCode x (s.chImg n).range)
    unconf := if s.asksRecheck n k x then true else if s.rechecks n k then false else (s.chan n).unconf
    outside := if s.goesOut n k x then true
      else if (s.chan n).outside then !(s.chImg n).backIn (s.resultOf n k x) else false }

/-- The requests that wait once a re-check of channel `n` is asked for: before the engines' (R178). -/
def Cnv1.urgentRecheck (v : Cnv1) (n : Nat) : List (Nat × Bool) :=
  v.urgent.filter (fun e => e.2) ++ (n % 8, true) :: v.urgent.filter (fun e => !e.2)

/-- The converter after the result, its block apart. -/
def State.convJudged (s : State) (c n : Nat) (k : Conv) (x : Sample) : Cnv1 :=
  let v := s.conv c
  { v.ask (if s.asksRecheck n k x then v.urgentRecheck n else v.urgent) s.tb with
    seq := (v.seq + 1) % 2 ^ 32
    unconf := if s.rechecks n k && !s.isOut n k x then (v.unconf + 1) % 256 else v.unconf }

/-- The state before the entry joins its block: channel and converter are judged, and a sin/cos pair counts. -/
def State.judged (s : State) (c n : Nat) (k : Conv) (x : Sample) : State :=
  ((s.setChan n (s.chanJudged n k x)).setConv c (s.convJudged c n k x)).scResult n (s.resultOf n k x)

theorem dataResult_eq (s : State) (c n : Nat) (k : Conv) (x : Sample) :
    ∃ e, s.dataResult c n k x = (s.judged c n k x).addEntry c e ∧ e.ch = n ∧ e.oob = s.isOut n k x ∧
      e.value = s.resultOf n k x ∧ e.tick = k.started + 10 ∧ e.fire = s.goesOut n k x :=
  ⟨_, rfl, rfl, rfl, rfl, rfl, rfl⟩

/-- Counting a sin/cos pair changes the pair alone (R191). -/
theorem scResult_frame (s : State) (n : Nat) (v : Int) :
    s.scResult n v = { s with fld := { s.fld with scs := (s.scResult n v).fld.scs } } := by
  unfold State.scResult
  split <;> rfl

theorem judged_cnv (s : State) (c n : Nat) (k : Conv) (x : Sample) : (s.judged c n k x).cnv =
    ((s.setChan n (s.chanJudged n k x)).setConv c (s.convJudged c n k x)).cnv := by
  rw [State.judged, scResult_frame]

theorem judged_lives (s : State) (c n : Nat) (k : Conv) (x : Sample) (q : Side) :
    (s.judged c n k x).lives q = s.lives q := by
  rw [State.judged, scResult_frame]
  cases q <;> rfl

theorem judged_ok (ok : Tab.ok .start s.cnv.convs = true) : Tab.ok .start (s.judged c n k x).cnv.convs = true := by
  rw [judged_cnv]
  exact Tab.ok_set c _ ok

theorem conv_judged (ok : Tab.ok .start s.cnv.convs = true) : (s.judged c n k x).conv c = s.convJudged c n k x := by
  rw [State.conv, judged_cnv]
  exact conv_setConv (s := s.setChan n (s.chanJudged n k x)) ok c _

theorem chan_judged (ok : Tab.ok .start s.cnv.chans = true) (j : Nat) :
    (s.judged c n k x).chan j = if j = n then s.chanJudged n k x else s.chan j := by
  rw [State.chan, judged_cnv]
  exact chan_setChan ok n j _

theorem dataResult_blocks (ok : Tab.ok .start s.cnv.convs = true) :
    Blocks c (s.judged c n k x) (s.dataResult c n k x) := by
  obtain ⟨e, eq, -⟩ := dataResult_eq s c n k x
  rw [eq]
  exact addEntry_blocks (judged_ok ok) e

/-- An entry that made its channel OUTSIDE leaves in a block with FIRE, where none is in formation or waits (R179). -/
theorem dataResult_fires (ok : Tab.ok .start s.cnv.convs = true) (goes : s.goesOut n k x = true)
    (empty : (s.conv c).form = []) (freeA : (s.conv c).waitA = false) (freeB : (s.conv c).waitB = false)
    (live : s.lives .a = true) :
    ∃ f e, (s.dataResult c n k x).cnv.flyA = s.cnv.flyA ++ [f] ∧ f.conv = c ∧ f.blk.fire = true ∧ f.blk.entries = [e] ∧
      e.ch = n ∧ e.value = s.resultOf n k x ∧ e.oob = s.isOut n k x ∧ e.tick = k.started + 10 := by
  obtain ⟨e, eq, ch, oob, value, tick, fire⟩ := dataResult_eq s c n k x
  have here := conv_judged (c := c) (n := n) (k := k) (x := x) ok
  have sent := addEntry_fires (judged_ok ok) e (fire.trans goes) ((congrArg Cnv1.form here).trans empty)
    ((congrArg Cnv1.waitA here).trans freeA) ((congrArg Cnv1.waitB here).trans freeB)
    ((judged_lives s c n k x .a).trans live)
  refine ⟨{ conv := c, blk := blockOf [{ e with brk := e.brk || false }], begun := false }, _, ?_, rfl,
    fire.trans goes, rfl, ch, value, oob, tick⟩
  rw [eq, sent, judged_cnv]
  rfl

/-! ### The judgement of a channel -/

/-- Without CONFIRM a result beyond the band makes the channel OUTSIDE, and one within the hysteresis INSIDE (R177). -/
theorem chanJudged_unconfirmed (confirm : (s.chImg n).confirm = false) : (s.chanJudged n k x).outside =
    if (s.chan n).outside = true then !(s.chImg n).backIn (s.resultOf n k x)
    else !(s.chImg n).inside (s.resultOf n k x) := by
  cases out : (s.chan n).outside <;> simp [State.chanJudged, State.goesOut, State.isOut, confirm, out]

theorem goesOut_unconfirmed (confirm : (s.chImg n).confirm = false) (was : (s.chan n).outside = false)
    (out : (s.chImg n).inside (s.resultOf n k x) = false) : s.goesOut n k x = true ∧ s.isOut n k x = true := by
  simp [State.goesOut, State.isOut, confirm, was, out]

/-- R178: the first outside result with CONFIRM. -/
theorem judged_first (confirm : (s.chImg n).confirm = true) (was : (s.chan n).outside = false)
    (kind : k.kind ≠ .recheck) (unconf : (s.chan n).unconf = false) (out : (s.chImg n).inside (s.resultOf n k x) = false) :
    (s.chanJudged n k x).unconf = true ∧ (s.chanJudged n k x).outside = false ∧
    (s.convJudged c n k x).urgent = (s.conv c).urgentRecheck n := by
  have asks : s.asksRecheck n k x = true := by simp [State.asksRecheck, State.isOut, confirm, was, kind, unconf, out]
  have stays : s.goesOut n k x = false := by simp [State.goesOut, State.rechecks, confirm, unconf]
  refine ⟨by rw [State.chanJudged, asks]; rfl, by rw [State.chanJudged, stays, was]; rfl, ?_⟩
  rw [State.convJudged, asks]
  rfl

/-- R178: the re-check makes the channel OUTSIDE, or counts as unconfirmed. -/
theorem judged_recheck (was : (s.chan n).outside = false) (kind : k.kind = .recheck)
    (unconf : (s.chan n).unconf = true) :
    (s.chanJudged n k x).unconf = false ∧
    (s.chanJudged n k x).outside = !(s.chImg n).inside (s.resultOf n k x) ∧
    ((s.chImg n).inside (s.resultOf n k x) = true → (s.convJudged c n k x).unconf = ((s.conv c).unconf + 1) % 256) := by
  have waited : s.rechecks n k = true := by simp [State.rechecks, kind, unconf]
  have asks : s.asksRecheck n k x = false := by simp [State.asksRecheck, unconf]
  have goes : s.goesOut n k x = !(s.chImg n).inside (s.resultOf n k x) := by
    simp [State.goesOut, State.isOut, was, waited]
  refine ⟨by rw [State.chanJudged, asks, waited]; rfl, ?_, fun back => ?_⟩
  · rw [State.chanJudged, goes, was]
    cases (s.chImg n).inside (s.resultOf n k x) <;> rfl
  · rw [State.convJudged, State.isOut, waited, back]
    rfl

end

end Sys2Proof.Machine

/-! BLOCK_CLOSE, HOLD_BACK_END, REFERENCE_CHECK and STALE (R182, R183, R235, R236). -/

namespace Sys2Proof.Machine

section
variable {s : State} {c : Fin 4}

/-! ### BLOCK_CLOSE (R235) -/

theorem execBlockClose_eq (on : s.fieldOn = true) {e : Entry} {l : List Entry} (form : (s.conv c.val).form = e :: l) :
    execBlockClose c s = .next (if e.tick + 300 ≤ s.tb then s.closeBlock c.val else s) := by
  simp [execBlockClose, form, on]

/-- The block goes to the links of the running sequencers once 1.5 µs have passed. -/
theorem execBlockClose_sends (on : s.fieldOn = true) (ok : Tab.ok .start s.cnv.convs = true) {e : Entry}
    {l : List Entry} (form : (s.conv c.val).form = e :: l) (due : e.tick + 300 ≤ s.tb)
    (freeA : (s.conv c.val).waitA = false) (freeB : (s.conv c.val).waitB = false) :
    ∃ u, execBlockClose c s = .next u ∧ u = { s with cnv := u.cnv } ∧
      u.cnv.flyA = (if s.lives .a = true then s.cnv.flyA ++ [s.closing c.val] else s.cnv.flyA) ∧
      u.cnv.flyB = (if s.lives .b = true then s.cnv.flyB ++ [s.closing c.val] else s.cnv.flyB) ∧
      (u.conv c.val).form = (cutBlock 0 (s.conv c.val).form).2 ∧ (u.conv c.val).run = (s.conv c.val).run := by
  obtain ⟨flyA, flyB, rest⟩ := closeBlock_sent ok (by rw [form]; exact List.cons_ne_nil _ _) freeA freeB
  have blocks := closeBlock_blocks (c := c.val) ok
  exact ⟨_, (execBlockClose_eq on form).trans (by rw [if_pos due]), blocks.cnv, flyA, flyB, rest, blocks.run⟩

/-! ### HOLD_BACK_END (R236) -/

theorem execHoldBackEnd_waits (waits : s.mayBegin c.val .a (s.conv c.val).waitA = false ∨
    s.mayBegin c.val .b (s.conv c.val).waitB = false) : execHoldBackEnd c s = .next s := by
  refine congrArg Host.Outcome.next (if_pos ?_)
  obtain waits | waits := waits <;> simp [waits]

/-- The blocks of converter `c` have begun transmission, and it waits for no link. -/
def State.resumed (s : State) (c : Nat) (v : Cnv1) : State :=
  ({ s with cnv := { s.cnv with flyA := begin_ c s.cnv.flyA, flyB := begin_ c s.cnv.flyB } } : State).setConv c v

theorem execHoldBackEnd_eq (on : s.fieldOn = true) (mayA : s.mayBegin c.val .a (s.conv c.val).waitA = true)
    (mayB : s.mayBegin c.val .b (s.conv c.val).waitB = true)
    (waits : ((s.conv c.val).waitA || (s.conv c.val).waitB || (s.conv c.val).heldBack) = true) :
    let w := { s.conv c.val with waitA := false, waitB := false, heldBack := false }
    execHoldBackEnd c s = .next (if (s.conv c.val).heldBack = true
      then (s.resumed c.val (s.planned c.val w)).closeBlock c.val else s.resumed c.val w) := by
  have ready : ¬(!s.fieldOn || !((s.conv c.val).waitA || (s.conv c.val).waitB || (s.conv c.val).heldBack) ||
      !s.mayBegin c.val .a (s.conv c.val).waitA || !s.mayBegin c.val .b (s.conv c.val).waitB) = true := by
    rw [on, waits, mayA, mayB]
    decide
  refine congrArg Host.Outcome.next ((if_neg ready).trans ?_)
  cases (s.conv c.val).heldBack <;> rfl

/-- What a hold-back leaves of the converter once it is over. -/
theorem planned_waits (s : State) (n : Nat) (v : Cnv1) :
    (s.planned n v).form = v.form ∧ (s.planned n v).waitA = v.waitA ∧ (s.planned n v).waitB = v.waitB ∧
    (s.planned n v).heldBack = v.heldBack := by
  unfold State.planned
  cases s.convImg n <;> exact ⟨rfl, rfl, rfl, rfl⟩

/-- A held back converter resumes and sends what it held (R236). -/
theorem execHoldBackEnd_resumes (on : s.fieldOn = true) (ok : Tab.ok .start s.cnv.convs = true)
    (mayA : s.mayBegin c.val .a (s.conv c.val).waitA = true) (mayB : s.mayBegin c.val .b (s.conv c.val).waitB = true)
    (held : (s.conv c.val).heldBack = true) :
    ∃ u, execHoldBackEnd c s = .next u ∧ u = { s with cnv := u.cnv } ∧
      ((s.conv c.val).form = [] → (u.conv c.val).heldBack = false ∧ (u.conv c.val).waitA = false ∧
        (u.conv c.val).waitB = false ∧ u.cnv.flyA = begin_ c.val s.cnv.flyA) ∧
      ((s.conv c.val).form ≠ [] → s.lives .a = true →
        u.cnv.flyA = begin_ c.val s.cnv.flyA ++ [s.closing c.val] ∧
        (u.conv c.val).form = (cutBlock 0 (s.conv c.val).form).2) := by
  have run := execHoldBackEnd_eq on mayA mayB (by rw [held, Bool.or_true])
  dsimp only at run
  rw [if_pos held] at run
  obtain ⟨form, freeA, freeB, free⟩ := planned_waits s c.val
    { s.conv c.val with waitA := false, waitB := false, heldBack := false }
  generalize s.planned c.val { s.conv c.val with waitA := false, waitB := false, heldBack := false } = w at *
  have ok1 : Tab.ok .start (s.resumed c.val w).cnv.convs = true := Tab.ok_set _ _ ok
  have here : (s.resumed c.val w).conv c.val = w := Tab.get_set ok _ _ w |>.trans (if_pos rfl)
  refine ⟨_, run, (closeBlock_blocks ok1).cnv.trans rfl, fun empty => ?_, fun filled live => ?_⟩
  · rw [closeBlock_empty (by rw [here, form]; exact empty), here]
    exact ⟨free, freeA, freeB, rfl⟩
  · obtain ⟨flyA, -, rest⟩ := closeBlock_sent ok1 (by rw [here, form]; exact filled) (by rw [here, freeA])
      (by rw [here, freeB])
    rw [flyA, rest, State.closing, here, form]
    exact ⟨if_pos live, rfl⟩

/-! ### REFERENCE_CHECK (R183) -/

/-- The reference check is due: 1 ms have passed since the last one. -/
def Cnv1.RefDue (v : Cnv1) (now : Nat) : Prop := ∀ t, v.refAt = some t → t + 200000 ≤ now

theorem execReferenceCheck_eq (d : Nat) (on : s.fieldOn = true) (due : (s.conv c.val).RefDue s.tb) :
    execReferenceCheck c d s = .next
      (let v := { s.conv c.val with refAt := some s.tb }
       if d ≤ 20 ∨ v.failed = true then s.setConv c.val v
       else (s.setConv c.val { v with reffail := true, failed := true, run := [], pulls := [] }).record 0x0501 2
          [BitVec.ofNat 8 c.val, 0xFF#8, 1#8]) := by
  unfold execReferenceCheck
  dsimp only
  rw [if_neg]
  cases last : (s.conv c.val).refAt with
  | none => simp [on]
  | some t => simp [on, due t last]

theorem execReferenceCheck_good {d : Nat} (on : s.fieldOn = true) (due : (s.conv c.val).RefDue s.tb) (near : d ≤ 20) :
    execReferenceCheck c d s = .next (s.setConv c.val { s.conv c.val with refAt := some s.tb }) :=
  (execReferenceCheck_eq d on due).trans (congrArg Host.Outcome.next (if_pos (.inl near)))

/-- Beyond 0.2 % the converter has failed. -/
theorem execReferenceCheck_fails {d : Nat} (on : s.fieldOn = true) (due : (s.conv c.val).RefDue s.tb) (far : 20 < d)
    (live : (s.conv c.val).failed = false) (ok : Tab.ok .start s.cnv.convs = true) :
    ∃ u, execReferenceCheck c d s = .next u ∧ (u.conv c.val).failed = true ∧ (u.conv c.val).reffail = true ∧
      (u.conv c.val).run = [] ∧ ∀ j, j ≠ c.val → u.conv j = s.conv j := by
  have bad : ¬(d ≤ 20 ∨ (s.conv c.val).failed = true) := by simp [live, far]
  let w : Cnv1 := { s.conv c.val with refAt := some s.tb, reffail := true, failed := true, run := [], pulls := [] }
  have all (j : Nat) : ((s.setConv c.val w).record 0x0501 2 [BitVec.ofNat 8 c.val, 0xFF#8, 1#8]).conv j =
      if j = c.val then w else s.conv j := by
    rw [State.conv, record_cnv]
    exact conv_setConv_of ok c.val j w
  have here := (all c.val).trans (if_pos rfl)
  exact ⟨_, (execReferenceCheck_eq d on due).trans (congrArg Host.Outcome.next (if_neg bad)),
    congrArg Cnv1.failed here, congrArg Cnv1.reffail here, congrArg Cnv1.run here,
    fun j hj => (all j).trans (if_neg hj)⟩

end

/-! ### STALE (R182) -/

section
variable {s : State} {ch : Fin 32}

theorem execStale_never (never : (s.chan ch.val).lastAt = none) :
    execStale ch s = .next (s.setChan ch.val { s.chan ch.val with stale := true }) := by
  simp [execStale, State.isStale, never]

theorem execStale_eq {t : Nat} (last : (s.chan ch.val).lastAt = some t) : execStale ch s = .next
    (if t + ticksUs (10 * (s.chImg ch.val).maxage) < s.tb
      then s.setChan ch.val { s.chan ch.val with stale := true } else s) := by
  simp [execStale, State.isStale, last]

end

end Sys2Proof.Machine

/-! Converters sample, check and send (O56). -/

namespace Sys2Proof.Machine

/-! ### The clauses, each by the rule of its command -/

/-- R170, R172: in CONTINUOUS mode with all slices in service the list goes on at the interval of its pattern. -/
theorem conversionStart_continuous {s : State} {c k : Fin 4} {i : ConvImg} {t : Nat} (img : s.convImg c.val = some i)
    (on : s.fieldOn = true) (mode : convMode i = 1) (live : (s.conv c.val).failed = false)
    (all : (s.conv c.val).retired = []) (going : (s.conv c.val).heldBack = false) (idle : (s.conv c.val).urgent = [])
    (unreleased : (s.conv c.val).release = false) (free : ∀ x ∈ (s.conv c.val).run, x.slice ≠ k.val)
    (last : (s.conv c.val).startAt = some t) (ok : Tab.ok .start s.cnv.convs = true) :
    let v := s.conv c.val
    (s.tb < t + nth [33, 33, 34] (v.phase % 3) 33 → execConversionStart c k s = .next s) ∧
    (t + nth [33, 33, 34] (v.phase % 3) 33 ≤ s.tb → ∃ u x,
      execConversionStart c k s = .next u ∧ u = { s with cnv := u.cnv } ∧
      (u.conv c.val).run = v.run ++ [x] ∧
      x.slice = k.val ∧ x.started = s.tb ∧ x.kind = .list v.next ∧
      x.ch = 8 * c.val + bf (nth i.list v.next 0) 2 0 ∧ (u.conv c.val).startAt = some s.tb ∧
      (u.conv c.val).next = (v.next + 1) % convLen i ∧
      ∀ j, j ≠ c.val → u.conv j = s.conv j) := by
  have ready : ConvReady s c k i := ⟨img, on, by omega, live, by rw [all]; rfl⟩
  have picked := pick_list going idle (i := i) fun waits => by rw [Cnv1.Triggered, mode] at waits; omega
  have interval : pattern (s.conv c.val).slices (s.conv c.val).phase =
      nth [33, 33, 34] ((s.conv c.val).phase % 3) 33 := by rw [Cnv1.slices, all]; rfl
  dsimp only
  rw [← interval]
  refine ⟨fun early => execConversionStart_waits ready (starts_early picked unreleased last early), fun due => ?_⟩
  obtain ⟨u, x, run, frame, runs, slice, started, kind, chan, at_, next, -, -, -, others⟩ :=
    execConversionStart_list ready ok picked free (.inr fun t' h => by rw [last] at h; cases h; exact due)
  exact ⟨u, x, run, frame, runs, slice, started, kind, chan, at_, next, others⟩

/-- R176: a triggered entry starts on its release, and without one nothing starts. -/
theorem conversionStart_triggered {s : State} {c k : Fin 4} {i : ConvImg} (ready : ConvReady s c k i)
    (going : (s.conv c.val).heldBack = false) (ok : Tab.ok .start s.cnv.convs = true)
    (waits : (s.conv c.val).Triggered i) :
    let v := s.conv c.val
    (v.release = false → v.urgent = [] → execConversionStart c k s = .next s) ∧
    (v.release = true → (∀ x ∈ v.run, x.slice ≠ k.val) → ∃ u x,
      execConversionStart c k s = .next u ∧ (u.conv c.val).run = v.run ++ [x] ∧
      x.kind = .list v.next ∧ x.started = s.tb ∧ (u.conv c.val).release = false ∧
      (u.conv c.val).urgent = v.urgent ∧
      (v.urgent ≠ [] → s.tb + 33 ≤ (u.conv c.val).urgFrom)) := by
  refine ⟨fun unreleased idle => ?_, fun release free => ?_⟩
  · exact execConversionStart_waits ready (starts_none (pick_waiting going waits unreleased idle))
  · obtain ⟨u, x, run, -, runs, -, started, kind, -, -, -, released, urgent, ⟨ph, from_⟩, -⟩ :=
      execConversionStart_list ready ok (pick_released going waits release) free (.inl release)
    refine ⟨u, x, run, runs, kind, started, released, urgent, fun asked => ?_⟩
    have held : (convMode i == 2 && bitOf (nth i.list (s.conv c.val).next 0) 4 &&
        !(s.conv c.val).urgent.isEmpty) = true := by
      rw [waits_iff.2 waits]
      simpa using asked
    rw [from_, if_pos held]
    exact Nat.add_le_add_left (pattern_least _ _) _

section
variable {s : State} {c : Fin 4} {k : Conv} {rest : List Conv} {x : Sample}

/-- A result that is taken, on a converter whose oldest conversion it completes. -/
structure Samples (s : State) (c : Fin 4) (k : Conv) (rest : List Conv) (x : Sample) : Prop where
  oldest : (s.conv c.val).run = k :: rest
  convs  : Tab.ok .start s.cnv.convs = true
  chans  : Tab.ok .start s.cnv.chans = true
  due    : k.started + 10 ≤ s.tb
  on     : s.fieldOn = true
  live   : (s.conv c.val).failed = false
  coefs  : (x.coef.map coefOk).getD true = true

/-- The state in which the result is judged. -/
def State.sampled (s : State) (c : Nat) (k : Conv) (rest : List Conv) (x : Sample) : State :=
  s.setConv c ((s.conv c).completed k rest x)

theorem conv_sampled (h : Samples s c k rest x) :
    (s.sampled c.val k rest x).conv c.val = (s.conv c.val).completed k rest x := conv_setConv h.convs _ _

/-- What the judgement makes of the converter is the same before the conversion has left it. -/
theorem convJudged_sampled (h : Samples s c k rest x) (n : Nat) :
    ((s.sampled c.val k rest x).convJudged c.val n k x).run = rest ∧
    ((s.sampled c.val k rest x).convJudged c.val n k x).urgent = (s.convJudged c.val n k x).urgent ∧
    ((s.sampled c.val k rest x).convJudged c.val n k x).unconf = (s.convJudged c.val n k x).unconf := by
  unfold State.convJudged
  rw [conv_sampled h]
  exact ⟨rfl, rfl, rfl⟩

/-- R180: an open-wire test judges its channel open-wire alone. -/
theorem conversionResult_diag (h : Samples s c k rest x) (diag : k.diag = true) :
    ∃ u, execConversionResult c x s = .next u ∧ (u.conv c.val).run = rest ∧
      ∀ n, u.chan n = if n = k.ch then { s.chan k.ch with ow := s.openWire k.ch x } else s.chan n := by
  obtain ⟨i, run⟩ := execConversionResult_eq x h.oldest h.due h.on h.live
  dsimp only at run
  rw [if_pos h.coefs, if_pos diag] at run
  have blocks := diagResult_blocks (s := s.sampled c.val k rest x) (c := c.val) (n := k.ch) x (Tab.ok_set _ _ h.convs)
  refine ⟨_, run, ?_, fun n => ?_⟩
  · exact blocks.run.trans (congrArg Cnv1.run (conv_sampled h))
  · exact (blocks.chan n).trans (chan_setChan (s := s.sampled c.val k rest x) h.chans k.ch n _)

/-- Another result judges its channel and its converter as the rules of R177 and R178 say, and may leave at once. -/
theorem conversionResult_data (h : Samples s c k rest x) (data : k.diag = false) :
    ∃ u, execConversionResult c x s = .next u ∧ (u.conv c.val).run = rest ∧
      (u.conv c.val).urgent = (s.convJudged c.val k.ch k x).urgent ∧
      (u.conv c.val).unconf = (s.convJudged c.val k.ch k x).unconf ∧
      (∀ n, u.chan n = if n = k.ch then s.chanJudged k.ch k x else s.chan n) ∧
      (s.goesOut k.ch k x = true → (s.conv c.val).form = [] → (s.conv c.val).waitA = false →
        (s.conv c.val).waitB = false → s.lives .a = true →
        ∃ f e, u.cnv.flyA = s.cnv.flyA ++ [f] ∧ f.conv = c.val ∧ f.blk.fire = true ∧ f.blk.entries = [e] ∧
          e.ch = k.ch ∧ e.value = s.resultOf k.ch k x ∧ e.oob = s.isOut k.ch k x ∧ e.tick = k.started + 10) := by
  obtain ⟨i, run⟩ := execConversionResult_eq x h.oldest h.due h.on h.live
  dsimp only at run
  rw [if_pos h.coefs, if_neg (Bool.eq_false_iff.1 data)] at run
  have ok : Tab.ok .start (s.sampled c.val k rest x).cnv.convs = true := Tab.ok_set _ _ h.convs
  have here := conv_sampled h
  have blocks := dataResult_blocks (c := c.val) (n := k.ch) (k := k) (x := x) ok
  have own := blocks.own.trans (congrArg Cnv1.sampling (conv_judged ok))
  obtain ⟨runs, urgent, unconf⟩ := convJudged_sampled h k.ch
  refine ⟨_, run, (congrArg Cnv1.run own).trans runs, (congrArg Cnv1.urgent own).trans urgent,
    (congrArg Cnv1.unconf own).trans unconf, fun n => ?_, fun goes empty freeA freeB live => ?_⟩
  · exact (blocks.chan n).trans (chan_judged (s := s.sampled c.val k rest x) h.chans n)
  · exact dataResult_fires ok goes ((congrArg Cnv1.form here).trans empty) ((congrArg Cnv1.waitA here).trans freeA)
      ((congrArg Cnv1.waitB here).trans freeB) live

/-- R183: coefficients beyond their limits retire the slice; no channel takes the result. -/
theorem conversionResult_retires (oldest : (s.conv c.val).run = k :: rest) (ok : Tab.ok .start s.cnv.convs = true)
    (due : k.started + 10 ≤ s.tb) (on : s.fieldOn = true) (live : (s.conv c.val).failed = false) {q : Int × Nat × Int}
    (coef : x.coef = some q) (bad : coefOk q = false) :
    ∃ u, execConversionResult c x s = .next u ∧ k.slice ∈ (u.conv c.val).retired ∧ u.cnv.chans = s.cnv.chans := by
  obtain ⟨i, run⟩ := execConversionResult_eq x oldest due on live
  dsimp only at run
  rw [if_neg (by simp [coef, bad])] at run
  exact ⟨_, run, retireSlice_retires (Tab.ok_set _ _ ok) k.slice⟩

end

/-- Settles O56: clause by clause, each command by its own rule. -/
theorem convertersSampleAndCheck : Obligations.ConvertersSampleAndCheck := by
  unfold Obligations.ConvertersSampleAndCheck
  refine ⟨fun s c k i t img on mode => ?continuous, fun s c k i img on mode => ?urgent,
    fun s c k rest x oldest convs chans => ?result, fun s c on => ?block, fun s ch => ?stale⟩
  case continuous =>
    intro v live all going idle unreleased free last ok
    exact conversionStart_continuous img on mode live all going idle unreleased free last ok
  case urgent =>
    intro v live use going ok triggered
    have ready : ConvReady s c k i := ⟨img, on, mode, live, use⟩
    refine ⟨fun ch re l asked unreleased => ?_, conversionStart_triggered ready going ok⟩
    have picked := pick_urgent going asked unreleased
    exact ⟨fun early => execConversionStart_waits ready (starts_urgent_early picked early),
      fun due new free room => execConversionStart_urgent ready ok picked asked due new free room⟩
  case result =>
    intro i raw
    refine ⟨execConversionResult_early x oldest, fun due on live coefs => ?taken,
      fun due on live q coef bad => conversionResult_retires oldest convs due on live coef bad⟩
    have samples : Samples s c k rest x := ⟨oldest, convs, chans, due, on, live, coefs⟩
    cases diag : k.diag with
    | true =>
      obtain ⟨u, run, runs, chan⟩ := conversionResult_diag samples diag
      exact ⟨u, run, runs, fun n hn => (chan n).trans (if_neg hn), fun _ => (chan k.ch).trans (if_pos rfl),
        nofun⟩
    | false =>
      obtain ⟨u, run, runs, urgent, count, chan, fires⟩ := conversionResult_data samples diag
      have here : u.chan k.ch = s.chanJudged k.ch k x := (chan k.ch).trans (if_pos rfl)
      refine ⟨u, run, runs, fun n hn => (chan n).trans (if_neg hn), nofun, fun _ => ?_⟩
      intro v
      rw [here]
      refine ⟨rfl, chanJudged_unconfirmed, ?fire, ?first, ?recheck⟩
      case fire =>
        intro confirm was out form freeA freeB live
        obtain ⟨goes, isOut⟩ := goesOut_unconfirmed confirm was out
        obtain ⟨f, e, flies, conv, fire, entries, ch, value, oob, tick⟩ := fires goes form freeA freeB live
        exact ⟨f, e, flies, conv, fire, entries, ch, value, oob.trans isOut, tick⟩
      case first =>
        intro confirm was kind unconf out
        obtain ⟨asks, stays, requests⟩ := judged_first (c := c.val) confirm was kind unconf out
        exact ⟨asks, stays, urgent.trans requests⟩
      case recheck =>
        intro confirm was kind unconf
        obtain ⟨done, outside, counts⟩ := judged_recheck (c := c.val) (x := x) was kind unconf
        exact ⟨done, outside, fun back => count.trans (counts back)⟩
  case block =>
    intro v block begun
    refine ⟨fun e l form => ⟨fun early => ?_, fun due freeA freeB ok => ?_⟩,
      ⟨execHoldBackEnd_waits, fun mayA mayB => ⟨fun waits going => ?_, fun held ok => ?_⟩⟩, fun due d => ⟨?_, ?_⟩⟩
    · exact (execBlockClose_eq on form).trans (congrArg Host.Outcome.next (if_neg (Nat.not_le.2 early)))
    · exact execBlockClose_sends on ok form due freeA freeB
    · have waiting : (v.waitA || v.waitB || v.heldBack) = true := by
        rw [going, Bool.or_false, Bool.or_eq_true]
        exact waits
      exact (execHoldBackEnd_eq on mayA mayB waiting).trans
        (congrArg Host.Outcome.next (if_neg (Bool.eq_false_iff.1 going)))
    · exact execHoldBackEnd_resumes on ok mayA mayB held
    · exact execReferenceCheck_good on due
    · exact execReferenceCheck_fails on due
  case stale =>
    refine ⟨execStale_never, fun t last => ⟨fun old => ?_, fun fresh => ?_⟩⟩
    · exact (execStale_eq last).trans (congrArg Host.Outcome.next (if_pos old))
    · exact (execStale_eq last).trans (congrArg Host.Outcome.next (if_neg (Nat.not_lt.2 fresh)))

end Sys2Proof.Machine

/-! How an output opens its switches: a change of phase, the entry into FAULTED, silence and the end of a gate-hold
(R218, R225, R227, R229). -/

namespace Sys2Proof.Machine

/-! ### A change of phase -/

/-- What a change of phase leaves of an output: its command, its fault and re-test, and how its holds stand. -/
def FOut.marks (o : FOut) : FOut :=
  { o with phase := .idle, pulse := .none, defer := false, silPend := false, changed := 0, lineA := .start,
           lineB := .start }

section
variable {o v : FOut} (h : v.marks = o.marks)
include h

theorem cause_of_marks : v.cause = o.cause := congrArg (·.cause) h

theorem faultAt_of_marks : v.faultAt = o.faultAt := congrArg (·.faultAt) h

theorem retest_of_marks : v.retest = o.retest := congrArg (·.retest) h

theorem silOpen_of_marks : v.silOpen = o.silOpen := congrArg (·.silOpen) h

theorem holdOver_of_marks : v.holdOver = o.holdOver := congrArg (·.holdOver) h

end

theorem offPhase_open (s : State) (k : Nat) : s.offPhase k ≠ .load := by
  unfold State.offPhase
  dsimp only
  split <;> decide

theorem setPhase_takes (s : State) (k : Nat) (p : Phase) :
    OutputBy k (fun o v => v.marks = o.marks ∧ v.phase = p) s (s.setPhase k p) := by
  unfold State.setPhase
  dsimp only
  split
  · exact (setFout_by ⟨rfl, rfl⟩).thenInputs (State.holdInputs_sansIns ..)
  · exact (setFout_by ⟨rfl, rfl⟩).thenInputs (State.holdInputs_sansIns ..)
  · exact setFout_by ⟨rfl, rfl⟩

/-- An output to which ON does not apply opens, unless silence alone keeps it from ON: then a dark pulse in progress
is completed (Table 9.4). -/
theorem refreshOut_opens (s : State) (k : Nat) : OutputBy k (fun o v => v.marks = o.marks ∧
    (s.wantOn k = false → (o.phase = .load → s.wantLoud k = false) → v.phase ≠ .load)) s (s.refreshOut k) := by
  have takes (t : State) : OutputBy k (fun o v => v.marks = o.marks ∧ v.phase ≠ .load) t (t.setPhase k (t.offPhase k)) :=
    (setPhase_takes t k _).mono fun ⟨marks, phase⟩ => ⟨marks, phase ▸ offPhase_open t k⟩
  unfold State.refreshOut
  dsimp only
  split
  next on =>
    have applies {p : Prop} (off : s.wantOn k = false) : p := by rw [off] at on; cases on
    split
    · exact .of_sansIns rfl ⟨rfl, applies⟩
    · split
      · exact setFout_by ⟨rfl, applies⟩
      · exact (setPhase_takes s k .load).mono fun ⟨marks, _⟩ => ⟨marks, applies⟩
  next =>
    split
    next load =>
      split
      next dark =>
        refine setFout_by ⟨rfl, fun _ silent => ?_⟩
        rw [silent load, Bool.false_and] at dark
        cases dark
      next => exact (takes s).mono fun ⟨marks, opens⟩ => ⟨marks, fun _ _ => opens⟩
    next opened =>
      have undeferred : OutputBy k (fun o v => v.marks = o.marks ∧ v.phase ≠ .load) s
          (if (s.fout k).defer then s.setFout k { s.fout k with defer := false } else s) := by
        split
        · exact setFout_by ⟨rfl, opened⟩
        · exact .of_sansIns rfl ⟨rfl, opened⟩
      split
      · exact undeferred.mono fun ⟨marks, opens⟩ => ⟨marks, fun _ _ => opens⟩
      · exact undeferred.trans (setPhase_takes _ k _) fun ⟨was, _⟩ ⟨marks, phase⟩ =>
          ⟨marks.trans was, fun _ _ => phase ▸ offPhase_open s k⟩

/-! ### What keeps ON from an output -/

section
variable {s : State} {k : Nat}

theorem wantOn_of_quiet (quiet : s.wantLoud k = false) : s.wantOn k = false := by simp [State.wantOn, quiet]

theorem wantOn_of_silent (silent : s.fld.silent.isSome = true) (loud : s.outHold k = false) : s.wantOn k = false := by
  cases since : s.fld.silent with
  | none => simp [since] at silent
  | some t => simp [State.wantOn, since, loud]

theorem wantLoud_of_faulted (faulted : (s.fout k).cause ≠ 0) : s.wantLoud k = false := by
  simp [State.wantLoud, faulted]

/-- Past its gate-hold an output waits for both sequencers, or for the one that runs in SOLO (R225). -/
theorem wantLoud_of_holdOver (cannot : s.canClose = false) (past : (s.fout k).holdOver = true) :
    s.wantLoud k = false := by simp [State.wantLoud, State.gateOn, cannot, past]

theorem canClose_of_alone (stopped : s.lives .a = false) (live : s.lives .b = true) (solo : s.fld.seqB.solo = false) :
    s.canClose = false := by
  unfold State.canClose
  rw [stopped, live]
  exact solo

end

/-! ### The entry into FAULTED (R218) -/

section
variable {s : State} {k cause : Nat}

/-- Output `k` as a condition of Table 9.2 leaves it that makes it FAULTED, its switches apart. -/
def State.faulted (s : State) (k cause : Nat) : FOut :=
  let o := s.fout k
  { o with cause := cause, faultAt := s.tb, phaseWas := o.phase, pulseWas := o.pulse, changedWas := o.changed
           limited := decide (2600 ≤ max o.lineA.mA o.lineB.mA) }

/-- A condition other than FOREIGN makes a sound output FAULTED, and its switches follow. -/
theorem faultOut_sound (slot : Nat) (met : cause ≠ 0) (own : cause ≠ 3) (untested : (s.fout k).retest = none)
    (sound : (s.fout k).cause = 0) : s.faultOut k cause slot =
      ((s.setFout k (s.faulted k cause)).refreshOut k).refreshInputs ((s.setFout k (s.faulted k cause)).expects k) := by
  simp [State.faultOut, State.faulted, met, own, untested, sound]

/-- Output `v` is FAULTED from tick `now` on, and its switches are open; its hold during silence stands
as in `o`. -/
structure FOut.Opened (cause now : Nat) (o v : FOut) : Prop where
  cause : v.cause = cause
  faultAt : v.faultAt = now
  silOpen : v.silOpen = o.silOpen
  opens : v.phase ≠ .load

theorem faultOut_opens (ok : Tab.ok .start s.fld.outs = true) (slot : Nat) (met : cause ≠ 0) (own : cause ≠ 3)
    (untested : (s.fout k).retest = none) (sound : (s.fout k).cause = 0) :
    OutputBy k (FOut.Opened cause s.tb) s (s.faultOut k cause slot) := by
  have here : (s.setFout k (s.faulted k cause)).fout k = s.faulted k cause := (fout_setFout ok k k _).trans (if_pos rfl)
  have quiet : (s.setFout k (s.faulted k cause)).wantLoud k = false :=
    wantLoud_of_faulted (by rw [here]; exact met)
  rw [faultOut_sound slot met own untested sound]
  refine ((setFout_by ⟨rfl, rfl⟩).trans (P := fun o v => v = s.faulted k cause ∧ v.silOpen = o.silOpen)
    (refreshOut_opens _ k) ?_).thenInputs (State.refreshInputs_sansIns ..)
  rintro o _ v ⟨rfl, same⟩ ⟨marks, opens⟩
  exact ⟨cause_of_marks marks, faultAt_of_marks marks, (silOpen_of_marks marks).trans same,
    opens (wantOn_of_quiet quiet) fun _ => quiet⟩

/-- A FAULTED output without a re-test keeps its cause (R218). -/
theorem faultOut_stands (ok : Tab.ok .start s.fld.outs = true) (slot : Nat) (own : cause ≠ 3)
    (untested : (s.fout k).retest = none) (faulted : (s.fout k).cause ≠ 0) (before : (s.fout k).faultAt < s.tb) :
    s.faultOut k cause slot = s := by
  have same : s.setFout k (s.fout k) = s := by
    rw [State.setFout, State.fout, Tab.set_get ok]
  simp [State.faultOut, own, untested, faulted, before.ne, same]

end

/-! ### Silence (R227, R229) -/

/-- Nothing keeps output `o` from opening with silence at once: it is not in LOAD, or it is sound, is under no
re-test, and has no dark pulse in progress. -/
def FOut.Ready (o : FOut) : Prop :=
  o.phase = .load → o.pulse ≠ .dark ∧ o.pulse ≠ .lsDark ∧ o.cause = 0 ∧ o.retest = none

section
variable {s : State} {k : Nat}

/-- In LOAD the output becomes FAULTED with cause SILENCE. -/
theorem silenceOpen_load (load : (s.fout k).phase = .load) (ready : (s.fout k).Ready) :
    s.silenceOpen k = s.faultOut k 11 0 := by
  obtain ⟨dark, lsDark, -, -⟩ := ready load
  simp [State.silenceOpen, load, dark, lsDark]

theorem silenceOpen_opens (ok : Tab.ok .start s.fld.outs = true) (off : s.wantOn k = false)
    (ready : (s.fout k).Ready) : OutputBy k (fun _ v => v.phase ≠ .load) s (s.silenceOpen k) := by
  by_cases load : (s.fout k).phase = .load
  · obtain ⟨-, -, sound, untested⟩ := ready load
    rw [silenceOpen_load load ready]
    exact (faultOut_opens ok 0 (by decide) (by decide) untested sound).mono FOut.Opened.opens
  · have opened : s.silenceOpen k = s.refreshOut k := if_pos load
    refine ⟨opened ▸ (refreshOut_opens s k).rest, fun _ => ?_⟩
    obtain ⟨okT, ⟨-, opens⟩, others⟩ := (refreshOut_opens s k).outs ok
    rw [opened]
    exact ⟨okT, opens off fun h => absurd h load, others⟩

/-- The field side is silent, and output `k` has no HOLD and is ready to open. -/
structure Silenced (s : State) (k : Nat) : Prop where
  outs : Tab.ok .start s.fld.outs = true
  silent : s.fld.silent.isSome = true
  loud : s.outHold k = false
  ready : (s.fout k).Ready

/-- Silence that reaches output `j` leaves output `k` ready or open, and opens it where `j` is `k`. -/
theorem silenceOpen_silenced (h : Silenced s k) (j : Nat) : Silenced (s.silenceOpen j) k ∧
    (j = k ∨ SwitchesOpen s k → SwitchesOpen (s.silenceOpen j) k) := by
  obtain ⟨ok, silent, loud, ready⟩ := h
  have rest := (silenceOpen_by s j).rest
  have silent' : (s.silenceOpen j).fld.silent.isSome = true :=
    (congrArg (·.fld.silent.isSome) rest).trans silent
  have loud' : (s.silenceOpen j).outHold k = false := (congrArg (·.outHold k) rest).trans loud
  obtain ⟨ok', -, others⟩ := (silenceOpen_by s j).outs ok
  by_cases hj : j = k
  · subst hj
    obtain ⟨-, opens, -⟩ := (silenceOpen_opens ok (wantOn_of_silent silent loud) ready).outs ok
    exact ⟨⟨ok', silent', loud', fun load => absurd load opens⟩, fun _ => opens⟩
  · have same := others k (Ne.symm hj)
    refine ⟨⟨ok', silent', loud', same ▸ ready⟩, fun h => ?_⟩
    rw [SwitchesOpen, same]
    exact h.resolve_left hj

theorem foldl_silenceOpen_opens (l : List Nat) (h : Silenced s k) (reached : k ∈ l ∨ SwitchesOpen s k) :
    SwitchesOpen (l.foldl State.silenceOpen s) k := by
  induction l generalizing s with
  | nil => exact reached.resolve_left List.not_mem_nil
  | cons j l ih =>
    obtain ⟨still, opens⟩ := silenceOpen_silenced h j
    refine ih still ?_
    rcases reached with mem | opened
    · exact (List.mem_cons.1 mem).elim (fun here => .inr (opens (.inl here.symm))) .inl
    · exact .inr (opens (.inr opened))

end

end Sys2Proof.Machine

/-! OVERLOAD, READBACK_DISAGREE, SILENCE, HOLD_TIME, GATE_HOLD and RE_TEST_END (R218, R225, R227, R230). -/

namespace Sys2Proof.Machine

section
variable {s : State} {k : Fin 64}

/-! ### Faults (R218) -/

/-- An output has the switch that is meant: a single-pole one has no low side. -/
theorem execOverload_eq {low : Bool} (on : s.fieldOn = true) (has : low = true → s.single k.val = false) :
    execOverload k low s = .next (s.faultOut k.val 8 0) := by
  have meant : (low && s.single k.val) = false := by
    cases low with
    | false => rfl
    | true => exact has rfl
  simp [execOverload, on, meant]

theorem execOverload_opens {low : Bool} (on : s.fieldOn = true) (ok : Tab.ok .start s.fld.outs = true)
    (untested : (s.fout k.val).retest = none) (sound : (s.fout k.val).cause = 0)
    (has : low = true → s.single k.val = false) : ∃ u, execOverload k low s = .next u ∧ FieldOnly s u ∧
      (u.fout k.val).cause = 8 ∧ (u.fout k.val).faultAt = s.tb ∧ SwitchesOpen u k.val ∧
      ∀ j, j ≠ k.val → u.fout j = s.fout j := by
  obtain ⟨-, ⟨cause, at_, -, opens⟩, others⟩ :=
    (faultOut_opens ok 0 (by decide : 8 ≠ 0) (by decide) untested sound).outs ok
  exact ⟨_, execOverload_eq on has, fieldOnly_of_sansOuts (State.faultOut_sansOuts ..), cause, at_, opens, others⟩

theorem execOverload_stands {low : Bool} (on : s.fieldOn = true) (ok : Tab.ok .start s.fld.outs = true)
    (untested : (s.fout k.val).retest = none) (faulted : (s.fout k.val).cause ≠ 0)
    (before : (s.fout k.val).faultAt < s.tb) (has : low = true → s.single k.val = false) :
    execOverload k low s = .next s := by
  rw [execOverload_eq on has, faultOut_stands ok 0 (by decide) untested faulted before]

section
variable {minus : Bool} {t : Nat} (differ : (if minus then (s.fout k.val).disM else (s.fout k.val).disP) = some t)
include differ

theorem execReadbackDisagree_early (early : s.tb < t + 4000000) : execReadbackDisagree k minus s = .next s := by
  have undue : ¬t + 4000000 ≤ s.tb := by omega
  simp [execReadbackDisagree, differ, undue]

theorem execReadbackDisagree_opens (ok : Tab.ok .start s.fld.outs = true) (liveA : s.lives .a = true)
    (liveB : s.lives .b = true) (untested : (s.fout k.val).retest = none) (sound : (s.fout k.val).cause = 0)
    (due : t + 4000000 ≤ s.tb) : ∃ u, execReadbackDisagree k minus s = .next u ∧ FieldOnly s u ∧
      (u.fout k.val).cause = 10 ∧ SwitchesOpen u k.val := by
  have run : execReadbackDisagree k minus s = .next (s.faultOut k.val 10 0) := by
    simp [execReadbackDisagree, FOut.judged, differ, liveA, liveB, sound, due]
  obtain ⟨-, ⟨cause, -, -, opens⟩, -⟩ :=
    (faultOut_opens ok 0 (by decide : 10 ≠ 0) (by decide) untested sound).outs ok
  exact ⟨_, run, fieldOnly_of_sansOuts (State.faultOut_sansOuts ..), cause, opens⟩

end

/-! ### Silence and holds (R225, R227) -/

/-- The field side as it becomes silent. -/
def State.hushed (s : State) : State := { s with fld := { s.fld with silent := some s.tb, silSeq := none } }

section
variable {a : Nat} (accepted : s.fld.accepted = some a) (heard : s.fld.silent = none)
  (live : s.lives .a = true ∨ s.lives .b = true)
include accepted heard

theorem execSilence_early (ticks : s.pwr.osc.stopped = false) (early : s.tb ≤ a + s.silenceTicks) :
    execSilence s = .next s := by
  have undue : ¬a + s.silenceTicks < s.tb := by omega
  simp [execSilence, accepted, heard, ticks, undue]

include live

theorem execSilence_due (due : a + s.silenceTicks < s.tb) : execSilence s =
    .next ((allOuts.filter fun j => !s.hushed.outHold j).foldl State.silenceOpen s.hushed) := by
  have running : (s.lives .a || s.lives .b) = true := by simpa using live
  unfold execSilence
  rw [accepted, heard]
  exact congrArg Host.Outcome.next (if_pos (by simp [running, due]))

theorem execSilence_opens (ok : Tab.ok .start s.fld.outs = true) (due : a + s.silenceTicks < s.tb) :
    ∃ u, execSilence s = .next u ∧ FieldOnly s u ∧ u.fld.silent = some s.tb ∧
      ∀ j, j < 64 → s.outHold j = false → (s.fout j).Ready → SwitchesOpen u j := by
  have rest (l : List Nat) : (l.foldl State.silenceOpen s.hushed).sansOuts = s.hushed.sansOuts :=
    foldl_sansOuts (fun b j => (silenceOpen_by b j).rest) l _
  refine ⟨_, execSilence_due accepted heard live due, ?_, congrArg (·.fld.silent) (rest _), ?_⟩
  · exact fieldOnly_trans (t := s.hushed) rfl (fieldOnly_of_sansOuts (rest _))
  · intro j hj loud ready
    exact foldl_silenceOpen_opens _ ⟨ok, rfl, loud, ready⟩
      (.inl (List.mem_filter.2 ⟨List.mem_range.2 hj, congrArg not loud⟩))

end

/-- The state in which the hold of output `k` during silence has ended. -/
def State.unheld (s : State) (k : Nat) : State := s.updFout k fun o => { o with silOpen := true }

theorem execHoldTime_opens {t : Nat} (silent : s.fld.silent = some t) (hold : s.outHold k.val = true)
    (held : (s.fout k.val).silOpen = false) (live : s.lives .a = true)
    (due : t + ticksMs (10 * bf (s.ocfg k.val) 9 0) ≤ s.tb) (ok : Tab.ok .start s.fld.outs = true)
    (load : (s.fout k.val).phase = .load) (ready : (s.fout k.val).Ready) : ∃ u, execHoldTime k s = .next u ∧
      FieldOnly s u ∧ (u.fout k.val).silOpen = true ∧ SwitchesOpen u k.val ∧ (u.fout k.val).cause = 11 := by
  have run : execHoldTime k s = .next ((s.unheld k.val).silenceOpen k.val) := by
    simp [execHoldTime, State.unheld, silent, hold, held, live, due]
  have here : (s.unheld k.val).fout k.val = { s.fout k.val with silOpen := true } :=
    (fout_setFout ok _ _ _).trans (if_pos rfl)
  obtain ⟨-, -, sound, untested⟩ := ready load
  rw [silenceOpen_load (by rw [here]; exact load) (by rw [here]; exact ready)] at run
  have ok1 : Tab.ok .start (s.unheld k.val).fld.outs = true := Tab.ok_set _ _ ok
  obtain ⟨-, ⟨cause, -, silOpen, opens⟩, -⟩ := (faultOut_opens ok1 0 (by decide : 11 ≠ 0) (by decide)
    (by rw [here]; exact untested) (by rw [here]; exact sound)).outs ok1
  refine ⟨_, run, fieldOnly_of_sansOuts (State.faultOut_sansOuts ..), ?_, opens, cause⟩
  rw [silOpen, here]

/-- The state in which the gate-hold of output `k` has ended. -/
def State.unlatched (s : State) (k : Nat) : State := s.updFout k fun o =>
  { o with holdOver := true, pulse := if o.pulse = .light then .missed else o.pulse }

theorem execGateHold_opens {t : Nat} (stopped : s.fld.seqA.st = .stopped t) (due : t + 20000 ≤ s.tb)
    (live : s.lives .b = true) (solo : s.fld.seqB.solo = false) (ok : Tab.ok .start s.fld.outs = true) :
    ∃ u, execGateHold k s = .next u ∧ FieldOnly s u ∧ SwitchesOpen u k.val ∧ (u.fout k.val).holdOver = true := by
  have stop : (s.seq .a).st = .stopped t := stopped
  have alone : (s.seq .b).solo = false := solo
  have run : execGateHold k s = .next ((s.unlatched k.val).refreshOut k.val) := by
    simp [execGateHold, State.unlatched, stop, alone, due, otherSide, live]
  have dead : s.lives .a = false := by simp [State.lives, stop]
  have past : ((s.unlatched k.val).fout k.val).holdOver = true :=
    congrArg FOut.holdOver ((fout_setFout ok _ _ _).trans (if_pos rfl))
  have quiet : (s.unlatched k.val).wantLoud k.val = false :=
    wantLoud_of_holdOver (canClose_of_alone (s := s) dead live solo) past
  have followed := refreshOut_opens (s.unlatched k.val) k.val
  obtain ⟨-, ⟨marks, opens⟩, -⟩ := followed.outs (Tab.ok_set _ _ ok)
  exact ⟨_, run, fieldOnly_of_sansOuts followed.rest, opens (wantOn_of_quiet quiet) fun _ => quiet,
    (holdOver_of_marks marks).trans past⟩

/-! ### The end of a re-test (R230) -/

theorem finish_linkEnds (s : State) (op status : Nat) (body : List Byte) :
    (s.finish op status body).linkEnds = s.linkEnds := by
  rw [finish_eq]
  rfl

section
variable (s : State) (j status : Nat)

theorem endOutReset_linkEnds :
    (s.endOutReset j status).linkEnds = (s.fld, { s.lgc with orst := Tab.set [] s.lgc.orst j [] }) :=
  foldl_view State.linkEnds (fun _ _ => finish_linkEnds ..) _ _

theorem endOutReset_record_linkEnds (code v : Nat) (p : List Byte) :
    ((s.endOutReset j status).record code v p).linkEnds =
      (s.fld, { s.lgc with orst := Tab.set [] s.lgc.orst j [] }) :=
  (record_linkEnds ..).trans (endOutReset_linkEnds s j status)

/-- What ends the requests for a reset leaves the outputs alone. -/
theorem endOutReset_record_fout (code v : Nat) (p : List Byte) (i : Nat) :
    ((s.endOutReset j status).record code v p).fout i = s.fout i :=
  congrArg (fun e : Fld × Lgc => Tab.get FOut.start e.1.outs i) (endOutReset_record_linkEnds s j status code v p)

theorem endOutReset_record_orst (code v : Nat) (p : List Byte) :
    ((s.endOutReset j status).record code v p).lgc.orst = Tab.set [] s.lgc.orst j [] :=
  congrArg (fun e : Fld × Lgc => e.2.orst) (endOutReset_record_linkEnds s j status code v p)

end

/-- Output `j` after a re-test in which condition `bad` of Table 9.2 was met, 0 for none; its switches apart. -/
def State.retested (s : State) (j bad : Nat) : FOut :=
  let o := s.fout j
  { o with retest := none, cause := bad, faultAt := if bad = 0 then o.faultAt else s.tb }

/-- The switches and the inputs follow the result of the re-test. -/
def State.afterRetest (s : State) (j bad : Nat) : State :=
  let s1 := s.setFout j (s.retested j bad)
  (s1.refreshOut j).refreshInputs (s1.expects j)

theorem afterRetest_by (s : State) (j bad : Nat) :
    OutputBy j (fun _ v => v.retest = none ∧ v.cause = bad) s (s.afterRetest j bad) := by
  refine OutputBy.thenInputs ?_ (State.refreshInputs_sansIns ..)
  refine (setFout_by ⟨rfl, rfl⟩).trans (P := fun _ v => v.retest = none ∧ v.cause = bad) (refreshOut_opens _ j) ?_
  exact fun ⟨done, cause⟩ ⟨marks, _⟩ => ⟨(retest_of_marks marks).trans done, (cause_of_marks marks).trans cause⟩

section
variable {r : Retest} (tested : (s.fout k.val).retest = some r) (goes : r.aborted = false)
include tested goes

theorem execReTestEnd_early (early : s.fld.frame < r.frame + 3) : execReTestEnd k s = .next s := by
  simp [execReTestEnd, tested, goes, early]

/-- The result is recorded, and the requests for the reset get it. -/
theorem execReTestEnd_due (live : s.lives .a = true) (due : r.frame + 3 ≤ s.fld.frame) :
    let st := if r.bad = 0 then stOk else stFault
    execReTestEnd k s = .next (((s.afterRetest k.val r.bad).endOutReset k.val st).record 0x0402 1
      [BitVec.ofNat 8 k.val, BitVec.ofNat 8 st, BitVec.ofNat 8 r.bad]) := by
  have late : ¬s.fld.frame < r.frame + 3 := by omega
  by_cases clean : r.bad = 0 <;>
    simp [execReTestEnd, tested, goes, live, late, clean, State.afterRetest, State.retested]

theorem execReTestEnd_ends (live : s.lives .a = true) (ok : Tab.ok .start s.fld.outs = true)
    (okR : Tab.ok [] s.lgc.orst = true) (due : r.frame + 3 ≤ s.fld.frame) : ∃ u, execReTestEnd k s = .next u ∧
      (u.fout k.val).retest = none ∧ (u.fout k.val).cause = r.bad ∧ Tab.get [] u.lgc.orst k.val = [] ∧
      ∀ j, j ≠ k.val → u.fout j = s.fout j := by
  have retested := afterRetest_by s k.val r.bad
  obtain ⟨-, ⟨done, cause⟩, others⟩ := retested.outs ok
  have lgc : (s.afterRetest k.val r.bad).lgc = s.lgc := congrArg (·.lgc) retested.rest
  refine ⟨_, execReTestEnd_due tested goes live due, ?_, ?_, ?_, fun j hj => ?_⟩
  · rw [endOutReset_record_fout, done]
  · rw [endOutReset_record_fout, cause]
  · rw [endOutReset_record_orst, lgc, Tab.get_set okR, if_pos rfl]
  · rw [endOutReset_record_fout, others j hj]

end

end

end Sys2Proof.Machine

/-! Faults, silence and holds open the outputs (O53). -/

namespace Sys2Proof.Machine

/-- Settles O53: clause by clause, each command by its own rule. -/
theorem outputFaultsOpenTheSwitches : Obligations.OutputFaultsOpenTheSwitches := by
  unfold Obligations.OutputFaultsOpenTheSwitches
  refine ⟨fun s k on ok untested => ?faults, fun s a accepted heard live ticks ok => ?silence,
    fun s k t silent hold held live due sound ok untested load calm => ?hold,
    fun s k t stopped due live solo ok => execGateHold_opens stopped due live solo ok,
    fun s k r live ok okR tested goes => ?retest⟩
  case faults =>
    refine ⟨fun sound low has => ⟨execOverload_opens on ok untested sound has, rfl⟩,
      fun faulted before low has => ?_, fun minus t differ liveA liveB => ⟨?_, fun sound due => ?_⟩⟩
    · have stands := execOverload_stands on ok untested faulted before has
      exact ⟨stands, stands⟩
    · exact execReadbackDisagree_early differ
    · exact execReadbackDisagree_opens differ ok liveA liveB untested sound due
  case silence => exact ⟨execSilence_early accepted heard ticks, execSilence_opens accepted heard live ok⟩
  case hold =>
    refine execHoldTime_opens silent hold held live due ok load fun _ => ⟨?_, ?_, sound, untested⟩ <;>
      rw [calm] <;> decide
  case retest => exact ⟨execReTestEnd_early tested goes, execReTestEnd_ends tested goes live ok okR⟩

end Sys2Proof.Machine

/-! What a record, a reference and the state of a domain leave alone (R266, R267, R274): all but the power block, the
recorder and the check-value units. -/

namespace Sys2Proof

open Machine

/-- What is read from neither the recorder nor the check-value units is as it was. -/
theorem Recorded.congr {α : Sort*} {s t : State} (h : Recorded s t) (f : State → α)
    (same : ∀ r c, f { s with rcd := r, cvu := c } = f s) : f t = f s := by
  unfold Recorded at h
  rw [h]
  exact same ..

end Sys2Proof

namespace Sys2Proof.Machine

section
variable {s t u : State}

theorem pwr_of_recorded (h : Recorded s t) : t.pwr = s.pwr := h.congr State.pwr fun _ _ => rfl

/-- Nothing but the power block, the recorder and the check-value units has changed, and of the units only the
recorder's. -/
structure PowerOnly (s t : State) : Prop where
  rest  : t = { s with pwr := t.pwr, rcd := t.rcd, cvu := t.cvu }
  units : Noted s t

theorem PowerOnly.of_recorded (h : Recorded s t) (k : Noted s t) : PowerOnly s t :=
  ⟨by rw [pwr_of_recorded h]; exact h, k⟩

theorem record_powerOnly (s : State) (c v : Nat) (p : List Byte) (b : Bool) (k : Option Nat) :
    PowerOnly s (s.record c v p b k) := .of_recorded (record_recorded ..) (record_noted ..)

theorem PowerOnly.setPwr (s : State) (p : Pwr) : PowerOnly s { s with pwr := p } := ⟨rfl, .of_cvu rfl⟩

theorem PowerOnly.trans (h : PowerOnly s t) (k : PowerOnly t u) : PowerOnly s u :=
  ⟨k.rest.trans (congrArg (fun v : State => { v with pwr := u.pwr, rcd := u.rcd, cvu := u.cvu }) h.rest),
    h.units.trans k.units⟩

theorem PowerOnly.congr {α : Sort*} (h : PowerOnly s t) (f : State → α)
    (same : ∀ p r c, f { s with pwr := p, rcd := r, cvu := c } = f s) : f t = f s := by
  rw [h.rest]
  exact same ..

end

/-! ### Records of the power block -/

section
variable (s : State)

@[simp] theorem State.record_pwr (c v : Nat) (p : List Byte) (b : Bool) (k : Option Nat) :
    (s.record c v p b k).pwr = s.pwr := pwr_of_recorded (record_recorded ..)

@[simp] theorem State.domRecord_pwr (d old new why : Nat) : (s.domRecord d old new why).pwr = s.pwr :=
  State.record_pwr ..

@[simp] theorem State.oscRecord_pwr (event : Nat) : (s.oscRecord event).pwr = s.pwr := State.record_pwr ..

/-! ### Domains -/

theorem domTo_powerOnly (d : Nat) (st : DomSt) (why : Nat) : PowerOnly s (s.domTo d st why) := by
  unfold State.domTo
  dsimp only
  split
  · exact .setPwr s s.pwr
  · exact (PowerOnly.setPwr s _).trans (record_powerOnly ..)

@[simp] theorem State.domTo_osc (d : Nat) (st : DomSt) (why : Nat) :
    (s.domTo d st why).pwr.osc = s.pwr.osc := by
  unfold State.domTo
  dsimp only
  split
  · rfl
  · rw [State.domRecord_pwr]
    rfl

/-! ### References -/

theorem abandonDown_powerOnly (q : Side) : PowerOnly s (s.abandonDown q) := by
  unfold State.abandonDown
  dsimp only
  split
  · exact (PowerOnly.setPwr s _).trans (domTo_powerOnly ..)
  · exact .setPwr s s.pwr

@[simp] theorem State.abandonDown_osc (q : Side) : (s.abandonDown q).pwr.osc = s.pwr.osc := by
  unfold State.abandonDown
  dsimp only
  split
  · rw [State.domTo_osc]
  · rfl

theorem osc_setOsc_same (q : Side) (v : OscSt) : (s.setOsc q v).osc q = v := by cases q <;> rfl

theorem osc_setOsc_other (q : Side) (v : OscSt) : (s.setOsc q v).osc (otherSide q) = s.osc (otherSide q) := by
  cases q <;> rfl

theorem setOsc_powerOnly (q : Side) (v : OscSt) : PowerOnly s (s.setOsc q v) := by
  cases q <;> exact .setPwr s _

/-- The references once `q` has left service as `v` (R266). -/
def State.oscLeft (s : State) (q : Side) (v : OscSt) : Osc :=
  let o := (s.setOsc q v).pwr.osc
  let stop := { o with stopped := true, holdover := none }
  if s.osc q = .lost ∨ s.osc q = .off then o
  else if s.pwr.osc.stopped then o
  else if s.osc q = .selected then
    (if s.oscIn (otherSide q) then { o with holdover := some (otherSide q, s.tb), loneSince := none } else stop)
  else if s.pwr.osc.holdover.isSome then stop
  else { o with loneSince := none }

theorem loseOsc_osc (q : Side) (v : OscSt) : (s.loseOsc q v).pwr.osc = s.oscLeft q v := by
  have other : (s.setOsc q v).oscIn (otherSide q) = s.oscIn (otherSide q) := by cases q <;> rfl
  have tb : (s.setOsc q v).tb = s.tb := by cases q <;> rfl
  unfold State.loseOsc State.oscLeft
  dsimp only
  split
  · rfl
  · rw [State.abandonDown_osc, State.oscRecord_pwr]
    split
    · rfl
    · split
      · rw [tb]
        split <;> rfl
      · split <;> rfl

theorem loseOsc_powerOnly (q : Side) (v : OscSt) : PowerOnly s (s.loseOsc q v) := by
  have set := setOsc_powerOnly s q v
  unfold State.loseOsc
  dsimp only
  split
  · exact set
  · refine .trans (.trans (set.trans ?_) (record_powerOnly ..)) (abandonDown_powerOnly ..)
    (repeat' split) <;> exact .setPwr _ _

end

section
variable {s : State} (q : Side) (v : OscSt)

theorem osc_of_pwr {t : State} (h : t.pwr.osc = s.pwr.osc) : t.osc q = s.osc q := by
  cases q <;> simp only [State.osc, h]

/-- Which reference is lost shows in PWR_OSC, and the other one stays as it is. -/
theorem osc_loseOsc : (s.loseOsc q v).osc q = v ∧ (s.loseOsc q v).osc (otherSide q) = s.osc (otherSide q) := by
  have shown : (s.oscLeft q v).a = (s.setOsc q v).pwr.osc.a ∧ (s.oscLeft q v).b = (s.setOsc q v).pwr.osc.b := by
    unfold State.oscLeft
    dsimp only
    split_ifs <;> exact ⟨rfl, rfl⟩
  have same (r : Side) : (s.loseOsc q v).osc r = (s.setOsc q v).osc r := by
    cases r
    · exact (congrArg Osc.a (loseOsc_osc s q v)).trans shown.1
    · exact (congrArg Osc.b (loseOsc_osc s q v)).trans shown.2
  exact ⟨(same _).trans (osc_setOsc_same s q v), (same _).trans (osc_setOsc_other s q v)⟩

theorem setOsc_rest : (s.setOsc q v).pwr.osc.stopped = s.pwr.osc.stopped ∧
    (s.setOsc q v).pwr.osc.holdover = s.pwr.osc.holdover := by cases q <;> exact ⟨rfl, rfl⟩

variable {q} (runs : s.pwr.osc.stopped = false)
include runs

theorem loseOsc_standby (calm : s.pwr.osc.holdover = none) (standby : s.osc q = .standby) :
    (s.loseOsc q v).pwr.osc.stopped = false ∧ (s.loseOsc q v).pwr.osc.holdover = none := by
  obtain ⟨stopped, holdover⟩ := setOsc_rest (s := s) q v
  simp [loseOsc_osc, State.oscLeft, standby, runs, calm, stopped, holdover]

/-- The tick generator goes into holdover towards the other reference (R266). -/
theorem loseOsc_selected (selected : s.osc q = .selected) (other : s.oscIn (otherSide q) = true) :
    (s.loseOsc q v).pwr.osc.stopped = false ∧ (s.loseOsc q v).pwr.osc.holdover = some (otherSide q, s.tb) := by
  obtain ⟨stopped, -⟩ := setOsc_rest (s := s) q v
  simp [loseOsc_osc, State.oscLeft, selected, runs, other, stopped]

end

end Sys2Proof.Machine

/-! LOSS_OF_SIGNAL, RELOCK, DISAGREEMENT and WOSC_CHECK (R266, R267). -/

namespace Sys2Proof.Machine

section
variable {s : State}

theorem ticking_iff : s.ticking = true ↔ s.alive = true ∧ s.pwr.osc.stopped = false := by
  simp [State.ticking]

theorem oscIn_iff (q : Side) : s.oscIn q = true ↔ s.osc q = .selected ∨ s.osc q = .standby := by
  cases q <;> simp only [State.oscIn, State.osc] <;> split <;> simp_all

theorem oscIn_both {q : Side} (a : s.oscIn .a = true) (b : s.oscIn .b = true) : s.oscIn q = true := by
  cases q <;> assumption

variable (ticks : s.ticking = true)
include ticks

theorem execLossOfSignal_loses {q : Side} (on : s.oscIn q = true) :
    execLossOfSignal q s = .next (s.loseOsc q .lost) :=
  congrArg Host.Outcome.next (if_pos (by simp [(ticking_iff.1 ticks).1, on]))

theorem execRelock_selects {q : Side} {t : Nat} (held : s.pwr.osc.holdover = some (q, t)) :
    ∃ u, execRelock s = .next u ∧ u.osc q = .selected ∧ u.pwr.osc.holdover = none ∧
      u.pwr.osc.stopped = false := by
  have run : execRelock s = .next (({ s.setOsc q .selected with pwr := { (s.setOsc q .selected).pwr with
      osc := { (s.setOsc q .selected).pwr.osc with holdover := none } } }).oscRecord 3) := by
    simp [execRelock, held, ticks]
  refine ⟨_, run, ?_, ?_, ?_⟩
  · rw [osc_of_pwr q (congrArg Pwr.osc (State.oscRecord_pwr ..))]
    cases q <;> rfl
  · rw [State.oscRecord_pwr]
  · rw [State.oscRecord_pwr]
    exact (setOsc_rest q _).1.trans (ticking_iff.1 ticks).2

/-! ### Disagreement -/

/-- The difference of the references as last shown. -/
def State.withDiff (s : State) (ppm : Int) : State :=
  { s with pwr := { s.pwr with osc := { s.pwr.osc with diff := ppm / 10 } } }

section
variable {ppm : Int} {a b : Nat} (onA : s.oscIn .a = true) (onB : s.oscIn .b = true)
  (calm : s.pwr.osc.holdover = none)
include onA onB calm

theorem execDisagreement_within (small : ppm.natAbs ≤ 1000) :
    execDisagreement ppm a b s = .next (s.withDiff ppm) := by
  simp [execDisagreement, ticks, onA, onB, calm, small, State.withDiff]

/-- Beyond 0.1 % the reference `q` is lost, which WOSC or the selection names (R266, R267). -/
theorem execDisagreement_loses {q : Side} (large : 1000 < ppm.natAbs)
    (named : (if s.pwr.osc.woscLost || a == b then if s.pwr.osc.a = .selected then Side.b else .a
      else if a < b then .b else .a) = q) :
    ∃ t, execDisagreement ppm a b s = .next t ∧ t.osc q = .lost ∧ t.osc (otherSide q) = s.osc (otherSide q) := by
  have run : execDisagreement ppm a b s = .next ((s.withDiff ppm).loseOsc q .lost) := by
    have beyond : ¬ppm.natAbs ≤ 1000 := Nat.not_le.2 large
    simp only [execDisagreement, ticks, onA, onB, calm, beyond, Bool.not_true, Option.isSome_none, Bool.or_self,
      Bool.false_eq_true, if_false, ← named, State.withDiff]
  obtain ⟨lost, other⟩ := osc_loseOsc (s := s.withDiff ppm) q .lost
  exact ⟨_, run, lost, other.trans (by cases q <;> rfl)⟩

end

/-! ### WOSC -/

/-- Since when the lone reference has differed from WOSC. -/
def State.withLone (s : State) (since : Option Nat) : State :=
  { s with pwr := { s.pwr with osc := { s.pwr.osc with loneSince := since } } }

/-- The verdict on a reference alone in service, `far`: beyond 0.5 % from WOSC (R267). -/
def State.judgeLone (s : State) (q : Side) (far : Bool) : State :=
  match far, s.pwr.osc.loneSince with
  | false, _ => s.withLone none
  | true, none => s.withLone (some s.tb)
  | true, some t => if t + 2000000 ≤ s.tb then (s.loseOsc q .lost).stopTime else s

section
variable {q : Side} {a b : Int} (on : s.oscIn q = true) (other : s.oscIn (otherSide q) = false)
  (sound : s.pwr.osc.woscLost = false)
include on other sound

theorem execWoscCheck_lone : execWoscCheck false a b s =
    .next (s.judgeLone q (decide (5000 < (if q = .a then a else b).natAbs))) := by
  unfold execWoscCheck
  dsimp only
  rw [if_neg (by simp [ticks, sound]), if_neg Bool.false_ne_true]
  cases q with
  | a => rw [if_neg (by simp [on, show s.oscIn .b = false from other]), if_pos on]; rfl
  | b =>
    have out : s.oscIn .a = false := other
    rw [if_neg (by simp [on, out]), if_neg (by simp [out])]
    rfl

/-- After 10 ms beyond 0.5 % the lone reference is lost too, and the timebase stops. -/
theorem execWoscCheck_stops {t : Nat} (far : 5000 < (if q = .a then a else b).natAbs)
    (since : s.pwr.osc.loneSince = some t) (due : t + 2000000 ≤ s.tb) :
    ∃ u, execWoscCheck false a b s = .next u ∧ u.osc q = .lost ∧ u.pwr.osc.stopped = true := by
  refine ⟨(s.loseOsc q .lost).stopTime, ?_, ?_, rfl⟩
  · rw [execWoscCheck_lone ticks on other sound, decide_eq_true far]
    simp only [State.judgeLone, since, if_pos due]
  · have shown (t : State) : t.stopTime.osc q = t.osc q := by cases q <;> rfl
    exact (shown _).trans (osc_loseOsc q .lost).1

end

theorem execWoscCheck_wosc {a b : Int} (onA : s.oscIn .a = true) (onB : s.oscIn .b = true)
    (sound : s.pwr.osc.woscLost = false) (farA : 5000 < a.natAbs) (farB : 5000 < b.natAbs)
    (near : (a - b).natAbs ≤ 1000) : ∃ t, execWoscCheck true a b s = .next t ∧ t.pwr.osc.woscLost = true ∧
      ∀ q, t.osc q = s.osc q := by
  have run : execWoscCheck true a b s = .next (State.oscRecord
      { s with pwr := { s.pwr with osc := { s.pwr.osc with woscLost := true } } } 2) := by
    simp [execWoscCheck, ticks, onA, onB, sound, farA, farB, near]
  refine ⟨_, run, by rw [State.oscRecord_pwr], fun q => ?_⟩
  rw [osc_of_pwr q (congrArg Pwr.osc (State.oscRecord_pwr ..))]
  cases q <;> rfl

end

end Sys2Proof.Machine

/-! The references of the timebase (O49). -/

namespace Sys2Proof.Machine

/-- Settles O49: each command by its own rule, the reference that a disagreement names case by case. -/
theorem referencesOfTheTimebase : Obligations.ReferencesOfTheTimebase := by
  unfold Obligations.ReferencesOfTheTimebase
  intro s ticks
  have runs := (ticking_iff.1 ticks).2
  refine ⟨fun q onA onB calm => ⟨fun standby other => ?standby, fun selected other => ?selected⟩,
    fun q t held => execRelock_selects ticks held, fun ppm a b onA onB calm => ?disagree,
    fun q a b on other sound => ?lone, fun a b onA onB sound farA farB near => ?wosc⟩
  case standby =>
    obtain ⟨lost, kept⟩ := osc_loseOsc (s := s) q .lost
    exact ⟨_, execLossOfSignal_loses ticks (oscIn_both onA onB), lost, kept.trans other,
      loseOsc_standby .lost runs calm standby⟩
  case selected =>
    exact ⟨_, execLossOfSignal_loses ticks (oscIn_both onA onB), (osc_loseOsc q .lost).1,
      loseOsc_selected .lost runs selected (oscIn_both onA onB)⟩
  case disagree =>
    have in_ {q : Side} : s.osc q ≠ .lost := fun lost => by
      simpa [lost] using (oscIn_iff q).1 (oscIn_both onA onB)
    refine ⟨execDisagreement_within ticks onA onB calm, fun large sound nearer => ?_, fun large sound nearer => ?_,
      fun large lost q standby other => ?_⟩
    · obtain ⟨t, run, b, a⟩ := execDisagreement_loses (a := a) (b := b) ticks onA onB calm (q := .b) large
        (by simp [sound, nearer, nearer.ne])
      exact ⟨t, run, b, a ▸ in_⟩
    · obtain ⟨t, run, a, b⟩ := execDisagreement_loses (a := a) (b := b) ticks onA onB calm (q := .a) large
        (by simp [sound, nearer.ne', nearer.not_gt])
      exact ⟨t, run, a, b ▸ in_⟩
    · obtain ⟨t, run, gone, kept⟩ := execDisagreement_loses (a := a) (b := b) ticks onA onB calm (q := q) large
        (by cases q <;> simp_all [State.osc, otherSide])
      exact ⟨t, run, gone, kept.trans other⟩
  case lone =>
    have rule := execWoscCheck_lone (a := a) (b := b) ticks on other sound
    refine ⟨fun near => ?_, fun far since => ?_, fun far t since due =>
      execWoscCheck_stops ticks on other sound far since due⟩
    · exact rule.trans (by rw [decide_eq_false (Nat.not_lt.2 near)]; rfl)
    · exact rule.trans (by simp only [decide_eq_true far, State.judgeLone, since, State.withLone])
  case wosc =>
    obtain ⟨t, run, lost, same⟩ := execWoscCheck_wosc ticks onA onB sound farA farB near
    exact ⟨t, run, lost, same .a, same .b⟩

end Sys2Proof.Machine

/-! The switch of the rails (R264, R274, R305): what the loss of the porch, of the field side and of the check-value
units of a domain leaves, and which domains are not started. -/

namespace Sys2Proof.Machine

section
variable {s : State}

/-! ### Which domain is in which state -/

theorem dom_setDom (ok : Tab.ok .ready s.pwr.doms = true) (e : Nat) (v : Domain) (d : Nat) :
    (s.setDom e v).dom d = if d = e then v else s.dom d := Tab.get_set ok e d v

theorem domsOff_rest (s : State) (ds : List Nat) :
    s.domsOff ds = { s with pwr := { s.pwr with doms := (s.domsOff ds).pwr.doms } } := by
  induction ds generalizing s with
  | nil => rfl
  | cons e ds ih =>
    show (s.setDom e { s.dom e with st := .notStarted, retryAt := none }).domsOff ds = _
    rw [ih]
    rfl

theorem domsOff_dom (ok : Tab.ok .ready s.pwr.doms = true) (ds : List Nat) (d : Nat) (named : d ∈ ds) :
    ((s.domsOff ds).dom d).st = .notStarted := by
  have step (t : State) (ok : Tab.ok .ready t.pwr.doms = true) (named : d ∈ ds ∨ (t.dom d).st = .notStarted) :
      ((t.domsOff ds).dom d).st = .notStarted := by
    clear * - ok named
    induction ds generalizing t with
    | nil => exact named.resolve_left List.not_mem_nil
    | cons e ds ih =>
      refine ih _ (Tab.ok_set _ _ ok) ?_
      rw [dom_setDom ok]
      split
      · exact .inr rfl
      · next apart => exact named.imp_left fun mem => (List.mem_cons.1 mem).resolve_left apart
  exact step s ok (.inl named)

/-! ### Units that start afresh (R305) -/

theorem freshUnits_rest (s : State) (d : Nat) : s.freshUnits d = { s with cvu := (s.freshUnits d).cvu } := by
  have fold (l : List Nat) (t : State) (h : t = { s with cvu := t.cvu }) :
      let f (acc : State) (u : Nat) := if cvuDomain u = d then acc.setUnit u (acc.unit u).cleared else acc
      l.foldl f t = { s with cvu := (l.foldl f t).cvu } := by
    intro f
    induction l generalizing t with
    | nil => exact h
    | cons u l ih =>
      refine ih (f t u) ?_
      dsimp only [f]
      split
      · rw [h]; rfl
      · exact h
  exact fold _ s rfl

theorem freshUnits_congr {α : Sort*} (s : State) (d : Nat) (f : State → α)
    (same : ∀ c, f { s with cvu := c } = f s) : f (s.freshUnits d) = f s := by
  rw [freshUnits_rest]
  exact same _

/-- The units of the domain read as in reset, but for what is counted over the last 24 operating hours; the others
stay. -/
theorem freshUnits_units (ok : Tab.ok .fresh s.cvu = true) (d : Nat) :
    Tab.ok .fresh (s.freshUnits d).cvu = true ∧ ∀ k, k < 19 →
      (s.freshUnits d).unit k = if cvuDomain k = d then (s.unit k).cleared else s.unit k := by
  have fold (l : List Nat) (t : State) (ok : Tab.ok .fresh t.cvu = true) :
      let f (acc : State) (u : Nat) := if cvuDomain u = d then acc.setUnit u (acc.unit u).cleared else acc
      Tab.ok .fresh (l.foldl f t).cvu = true ∧ ∀ k, (l.foldl f t).unit k =
        if k ∈ l ∧ cvuDomain k = d then (t.unit k).cleared else t.unit k := by
    intro f
    induction l generalizing t with
    | nil => exact ⟨ok, fun k => by simp⟩
    | cons u l ih =>
      by_cases here : cvuDomain u = d
      · have set : f t u = t.setUnit u (t.unit u).cleared := if_pos here
        obtain ⟨ok', units⟩ := ih (f t u) (set ▸ Tab.ok_set _ _ ok)
        refine ⟨ok', fun k => (units k).trans ?_⟩
        rw [set, unit_setUnit ok]
        by_cases same : k = u
        · subst same
          simp only [if_true, List.mem_cons, true_or, here, and_true]
          split <;> rfl
        · simp [same]
      · have skip : f t u = t := if_neg here
        obtain ⟨ok', units⟩ := ih (f t u) (skip.symm ▸ ok)
        refine ⟨ok', fun k => (units k).trans ?_⟩
        rw [skip]
        have named : k ∈ u :: l ∧ cvuDomain k = d ↔ k ∈ l ∧ cvuDomain k = d := by
          refine ⟨fun ⟨mem, dom⟩ => ⟨?_, dom⟩, fun ⟨mem, dom⟩ => ⟨List.mem_cons_of_mem u mem, dom⟩⟩
          exact (List.mem_cons.1 mem).resolve_left fun e => here (e ▸ dom)
        simp only [named]
  obtain ⟨ok', units⟩ := fold (List.range 19) s ok
  exact ⟨ok', fun k hk => (units k).trans (by simp [hk])⟩

theorem foldl_freshUnits_rest (ds : List Nat) (s : State) :
    ds.foldl State.freshUnits s = { s with cvu := (ds.foldl State.freshUnits s).cvu } := by
  induction ds generalizing s with
  | nil => rfl
  | cons d ds ih =>
    rw [List.foldl_cons, ih, freshUnits_rest]

theorem foldl_freshUnits_units (ds : List Nat) (s : State) (ok : Tab.ok .fresh s.cvu = true) {k : Nat} (hk : k < 19)
    (named : cvuDomain k ∈ ds) : (ds.foldl State.freshUnits s).unit k = (s.unit k).cleared := by
  have step (t : State) (ok : Tab.ok .fresh t.cvu = true)
      (h : cvuDomain k ∈ ds ∧ t.unit k = s.unit k ∨ t.unit k = (s.unit k).cleared) :
      (ds.foldl State.freshUnits t).unit k = (s.unit k).cleared := by
    clear named
    induction ds generalizing t with
    | nil => exact h.resolve_left fun x => List.not_mem_nil x.1
    | cons d ds ih =>
      obtain ⟨ok', units⟩ := freshUnits_units ok d
      refine ih _ ok' ?_
      rw [units k hk]
      split
      · rcases h with ⟨-, same⟩ | same <;> rw [same] <;> exact .inr rfl
      · next apart => exact h.imp_left fun ⟨mem, same⟩ => ⟨(List.mem_cons.1 mem).resolve_left apart, same⟩
  exact step s ok (.inl ⟨named, rfl⟩)

end

/-! ### The porch is lost -/

section
variable (s : State)

theorem abandonLoad_rest (who : Nat → Bool) : s.abandonLoad who =
    { s with cfg := (s.abandonLoad who).cfg, nv := { s.nv with slots := (s.abandonLoad who).nv.slots } } := by
  unfold State.abandonLoad
  (repeat' split) <;> rfl

theorem abandonFw_rest : s.abandonFw = { s with por := s.abandonFw.por } := by
  unfold State.abandonFw
  (repeat' split) <;> rfl

theorem loseRun_rest : s.loseRun = { s with cfg := s.loseRun.cfg } := by
  unfold State.loseRun
  split <;> rfl

theorem losePorch_rest : s.losePorch = { s with
    cfg := s.losePorch.cfg, por := s.losePorch.por, cnv := s.losePorch.cnv
    nv := { s.nv with slots := s.losePorch.nv.slots } } := by
  unfold State.losePorch
  dsimp only
  rw [loseRun_rest, abandonFw_rest, abandonLoad_rest]

theorem losePorch_pwr : s.losePorch.pwr = s.pwr := by rw [losePorch_rest]

theorem losePorch_cvu : s.losePorch.cvu = s.cvu := by rw [losePorch_rest]

/-! ### FIELD falls -/

theorem Tab.get_mapVal {α : Type} [DecidableEq α] (d : α) (f : α → α) (t : Tab α) (k : Nat) :
    Tab.get d (Tab.mapVal d f t) k = d ∨ ∃ v, Tab.get d (Tab.mapVal d f t) k = f v := by
  induction t with
  | nil => exact .inl rfl
  | cons e t ih =>
    unfold Tab.mapVal at ih ⊢
    rw [List.filterMap_cons]
    split
    · exact ih
    · next x heq =>
      have first : x = (e.1, f e.2) := by
        split at heq
        · exact nomatch heq
        · exact (Option.some.inj heq).symm
      rw [first, Tab.get]
      split
      · exact .inr ⟨e.2, rfl⟩
      · split
        · exact .inl rfl
        · exact ih

theorem loseField_rest : s.loseField = { s with fld := s.loseField.fld } := rfl

theorem loseField_open (k : Nat) : SwitchesOpen s.loseField k := by
  have idle : (s.loseField.fout k).phase = .idle := by
    obtain same | ⟨v, same⟩ := Tab.get_mapVal FOut.start (fun o => { o with
      phase := .idle, pulse := .none, img := false, defer := false, silPend := false, retest := none }) s.fld.outs k <;>
      exact congrArg FOut.phase same
  simp [SwitchesOpen, idle]

theorem fieldDown_rest : s.fieldDown = { s with
    fld := s.loseField.fld, pwr := { s.pwr with doms := s.fieldDown.pwr.doms, fieldFell := true } } := by
  unfold State.fieldDown
  rw [domsOff_rest, loseField_rest]

theorem fieldDown_open (k : Nat) : SwitchesOpen s.fieldDown k := by
  rw [fieldDown_rest]
  exact loseField_open s k

end

end Sys2Proof.Machine

/-! Measurements of the supplies, switch-off and fall of the rails (R260, R263, R264). -/

namespace Sys2Proof.Machine

/-! ### Measurements -/

theorem supply_setSupply (s : State) (q : Side) (v : Supply) : (s.setSupply q v).supply q = v ∧
    (s.setSupply q v).supply (otherSide q) = s.supply (otherSide q) := by cases q <;> exact ⟨rfl, rfl⟩

theorem supplyOk_iff (s : State) (q : Side) : s.supplyOk q = decide ((s.supply q).st = .ok) := by cases q <;> rfl

/-- An input is OK as long as one of the two is. -/
theorem anySupply_iff (s : State) (q : Side) :
    (s.supplyOk .a || s.supplyOk .b) = (s.supplyOk q || s.supplyOk (otherSide q)) := by
  cases q
  · rfl
  · exact Bool.or_comm ..

theorem supply_of_pwr {s t : State} (q : Side) (h : t.pwr = s.pwr) : t.supply q = s.supply q := by
  cases q <;> simp only [State.supply, h]

section
variable {v : Supply} {mV : Int} (ok : v.st = .ok)
include ok

/-- An input that is OK takes a good voltage (R260). -/
theorem measure_good (low : 18000 ≤ mV) (high : mV ≤ 30000) : v.measure mV =
    { v with volt := mV / 10, runUnder := 0, runOver := 0
             runGood := if 18600 ≤ mV then v.runGood + 1 else 0 } := by
  have above : ¬mV < -1000 := by omega
  have notOver : ¬31000 < mV := by omega
  have notUnder : ¬mV < 18000 := by omega
  simp [Supply.measure, runLen, above, notOver, notUnder, high, ok]

/-- 1 ms below 18 V: UNDER (R260). -/
theorem measure_under (above : -1000 ≤ mV) (low : mV < 18000) (run : 10 ≤ v.runUnder) :
    (v.measure mV).st = .under := by
  have notReversed : ¬mV < -1000 := by omega
  have notOver : ¬31000 < mV := by omega
  have long : 11 ≤ v.runUnder + 1 := by omega
  simp [Supply.measure, runLen, notReversed, notOver, low, long, ok]

end

section
variable {s : State}

/-- With an input OK and the device on, no supply calls for anything. -/
theorem judgeSupplies_calm {q : Side} (ok : (s.supply q).st = .ok) (on : s.pwr.off = false)
    (calm : s.pwr.pfail = false) : s.judgeSupplies = s := by
  have any : (s.supplyOk .a || s.supplyOk .b) = true := by
    rw [anySupply_iff s q, supplyOk_iff, ok]
    rfl
  simp [State.judgeSupplies, any, on, calm]

theorem persistSeconds_rest (s : State) : s.persistSeconds = { s with nv := s.persistSeconds.nv } := by
  unfold State.persistSeconds
  split <;> rfl

/-- The power-fail sequence begins now where neither staging nor a load stands against it (R263). -/
theorem beginFail_begins (calm : s.pwr.pfail = false) (staged : s.cfg.staged = none) (load : s.cfg.load = none) :
    s.beginFail.pwr = { s.pwr with pfail := true, pflushed := false, failAt := s.now } ∧
      s.beginFail.fld = s.fld ∧ s.beginFail.eng = s.eng ∧ s.beginFail.sea = s.sea := by
  obtain ⟨t, noted, begun⟩ : ∃ t,
      Recorded { s with pwr := { s.pwr with pfail := true, pflushed := false, failAt := s.now } } t ∧
      s.beginFail = let u := ((t.endStage .power).abandonLoad fun _ => true).abandonFw
        if u.rcd.flushing then u else u.persistSeconds :=
    ⟨_, (record_recorded ..).trans (flushIf_recorded ..), if_neg (by simp [calm])⟩
  have cfg : t.cfg = s.cfg := noted.congr State.cfg fun _ _ => rfl
  have still : (t.endStage .power).abandonLoad (fun _ => true) = t := by
    simp only [State.endStage, State.abandonLoad, cfg, staged, load]
  have rest : s.beginFail = { t with nv := s.beginFail.nv, por := s.beginFail.por } := by
    rw [begun, still, abandonFw_rest]
    dsimp only
    split
    · rfl
    · rw [persistSeconds_rest]
  rw [rest]
  exact ⟨pwr_of_recorded noted, noted.congr State.fld fun _ _ => rfl, noted.congr State.eng fun _ _ => rfl,
    noted.congr State.sea fun _ _ => rfl⟩

variable (live : s.alive = true) (on : s.pwr.off = false) (calm : s.pwr.pfail = false) {q : Side} {mV : Int}
  (ok : (s.supply q).st = .ok)
include live on calm ok

theorem execSupplyMeasurement_good (low : 18000 ≤ mV) (high : mV ≤ 30000) :
    execSupplyMeasurement q mV s = .next (s.setSupply q ((s.supply q).measure mV)) := by
  have same : ((s.supply q).measure mV).st = .ok := by rw [measure_good ok low high, ok]
  have taken : s.newSupply q ((s.supply q).measure mV) = s.setSupply q ((s.supply q).measure mV) :=
    if_pos (ok.trans same.symm)
  rw [execSupplyMeasurement, if_pos live, taken, judgeSupplies_calm (q := q)]
  · rw [(supply_setSupply ..).1, same]
  · cases q <;> exact on
  · cases q <;> exact calm

theorem execSupplyMeasurement_under (above : -1000 ≤ mV) (low : mV < 18000) (run : 10 ≤ (s.supply q).runUnder)
    (other : s.supplyOk (otherSide q) = false) (staged : s.cfg.staged = none) (load : s.cfg.load = none) :
    ∃ t, execSupplyMeasurement q mV s = .next t ∧ (t.supply q).st = .under ∧ t.pwr.pfail = true ∧
      t.pwr.failAt = s.now ∧ t.pwr.off = false ∧ t.fld = s.fld ∧ t.eng = s.eng ∧ t.sea = s.sea := by
  have under := measure_under ok above low run
  generalize hv : (s.supply q).measure mV = v at under
  have changed : ¬(s.supply q).st = v.st := by simp [ok, under]
  obtain ⟨w, hw, taken⟩ : ∃ w, Recorded (s.setSupply q v) w ∧ s.newSupply q v = w :=
    ⟨_, record_recorded .., if_neg changed⟩
  have pwr := pwr_of_recorded hw
  have seen : w.supply q = v := (supply_of_pwr q pwr).trans (supply_setSupply s q v).1
  have none : (w.supplyOk .a || w.supplyOk .b) = false := by
    rw [anySupply_iff w q, supplyOk_iff, seen, under, supplyOk_iff, supply_of_pwr (otherSide q) pwr,
      (supply_setSupply s q v).2, ← supplyOk_iff, other]
    rfl
  have run : execSupplyMeasurement q mV s = .next w.beginFail := by
    rw [execSupplyMeasurement, if_pos live, hv, taken, State.judgeSupplies]
    have on' : w.pwr.off = false := by rw [pwr]; cases q <;> exact on
    simp [none, on']
  have same {α : Type} (f : State → α) (h : ∀ p r c, f { s with pwr := p, rcd := r, cvu := c } = f s) : f w = f s := by
    rw [hw]
    cases q <;> exact h ..
  have cfg := same State.cfg fun _ _ _ => rfl
  obtain ⟨begun, fld, eng, sea⟩ := beginFail_begins (s := w) (by rw [pwr]; cases q <;> exact calm)
    (cfg ▸ staged) (cfg ▸ load)
  refine ⟨_, run, ?_, by rw [begun], ?_, ?_, fld.trans (same _ fun _ _ _ => rfl),
    eng.trans (same _ fun _ _ _ => rfl), sea.trans (same _ fun _ _ _ => rfl)⟩
  · have keeps : w.beginFail.supply q = w.supply q := by cases q <;> simp only [State.supply, begun]
    rw [keeps, seen, under]
  · rw [begun]
    have tb := same State.tb fun _ _ _ => rfl
    show w.tb + w.pwr.still = s.now
    rw [tb, pwr]
    cases q <;> rfl
  · rw [begun, pwr]
    cases q <;> exact on

end

/-! ### The logic switches off -/

/-- Only the recorder's unit is powered by CELLAR (Table 14.1). -/
theorem cvuDomain_logic : ∀ k < 18, cvuDomain k ∈ [1, 2, 3, 4, 5, 6] := by decide

/-- The parts that R264 switches off: the porch and the logic side are dark and the domains 1 to 6 not started. -/
def State.darkened (s : State) : State := (s.losePorch.darkLogic).domsOff [1, 2, 3, 4, 5, 6]

section
variable (s : State)

theorem darkened_dark : s.darkened.por.sessions = [] ∧ s.darkened.eng.insts = [] ∧ s.darkened.sea.imap = [] ∧
    s.darkened.lnk.ports = [] ∧ s.darkened.nv.rows = s.nv.rows ∧ s.darkened.cvu = s.cvu ∧
    s.darkened.fld = s.fld := by
  unfold State.darkened
  rw [domsOff_rest]
  refine ⟨rfl, rfl, rfl, rfl, ?_, losePorch_cvu s, ?_⟩ <;>
    (show _ = _; unfold State.darkLogic; rw [losePorch_rest])

theorem darkened_dom (ok : Tab.ok .ready s.pwr.doms = true) {d : Nat} (low : 1 ≤ d) (high : d ≤ 6) :
    (s.darkened.dom d).st = .notStarted := by
  have ok' : Tab.ok .ready s.losePorch.darkLogic.pwr.doms = true := by
    rw [State.darkLogic, losePorch_pwr]
    exact ok
  have named : d ∈ [1, 2, 3, 4, 5, 6] := by
    simp only [List.mem_cons, List.not_mem_nil, or_false]
    omega
  exact domsOff_dom ok' _ d named

end

section
variable {s : State}

theorem darkened_now : s.darkened.now = s.now := by
  unfold State.darkened
  rw [domsOff_rest]
  show s.losePorch.tb + s.losePorch.pwr.still = _
  rw [losePorch_rest]
  rfl

/-- The device is off since now. -/
def State.offNow (s : State) : State := { s with pwr := { s.pwr with off := true, offAt := s.now } }

theorem switchOff_eq (fails : s.pwr.pfail = true) :
    s.switchOff = ([1, 2, 3, 4, 5, 6].foldl State.freshUnits s.darkened).offNow := by
  unfold State.switchOff
  simp -zeta only [fails, if_true]
  unfold State.darkened
  rfl

theorem execSwitchOff_darkens (live : s.alive = true) (on : s.pwr.off = false) (fails : s.pwr.pfail = true)
    (ok : Tab.ok .ready s.pwr.doms = true) :
    ∃ u, execSwitchOff s = .next u ∧ u.pwr.off = true ∧ u.pwr.offAt = s.now ∧
      (∀ d, 1 ≤ d → d ≤ 6 → (u.dom d).st = .notStarted) ∧ u.por.sessions = [] ∧ u.eng.insts = [] ∧
      u.sea.imap = [] ∧ u.lnk.ports = [] ∧ u.nv.rows = s.nv.rows ∧
      (Tab.ok .fresh s.cvu = true → ∀ k, k < 18 → u.unit k = (s.unit k).cleared) := by
  have run : execSwitchOff s = .next s.switchOff := congrArg Host.Outcome.next (if_pos (by simp [live, on]))
  obtain ⟨sessions, insts, imap, ports, rows, cvu, -⟩ := darkened_dark s
  have doms {d : Nat} := darkened_dom s ok (d := d)
  have now := darkened_now (s := s)
  have units (k : Nat) : s.darkened.unit k = s.unit k := by rw [State.unit, cvu, State.unit]
  rw [switchOff_eq fails] at run
  generalize s.darkened = w at *
  have fresh := foldl_freshUnits_rest [1, 2, 3, 4, 5, 6] w
  refine ⟨_, run, ?_⟩
  generalize hu : [1, 2, 3, 4, 5, 6].foldl State.freshUnits w = u at *
  rw [fresh]
  refine ⟨rfl, now, fun d low high => doms low high, sessions, insts, imap, ports, rows, fun okU k hk => ?_⟩
  have unit := foldl_freshUnits_units [1, 2, 3, 4, 5, 6] w (cvu ▸ okU) (Nat.lt_succ_of_lt hk) (cvuDomain_logic k hk)
  rw [hu, units] at unit
  exact unit

theorem execFieldFall_opens (live : s.alive = true) (off : s.pwr.off = true) (holds : s.pwr.fieldFell = false)
    (due : s.pwr.offAt + 1000000 ≤ s.now) (ok : Tab.ok .ready s.pwr.doms = true) :
    ∃ u, execFieldFall s = .next u ∧ (∀ k, SwitchesOpen u k) ∧ (u.dom 7).st = .notStarted ∧
      u.pwr.fieldFell = true ∧ u.por = s.por ∧ u.nv = s.nv := by
  refine ⟨s.fieldDown, ?_, fieldDown_open s, ?_, rfl, ?_, ?_⟩
  · exact congrArg Host.Outcome.next (if_pos (by simp [live, off, holds, due]))
  · exact domsOff_dom (s := s.loseField) ok [7] 7 (List.mem_singleton.2 rfl)
  all_goals rw [fieldDown_rest]

/-- CELLAR at the end of the hold-up: FIELD has fallen before it or falls with it. -/
theorem execCellarFall_kills (live : s.alive = true) (lowA : s.supplyOk .a = false) (lowB : s.supplyOk .b = false)
    (dark : s.pwr.off = true ∨ s.pwr.pfail = true)
    (due : (if s.pwr.off then s.pwr.offAt else s.pwr.failAt) + s.holdupTicks ≤ s.now)
    (holds : s.pwr.fieldFell = false) :
    ∃ u, execCellarFall s = .next u ∧ u.alive = false ∧ u.rcd.buf = [] ∧
      (Tab.ok .fresh s.cvu = true → u.unit 18 = (s.unit 18).cleared) ∧ (∀ k, SwitchesOpen u k) ∧ u.nv = s.nv := by
  have run : execCellarFall s = .next s.cellarDown :=
    congrArg Host.Outcome.next (if_pos (by simp only [live, lowA, lowB, due, decide_true]; simpa using dark))
  have down : s.cellarDown = { ((s.fieldDown.domsOff [0]).freshUnits 0) with
      pwr := { ((s.fieldDown.domsOff [0]).freshUnits 0).pwr with cellarFell := true, off := true }
      rcd := { ((s.fieldDown.domsOff [0]).freshUnits 0).rcd with buf := [], flushing := false } } := by
    unfold State.cellarDown
    simp only [holds, Bool.false_eq_true, if_false]
  refine ⟨_, run, ?_⟩
  rw [down]
  refine ⟨rfl, rfl, fun ok => ?_, fun k => ?_, ?_⟩
  · have same : (s.fieldDown.domsOff [0]).cvu = s.cvu := by rw [domsOff_rest, fieldDown_rest]
    refine ((freshUnits_units (same.symm ▸ ok) 0).2 18 (by decide)).trans ((if_pos rfl).trans ?_)
    rw [State.unit, same, State.unit]
  · have fld : ((s.fieldDown.domsOff [0]).freshUnits 0).fld = s.fieldDown.fld := by rw [freshUnits_rest, domsOff_rest]
    have opened := fieldDown_open s k
    unfold SwitchesOpen State.fout at opened ⊢
    exact fld ▸ opened
  · rw [freshUnits_rest, domsOff_rest, fieldDown_rest]

end

end Sys2Proof.Machine

/-! Supplies and switch-off (O46). -/

namespace Sys2Proof.Machine

/-- Settles O46: each command by its own rule. -/
theorem suppliesAndSwitchOff : Obligations.SuppliesAndSwitchOff := by
  unfold Obligations.SuppliesAndSwitchOff
  refine ⟨fun s q mV live on calm ok => ⟨fun low high => ?_, fun above low run other staged load =>
      execSupplyMeasurement_under live on calm ok above low run other staged load⟩,
    fun s live on fails ok => execSwitchOff_darkens live on fails ok,
    fun s live off holds due ok => execFieldFall_opens live off holds due ok,
    fun s live lowA lowB dark due holds => ?_⟩
  · have rule := execSupplyMeasurement_good live on calm ok low high
    rw [measure_good ok low high] at rule
    exact rule
  · exact execCellarFall_kills live lowA lowB dark (by simpa [State.holdupTicks] using due) holds

end Sys2Proof.Machine

/-! What the placing of work leaves in place (R91 to R95, R128, R246 to R249): instances, rooms and image rooms move,
but not the rails, the fuses, the links, the comparators, the checkpoint memories and the image that executes. -/

namespace Sys2Proof.Machine

/-- An engine that serves goes on serving, and one that is out stays as it is. -/
def EngSt.Stays (a b : EngSt) : Prop :=
  (a = .active ∨ a = .spare → b = .active ∨ b = .spare) ∧ (a = .off ∨ a = .retired → b = a)

theorem EngSt.Stays.refl (a : EngSt) : a.Stays a := ⟨id, fun _ => rfl⟩

theorem EngSt.Stays.trans {a b c : EngSt} (h : a.Stays b) (k : b.Stays c) : a.Stays c := by
  refine ⟨fun serves => k.1 (h.1 serves), fun out => ?_⟩
  have same := h.2 out
  exact (k.2 (same ▸ out)).trans same

/-- What stands while work moves. -/
def State.footing (s : State) : Pwr × Fus × Lgc × Option Image × Nat × (CmpSt × CmpSt) × Bool × Bool :=
  (s.pwr, s.fus, s.lgc, s.cfg.image, s.cfg.slot, (s.eng.cmpA, s.eng.cmpB), s.eng.ckmA, s.eng.ckmB)

/-- The same with all that a move of work could touch of it. -/
def State.stance (s : State) : (Pwr × Fus × Lgc × Option Image × Nat × (CmpSt × CmpSt) × Bool × Bool) × Tab Cvu × Nv ×
    Option Image × Tab Room × Tab Engine :=
  (s.footing, s.cvu, s.nv, s.cfg.staged, s.sea.rooms, s.eng.engines)

/-- From `s` to `t` work moved, and the engines may have changed their states. -/
structure Shifts (s t : State) : Prop where
  footing : t.footing = s.footing
  units   : Noted s t
  store   : s.cfg.staged = none → t.nv = s.nv ∧ t.cfg.staged = none
  rooms   : Tab.ok .start s.sea.rooms = true → Tab.ok .start t.sea.rooms = true

/-- From `s` to `t` work moved. -/
structure Stands (s t : State) : Prop extends Shifts s t where
  engines : Tab.ok .start s.eng.engines = true → Tab.ok .start t.eng.engines = true ∧
    ∀ e, (s.engine e).st.Stays (t.engine e).st

section
variable {s t u : State}

theorem Shifts.trans (h : Shifts s t) (k : Shifts t u) : Shifts s u where
  footing := k.footing.trans h.footing
  units := h.units.trans k.units
  store unstaged :=
    have ⟨nv, staged⟩ := h.store unstaged
    have ⟨nv', staged'⟩ := k.store staged
    ⟨nv'.trans nv, staged'⟩
  rooms ok := k.rooms (h.rooms ok)

theorem Shifts.pwr (h : Shifts s t) : t.pwr = s.pwr := congrArg (·.1) h.footing

theorem Shifts.fus (h : Shifts s t) : t.fus = s.fus := congrArg (·.2.1) h.footing

theorem Shifts.lgc (h : Shifts s t) : t.lgc = s.lgc := congrArg (·.2.2.1) h.footing

theorem Shifts.cmp (h : Shifts s t) (q : Side) : t.cmp q = s.cmp q := by
  have cmps : (t.eng.cmpA, t.eng.cmpB) = (s.eng.cmpA, s.eng.cmpB) := congrArg (·.2.2.2.2.2.1) h.footing
  cases q
  · exact congrArg Prod.fst cmps
  · exact congrArg Prod.snd cmps

theorem Stands.trans (h : Stands s t) (k : Stands t u) : Stands s u where
  toShifts := h.toShifts.trans k.toShifts
  engines ok :=
    have ⟨okt, ht⟩ := h.engines ok
    have ⟨oku, ku⟩ := k.engines okt
    ⟨oku, fun e => (ht e).trans (ku e)⟩

theorem Stands.of_stance (h : t.stance = s.stance) : Stands s t := by
  have nv : t.nv = s.nv := congrArg (·.2.2.1) h
  have staged : t.cfg.staged = s.cfg.staged := congrArg (·.2.2.2.1) h
  have rooms : t.sea.rooms = s.sea.rooms := congrArg (·.2.2.2.2.1) h
  have engines : t.eng.engines = s.eng.engines := congrArg (·.2.2.2.2.2) h
  refine ⟨⟨congrArg (·.1) h, .of_cvu (congrArg (·.2.1) h), fun none => ⟨nv, staged.trans none⟩, fun ok => rooms ▸ ok⟩,
    fun ok => ⟨engines ▸ ok, fun e => ?_⟩⟩
  rw [State.engine, State.engine, engines]
  exact .refl _

theorem Stands.refl (s : State) : Stands s s := .of_stance rfl

/-- What follows moves nothing of it. -/
theorem Stands.still (h : Stands s t) (k : u.stance = t.stance) : Stands s u := h.trans (.of_stance k)

theorem Stands.of_recorded (h : Recorded s t) (k : Noted s t) : Stands s t := by
  unfold Recorded at h
  generalize t.rcd = r at h
  generalize t.cvu = c at h
  subst h
  exact ⟨⟨rfl, k, fun none => ⟨rfl, none⟩, id⟩, fun ok => ⟨ok, fun _ => .refl _⟩⟩

theorem Stands.foldl {α : Type} {f : State → α → State} (h : ∀ a x, Stands a (f a x)) (l : List α) (s : State) :
    Stands s (l.foldl f s) := by
  induction l generalizing s with
  | nil => exact .refl s
  | cons x l ih => exact (h s x).trans (ih _)

theorem Stands.of_sansTimers (h : t.sansTimers = s.sansTimers) : Stands s t := .of_stance (congrArg State.stance h :)

end

section
variable (s : State)

theorem record_stands (c v : Nat) (p : List Byte) (b : Bool) (k : Option Nat) : Stands s (s.record c v p b k) :=
  .of_recorded (record_recorded ..) (record_noted ..)

theorem finish_stands (op st : Nat) (b : List Byte) : Stands s (s.finish op st b) := by
  rw [finish_eq]
  exact .of_stance rfl

theorem seeDiffer_stands : Stands s s.seeDiffer := .of_sansTimers s.seeDiffer_sansTimers

theorem setInst_stands (st : Bool) (i : Nat) (v : Option Inst) : Stands s (s.setInst st i v) := .of_stance rfl

theorem dropTimers_stands (st : Bool) (i : Nat) : Stands s (s.dropTimers st i) := by
  refine .of_sansTimers ((foldl_sansTimers (fun a e => ?_) _ _).trans s.takeDues_sansTimers)
  dsimp only
  split <;> rfl

theorem idleTimers_stands (e : Nat) : Stands s (s.idleTimers e) := by
  refine .of_sansTimers ((foldl_sansTimers (fun a e => ?_) _ _).trans s.takeDues_sansTimers)
  dsimp only
  split <;> rfl

/-! ### Instances -/

theorem logicRecord_stands (st : Bool) (i : InstImg) (old new : FnSt) : Stands s (s.logicRecord st i old new) := by
  unfold State.logicRecord
  dsimp only
  split
  · exact .refl s
  · exact record_stands ..

theorem toSafe_stands (st : Bool) (i : InstImg) : Stands s (s.toSafe st i) := by
  unfold State.toSafe
  split
  · exact .refl s
  · exact ((setInst_stands ..).trans (logicRecord_stands ..)).trans (seeDiffer_stands _)

theorem dropResets_stands (v : Inst) : Stands s (s.dropResets v) := .foldl (fun a _ => finish_stands a ..) _ s

theorem shedRecord_stands (w : Word) : Stands s (s.shedRecord w) := by
  unfold State.shedRecord
  split
  · exact .refl s
  · exact record_stands ..

theorem shedInst_stands (key : Nat) : Stands s (s.shedInst key) := by
  unfold State.shedInst
  dsimp only
  split
  · split
    · exact .refl s
    · exact (((dropResets_stands ..).trans (setInst_stands ..)).trans (toSafe_stands ..)).trans (dropTimers_stands ..)
  · exact .refl s

theorem placeInst_stands (key e : Nat) : Stands s (s.placeInst key e) := by
  unfold State.placeInst
  dsimp only
  split
  · split
    · exact setInst_stands ..
    · exact (setInst_stands ..).trans (toSafe_stands ..)
  · exact .refl s

theorem evict_stands (e : Nat) : Stands s (s.evict e) := by
  unfold State.evict
  refine .trans (.trans (.foldl (fun a x => ?_) _ s) (shedRecord_stands ..)) (seeDiffer_stands _)
  split
  · exact .refl a
  · dsimp only
    split
    · exact .refl a
    · split
      · exact (dropResets_stands ..).trans (setInst_stands ..)
      · exact .refl a

theorem applyPlan_stands (p : Plan) : Stands s (s.applyPlan p) := by
  unfold State.applyPlan
  dsimp only
  have moved := (Stands.foldl shedInst_stands p.shed s).trans
    (.foldl (fun a (x : Nat × Nat) => placeInst_stands a x.1 x.2) p.place _)
  refine .trans ?_ (shedRecord_stands ..)
  exact moved.still rfl

theorem replace_stands : Stands s s.replace := by
  unfold State.replace
  dsimp only
  split
  · exact .refl s
  · split
    · exact applyPlan_stands ..
    · exact .refl s

/-! ### Engines -/

theorem setEngine_shifts (e : Nat) (v : Engine) : Shifts s (s.setEngine e v) :=
  ⟨rfl, .of_cvu rfl, fun none => ⟨rfl, none⟩, id⟩

end

section
variable {s t : State} {e : Nat}

theorem Stands.setEngine (k : Stands s t) {v : Engine}
    (h : Tab.ok .start s.eng.engines = true → (t.engine e).st.Stays v.st) : Stands s (t.setEngine e v) := by
  refine ⟨k.toShifts.trans (setEngine_shifts ..), fun ok => ?_⟩
  obtain ⟨okt, stays⟩ := k.engines ok
  refine ⟨Tab.ok_set _ _ okt, fun n => (stays n).trans ?_⟩
  rw [engine_setEngine okt]
  split
  · next same => exact same ▸ h ok
  · exact .refl _

/-- What is noted of an engine leaves its state. -/
theorem Stands.noteEngine (k : Stands s t) {v : Engine} (h : v.st = (t.engine e).st) : Stands s (t.setEngine e v) :=
  k.setEngine fun _ => h ▸ .refl _

theorem Stands.setEngSt (k : Stands s t) {st : EngSt}
    (h : Tab.ok .start s.eng.engines = true → (t.engine e).st.Stays st) : Stands s (t.setEngSt e st) := by
  unfold State.setEngSt
  dsimp only
  split
  · exact k
  · exact (k.setEngine h).trans (record_stands ..)

end

section
variable (s : State)

/-- An engine neither in service nor out may take any state. -/
theorem stays_of_between {a : EngSt} (b : EngSt) (h : a = .split ∨ a = .suspect ∨ a = .testing) : a.Stays b := by
  rcases h with rfl | rfl | rfl <;> exact ⟨nofun, nofun⟩

/-- An engine in service may take another state of service. -/
theorem stays_of_serving {a b : EngSt} (ha : a = .active ∨ a = .spare) (hb : b = .active ∨ b = .spare) :
    a.Stays b := ⟨fun _ => hb, fun out => by rcases ha with rfl | rfl <;> simp at out⟩

theorem dropResets_eng (v : Inst) : (s.dropResets v).eng = s.eng := foldl_view State.eng (fun _ _ => finish_eng ..) _ s

theorem shedRecord_eng (w : Word) : (s.shedRecord w).eng = s.eng := by
  unfold State.shedRecord
  split
  · rfl
  · exact eng_of_recorded (record_recorded ..)

theorem evict_engines (e : Nat) : (s.evict e).eng.engines = s.eng.engines := by
  unfold State.evict
  dsimp only
  rw [seeDiffer_eng, shedRecord_eng]
  refine foldl_view (fun u => u.eng.engines) (fun a x => ?_) s.eng.insts s
  split
  · rfl
  · split
    · rfl
    · split
      · change (a.dropResets _).eng.engines = _
        rw [dropResets_eng]
      · rfl

theorem idleTimers_sansTimers (e : Nat) : (s.idleTimers e).sansTimers = s.sansTimers := by
  refine (foldl_sansTimers (fun a x => ?_) _ _).trans s.takeDues_sansTimers
  dsimp only
  split <;> rfl

/-- A self-test begins on an engine that is neither in service nor out. -/
theorem startTest_stands {e : Nat} (why : TestWhy) (split : (s.engine e).st = .split) :
    Stands s (s.startTest e why) := by
  have idle := idleTimers_sansTimers (s.evict e) e
  have moved : Stands s ((s.evict e).idleTimers e) := (evict_stands s e).trans (.of_sansTimers idle)
  have engines : ((s.evict e).idleTimers e).eng.engines = s.eng.engines := by
    rw [eng_of_sansTimers idle, evict_engines]
  unfold State.startTest
  dsimp only
  generalize (s.evict e).idleTimers e = t at moved engines
  have splitt : (t.engine e).st = .split := by rw [State.engine, engines, ← State.engine, split]
  refine (moved.noteEngine (by rfl)).setEngSt fun ok => ?_
  rw [engine_setEngine_same (moved.engines ok).1]
  exact stays_of_between _ (.inl splitt)

theorem joinOne_stands (need : Bool) : Stands s (s.joinOne need) := by
  unfold State.joinOne
  dsimp only
  split
  · exact .refl s
  · split
    · next found => exact startTest_stands s _ (by simpa using List.find?_some found)
    · exact .refl s

theorem settleEngine_stands (e : Nat) : Stands s (s.settleEngine e) := by
  have still := Stands.refl s
  unfold State.settleEngine
  dsimp only
  split
  · next active =>
    split
    · exact (still.setEngSt fun _ => stays_of_serving (.inl active) (.inr rfl)).trans (replace_stands _)
    · exact still
  · next spare =>
    split
    · exact still
    · exact still.setEngSt fun _ => stays_of_serving (.inr spare) (.inl rfl)
  · next suspect =>
    split
    · exact still
    · refine (still.noteEngine (e := e) (by rfl)).setEngSt fun ok => ?_
      rw [engine_setEngine_same ok]
      exact stays_of_between _ (.inr (.inl suspect))
  · exact still

theorem settle_stands : Stands s s.settle := by
  have round (t : State) : Stands t ((List.range 8).foldl State.settleEngine t) := .foldl settleEngine_stands _ t
  unfold State.settle
  dsimp only
  exact ((round s).trans (round _)).trans (joinOne_stands ..)

/-! ### The end of staging (R323) -/

theorem roomToTest_stands (r : Nat) (b : Bool) : Stands s (s.roomToTest r b) := by
  unfold State.roomToTest
  dsimp only
  split
  · exact .refl s
  · exact ⟨⟨rfl, .of_cvu rfl, fun none => ⟨rfl, none⟩, Tab.ok_set _ _⟩, fun ok => ⟨ok, fun _ => .refl _⟩⟩

theorem dropStagedResets_stands : Stands s s.dropStagedResets := by
  refine .foldl (fun a e => ?_) _ s
  split
  · exact .refl a
  · split
    · exact .refl a
    · exact .foldl (fun a _ => finish_stands a ..) _ a

/-- With an image in shadow, what is stored may change. -/
theorem Stands.unstage {s t u : State} (k : Stands s t) {m : Image} (staged : s.cfg.staged = some m)
    (footing : u.footing = t.footing) (cvu : u.cvu = t.cvu) (rooms : u.sea.rooms = t.sea.rooms)
    (engines : u.eng.engines = t.eng.engines) : Stands s u := by
  refine ⟨⟨footing.trans k.footing, k.units.trans (.of_cvu cvu), fun none => (nomatch staged.symm.trans none),
    fun ok => rooms ▸ k.rooms ok⟩, fun ok => ?_⟩
  obtain ⟨okt, stays⟩ := k.engines ok
  refine ⟨engines ▸ okt, fun e => ?_⟩
  have same : u.engine e = t.engine e := by rw [State.engine, engines, State.engine]
  exact same ▸ stays e

theorem endStage_stands (why : StageEnd) : Stands s (s.endStage why) := by
  unfold State.endStage
  split
  · exact .refl s
  · next m staged =>
    have tested (t : State) (l : List Nat) (h : Stands s t) : Stands s (l.foldl (fun a r => a.roomToTest r false) t) :=
      h.trans (.foldl (fun a r => roomToTest_stands a r false) l t)
    have moved := tested _ s.dropStagedResets.stagedRooms (dropStagedResets_stands s)
    dsimp only
    generalize s.dropStagedResets.stagedRooms.foldl (fun a r => a.roomToTest r false) s.dropStagedResets = t at moved ⊢
    refine .trans (.trans (moved.unstage staged ?_ ?_ ?_ ?_) (finish_stands ..)) (record_stands ..) <;> rfl

/-- Staging ends where its cost ends it. -/
theorem endStageIf_stands (c : Bool) : Stands s (if c then s.endStage .capacity else s) := by
  cases c
  · exact .refl s
  · exact endStage_stands s .capacity

theorem redistribute_stands : Stands s s.redistribute := by
  have ended := endStageIf_stands s (s.cfg.staged.isSome && stagingCosts s.inService (s.items true))
  unfold State.redistribute
  dsimp only
  generalize (if (s.cfg.staged.isSome && stagingCosts s.inService (s.items true)) = true then s.endStage .capacity
    else s) = t at ended ⊢
  split
  · exact ended
  · exact (ended.trans (joinOne_stands ..)).trans (applyPlan_stands ..)

theorem noJudge_stands : Stands s s.noJudge := by
  unfold State.noJudge
  split
  · exact .refl s
  · refine .foldl (fun a x => ?_) _ s
    dsimp only
    split
    · exact (setInst_stands ..).trans (toSafe_stands ..)
    · exact .refl a

/-! ### Engines that are lost (R422) -/

theorem loseWindow_stands (st : Bool) (i : InstImg) (w : Window) (cause : Nat) :
    Stands s (s.loseWindow st i w cause) := by
  have safe (t : State) (tick : Nat) (b : Bool) : Stands t (t.holdOrSafe st i tick b) := by
    unfold State.holdOrSafe
    split
    · exact .refl t
    · split
      · exact .refl t
      · split
        · exact setInst_stands ..
        · exact toSafe_stands ..
  unfold State.loseWindow
  split
  · exact .refl s
  · exact ((setInst_stands ..).trans (record_stands ..)).trans (safe ..)

theorem loseEngines_stands (lost : List Nat) : Stands s (s.loseEngines lost) := by
  have count (t : State) (e : Nat) : Stands t (t.setEngine e ((t.engine e).count 5)) := (Stands.refl t).noteEngine rfl
  unfold State.loseEngines
  refine .foldl (fun a x => ?_) _ s
  dsimp only
  split
  · split
    · refine ((count a _).trans (loseWindow_stands ..)).trans (.foldl (fun t w => ?_) _ _)
      exact (count t _).trans (record_stands ..)
    · exact .refl a
  · exact .refl a

theorem endEngineOps_stands (e : Nat) : Stands s (s.endEngineOps e) := by
  have first (c : Prop) [Decidable c] (n : Nat) : Stands s (if c then s.finish n stFault else s) := by
    split
    · exact finish_stands ..
    · exact .refl s
  unfold State.endEngineOps
  dsimp only
  split
  · exact (first ..).trans (finish_stands ..)
  · exact first ..

/-! ### Rooms -/

theorem setRoom_stands (r : Nat) (v : Room) : Stands s (s.setRoom r v) :=
  ⟨⟨rfl, .of_cvu rfl, fun none => ⟨rfl, none⟩, Tab.ok_set _ _⟩, fun ok => ⟨ok, fun _ => .refl _⟩⟩

theorem setIrm_stands (k : Nat) (v : IRoom) : Stands s (s.setIrm k v) := .of_stance rfl

theorem roomRecord_stands (r key event site : Nat) : Stands s (s.roomRecord r key event site) := record_stands ..

theorem dropRoom_stands (r : Nat) : Stands s (s.dropRoom r) := by
  unfold State.dropRoom
  dsimp only
  split
  · exact .refl s
  · exact setRoom_stands ..

theorem markLatches_stands (k : Nat) : Stands s (s.markLatches k) := by
  unfold State.markLatches
  dsimp only
  split
  · exact .refl s
  · split
    · exact .refl s
    · exact setIrm_stands ..

theorem dropMirror_stands (k : Nat) (failed : Bool) : Stands s (s.dropMirror k failed) := by
  unfold State.dropMirror
  dsimp only
  split
  · exact .refl s
  · split
    · exact (setIrm_stands ..).trans (dropRoom_stands ..)
    · exact (setIrm_stands ..).trans (roomToTest_stands ..)

theorem failImage_stands (k : Nat) : Stands s (s.failImage k) := by
  refine (markLatches_stands s k).trans ?_
  unfold State.failImage
  generalize s.markLatches k = t
  dsimp only
  split
  · exact .refl t
  · split
    · refine .trans (.trans (.trans (.trans (setIrm_stands t k _) (setRoom_stands ..)) (dropRoom_stands ..))
        (roomRecord_stands ..)) (.of_sansTimers (State.latchEdges_sansTimers ..))
    · exact .trans (.trans (dropMirror_stands t k false) (setIrm_stands ..)) (setRoom_stands ..)

theorem startRewrite_stands (k : Nat) : Stands s (s.startRewrite k) := by
  unfold State.startRewrite
  dsimp only
  split
  · exact .refl s
  · exact (setIrm_stands ..).trans (setRoom_stands ..)

theorem startMirror_stands (k : Nat) : Stands s (s.startMirror k) := by
  unfold State.startMirror
  dsimp only
  split
  · split
    · exact .refl s
    · split
      · exact .refl s
      · exact (setIrm_stands ..).trans (setRoom_stands ..)
  · exact .refl s

theorem serveSea_stands : Stands s s.serveSea :=
  ((endStageIf_stands s s.seaCosts).trans (.foldl startRewrite_stands _ _)).trans (.foldl startMirror_stands _ _)

/-! ### A half that goes down -/

theorem cutRooms_stands (q : Side) (k : Nat) : Stands s (s.cutRooms q k) := setIrm_stands ..

theorem noteLoss_stands (r : Nat) : Stands s (s.noteLoss r) := by
  unfold State.noteLoss
  split
  · exact .refl s
  · dsimp only
    split
    · exact .refl s
    · refine .trans ?_ (roomRecord_stands ..)
      exact (setRoom_stands s ..).still rfl

end

end Sys2Proof.Machine

/-! DOMAIN_POWER_DOWN, DOMAIN_POWER_UP, DOMAIN_FAULT and DOMAIN_RETRY (R272, R273, R276). -/

namespace Sys2Proof.Machine

/-! ### Domains by command -/

/-- PWR_DOMWHY takes the reason why a domain is not switched (R273). -/
def State.denied (s : State) (d why : Nat) : State := { s with pwr := { s.pwr with whyDom := d, why := why } }

section
variable {s : State} {d : Nat} {on : Bool}

theorem domCtl_outside (h : d < 2 ∨ d = 7) : (s.domCtl d on).1 = s.denied d 9 :=
  congrArg Prod.fst (if_pos (by omega) : s.domCtl d on = _)

section
variable (low : 2 ≤ d) (high : d ≤ 6)
include low high

theorem domCtl_busy (h : s.switchingBut d = true ∨ s.migrating = true ∨ s.pwr.pfail = true ∨ s.cfg.handover ≠ none) :
    (s.domCtl d on).1 = s.denied d 10 := by
  have busy : (s.switchingBut d || s.migrating || s.pwr.pfail || s.cfg.handover.isSome) = true := by
    simpa [or_assoc, Option.isSome_iff_ne_none] using h
  exact congrArg Prod.fst ((if_neg (by omega)).trans (if_pos busy) : s.domCtl d on = _)

variable (others : s.switchingBut d = false) (still : s.migrating = false) (calm : s.pwr.pfail = false)
  (settled : s.cfg.handover = none)
include others still calm settled

theorem domCtl_judged : s.domCtl d on =
    let why := if on then s.upWhy d else s.downWhy d
    if why ≠ 0 then (s.denied d why, stState)
    else if on then
      (({ s with pwr := { s.pwr with doms := Tab.upd .ready s.pwr.doms d fun v => { v with retryAt := none } } }).domTo
        d .comingUp, stOk)
    else if (s.dom d).st = .on then (s.domTo d .goingDown, stOk)
    else if (s.dom d).st = .goingDown ∨ (s.dom d).st = .comingUp then (s.denied d 0, stState)
    else (s, stOk) := by
  have idle : ¬(s.switchingBut d || s.migrating || s.pwr.pfail || s.cfg.handover.isSome) = true := by
    simp [others, still, calm, settled]
  exact (if_neg (by omega)).trans (if_neg idle)

theorem domCtl_down (free : s.downWhy d = 0) (isOn : (s.dom d).st = .on) :
    (s.domCtl d false).1 = s.domTo d .goingDown := by
  simp [domCtl_judged low high others still calm settled, free, isOn]

theorem domCtl_refused (bound : s.downWhy d ≠ 0) : (s.domCtl d false).1 = s.denied d (s.downWhy d) := by
  simp [domCtl_judged low high others still calm settled, bound]

theorem domCtl_up (off : (s.dom d).st = .offCmd) : (s.domCtl d true).1 =
    (s.setDom d { s.dom d with retryAt := none }).domTo d .comingUp := by
  have free : s.upWhy d = 0 := by simp [State.upWhy, off]
  rw [domCtl_judged low high others still calm settled]
  simp only [free, if_true, ne_eq, not_true_eq_false, if_false]
  rfl

theorem domCtl_noUp {why : Nat} (named : s.upWhy d = why) (bound : why ≠ 0) :
    (s.domCtl d true).1 = s.denied d why := by
  simp [domCtl_judged low high others still calm settled, named, bound]

end

variable (d : BitVec 3) (up : s.porchUp = true)
include up

theorem execDomainPowerDown_up : execDomainPowerDown d s = .next (s.domCtl d.toNat false).1 :=
  congrArg Host.Outcome.next (if_pos up)

theorem execDomainPowerUp_up : execDomainPowerUp d s = .next (s.domCtl d.toNat true).1 :=
  congrArg Host.Outcome.next (if_pos up)

end

/-! ### What a domain shows -/

section
variable {s : State} (ok : Tab.ok .ready s.pwr.doms = true) (d : Nat) (st : DomSt) (why : Nat)

theorem dom_of_pwr {t : State} (h : t.pwr = s.pwr) (e : Nat) : t.dom e = s.dom e := by rw [State.dom, h, State.dom]

include ok

/-- A domain takes its new state, and the others stay. -/
theorem dom_domTo : Tab.ok .ready (s.domTo d st why).pwr.doms = true ∧
    (∃ n, (s.domTo d st why).dom d = { s.dom d with st := st, stamp := n }) ∧
    ∀ e, e ≠ d → (s.domTo d st why).dom e = s.dom e := by
  unfold State.domTo
  dsimp only
  split
  · next same => exact ⟨ok, ⟨(s.dom d).stamp, by rw [← same]⟩, fun _ _ => rfl⟩
  · have pwr (v : Domain) (x y z : Nat) := State.domRecord_pwr (s.setDom d v) d x y z
    refine ⟨?_, ⟨s.tb, ?_⟩, fun e other => ?_⟩
    · rw [pwr]
      exact Tab.ok_set d _ ok
    · rw [dom_of_pwr (pwr ..), dom_setDom ok, if_pos rfl]
    · rw [dom_of_pwr (pwr ..), dom_setDom ok, if_neg other]

theorem dom_abandonDown (q : Side) : Tab.ok .ready (s.abandonDown q).pwr.doms = true ∧
    (s.abandonDown q).dom (engDom q) = s.dom (engDom q) := by
  have apart : engDom q ≠ engDom (otherSide q) := by cases q <;> decide
  unfold State.abandonDown
  dsimp only
  split
  · obtain ⟨okt, -, others⟩ := dom_domTo (s := { s with
      pwr := { s.pwr with whyDom := engDom (otherSide q), why := 8 } }) ok (engDom (otherSide q)) .on 8
    exact ⟨okt, (others _ apart).trans rfl⟩
  · exact ⟨ok, rfl⟩

/-- The loss of a reference leaves its own domain as it is. -/
theorem dom_loseOsc (q : Side) (v : OscSt) : (s.loseOsc q v).dom (engDom q) = s.dom (engDom q) := by
  have doms {t : State} (h : t.pwr.doms = s.pwr.doms) : (t.abandonDown q).dom (engDom q) = s.dom (engDom q) := by
    rw [(dom_abandonDown (h ▸ ok) q).2, State.dom, h, State.dom]
  unfold State.loseOsc
  dsimp only
  split
  · cases q <;> rfl
  · refine doms ?_
    rw [State.oscRecord_pwr]
    split_ifs <;> cases q <;> rfl

end

end Sys2Proof.Machine

/-! What goes down with a domain (R26, R274, R276, R422). -/

namespace Sys2Proof.Machine

/-- Steps that each mark their own entry, and leave the marks of the others, mark every entry of a list. -/
theorem foldl_marks {α : Type} {I : State → Prop} {P : State → α → Prop} {f : State → α → State}
    (keeps : ∀ a x, I a → I (f a x)) (marks : ∀ a x, I a → P (f a x) x)
    (stays : ∀ a x y, I a → P a y → P (f a x) y) (l : List α) {s : State} (h : I s) :
    I (l.foldl f s) ∧ ∀ x ∈ l, P (l.foldl f s) x := by
  have step (l : List α) (s : State) (h : I s) (y : α) (hy : y ∈ l ∨ P s y) : P (l.foldl f s) y := by
    induction l generalizing s with
    | nil => exact hy.resolve_left List.not_mem_nil
    | cons x l ih =>
      refine ih (f s x) (keeps s x h) ?_
      rcases hy with mem | marked
      · rcases List.mem_cons.1 mem with rfl | mem
        · exact .inr (marks s y h)
        · exact .inl mem
      · exact .inr (stays s x y h marked)
  refine ⟨?_, fun x hx => step l s h x (.inl hx)⟩
  clear step marks stays
  induction l generalizing s with
  | nil => exact h
  | cons x l ih => exact ih (keeps s x h)

/-! ### A half of the sea -/

/-- Rooms of halves that are off, or that are retired, stay so. -/
def KeepsOut (s t : State) : Prop := Tab.ok .start s.sea.rooms = true → Tab.ok .start t.sea.rooms = true ∧
  ∀ r, (s.room r).st = .off ∨ (s.room r).st = .retired → t.room r = s.room r

section
variable {s t u : State}

theorem KeepsOut.trans (h : KeepsOut s t) (k : KeepsOut t u) : KeepsOut s u := fun ok => by
  obtain ⟨okt, ht⟩ := h ok
  obtain ⟨oku, ku⟩ := k okt
  refine ⟨oku, fun r out => ?_⟩
  have same := ht r out
  exact (ku r (same ▸ out)).trans same

theorem KeepsOut.of_rooms (h : t.sea.rooms = s.sea.rooms) : KeepsOut s t := fun ok =>
  ⟨h ▸ ok, fun r _ => by rw [State.room, h, State.room]⟩

theorem KeepsOut.foldl {α : Type} {f : State → α → State} (h : ∀ a x, KeepsOut a (f a x)) (l : List α) (s : State) :
    KeepsOut s (l.foldl f s) := by
  induction l generalizing s with
  | nil => exact .of_rooms rfl
  | cons x l ih => exact (h s x).trans (ih _)

theorem Serves.keepsOut (h : Serves s t) : KeepsOut s t := fun ok => by
  obtain ⟨okt, kept⟩ := h.rooms ok
  refine ⟨okt, fun r out => kept r ?_⟩
  rcases out with out | out <;> rw [out] <;> decide

theorem roomToTest_keepsOut (s : State) (r : Nat) (b : Bool) : KeepsOut s (s.roomToTest r b) := by
  unfold State.roomToTest
  dsimp only
  split
  · exact .of_rooms rfl
  · next usable =>
    refine fun ok => ⟨Tab.ok_set _ _ ok, fun q out => ?_⟩
    rw [room_setRoom ok, if_neg]
    rintro rfl
    rcases out with out | out <;> exact usable (by simp [out])

theorem endStage_keepsOut (s : State) (why : StageEnd) : KeepsOut s (s.endStage why) := by
  unfold State.endStage
  split
  · exact .of_rooms rfl
  · refine (KeepsOut.of_rooms (congrArg Sea.rooms (sea_of_sources (State.dropStagedResets_sources s)))).trans ?_
    generalize s.dropStagedResets = s1
    have tested : KeepsOut s1 (s1.stagedRooms.foldl (fun a r => a.roomToTest r false) s1) :=
      .foldl (fun a r => roomToTest_keepsOut a r false) _ s1
    dsimp only
    generalize s1.stagedRooms.foldl (fun a r => a.roomToTest r false) s1 = s2 at tested ⊢
    refine tested.trans (.of_rooms ?_)
    rw [sea_of_sources (State.record_sources ..), sea_of_sources (State.finish_sources ..)]
    rfl

theorem serveSea_keepsOut (s : State) : KeepsOut s s.serveSea := by
  refine KeepsOut.trans ?_ (serveSea_serves s).keepsOut
  split
  · exact endStage_keepsOut s _
  · exact .of_rooms rfl

end

/-- One room of a half is off with it. -/
def State.offRoom (s : State) (r : Nat) : State :=
  if (s.room r).st = .retired then s
  else s.setRoom r { s.room r with st := .off, iroom := 0, cells := .start, differs := false, rideEnded := [] }

/-- The failures that the loss of a half brings about, before its rooms are off (Table 4.3). -/
def State.failHalf (s : State) (q : Side) : State :=
  let keys := s.sea.imap.map Prod.fst
  let s0 := (List.range 32).foldl (fun acc j => acc.noteLoss (sideNat q * 32 + j)) s
  let s1 := keys.foldl (fun acc k => acc.cutRooms q k) s0
  keys.foldl (fun acc k =>
    match (acc.irm k).room with
    | some r => if roomSide r == q && (acc.irm k).failedAt.isNone then acc.failImage k else acc
    | none => acc) s1

section
variable (s : State) (q : Side)

theorem loseSea_eq : s.loseSea q =
    ((List.range 32).foldl (fun acc j => acc.offRoom (sideNat q * 32 + j)) (s.failHalf q)).serveSea := rfl

theorem offRoom_stands (r : Nat) : Stands s (s.offRoom r) := by
  unfold State.offRoom
  split
  · exact .refl s
  · exact setRoom_stands ..

theorem failHalf_stands : Stands s (s.failHalf q) := by
  unfold State.failHalf
  dsimp only
  refine .trans (.trans (.foldl (fun a j => noteLoss_stands a _) _ s) (.foldl (fun a k => cutRooms_stands a q k) _ _))
    (.foldl (fun a k => ?_) _ _)
  split
  · split
    · exact failImage_stands a k
    · exact .refl a
  · exact .refl a

theorem loseSea_stands : Stands s (s.loseSea q) := by
  rw [loseSea_eq]
  exact ((failHalf_stands s q).trans (.foldl (fun a j => offRoom_stands a _) _ _)).trans (serveSea_stands _)

/-- The room is out, and so stay the others that are. -/
theorem offRoom_out (ok : Tab.ok .start s.sea.rooms = true) (r k : Nat)
    (h : k = r ∨ (s.room k).st = .off ∨ (s.room k).st = .retired) :
    ((s.offRoom r).room k).st = .off ∨ ((s.offRoom r).room k).st = .retired := by
  unfold State.offRoom
  split
  · next retired => exact h.elim (fun same => .inr (same ▸ retired)) id
  · rw [room_setRoom ok]
    split
    · exact .inl rfl
    · next other => exact h.resolve_left other

/-- Every room of the half is off, but for those that are retired. -/
theorem loseSea_rooms (ok : Tab.ok .start s.sea.rooms = true) {r : Nat} (low : 32 * sideNat q ≤ r)
    (high : r < 32 * sideNat q + 32) : ((s.loseSea q).room r).st = .off ∨ ((s.loseSea q).room r).st = .retired := by
  have off := foldl_marks (I := fun t => Tab.ok .start t.sea.rooms = true)
    (P := fun t j => (t.room (sideNat q * 32 + j)).st = .off ∨ (t.room (sideNat q * 32 + j)).st = .retired)
    (f := fun acc j => acc.offRoom (sideNat q * 32 + j)) (fun a j ok => (offRoom_stands a _).rooms ok)
    (fun a j ok => offRoom_out a ok _ _ (.inl rfl)) (fun a j k ok out => offRoom_out a ok _ _ (.inr out))
    (List.range 32) ((failHalf_stands s q).rooms ok)
  have out := off.2 (r - 32 * sideNat q) (List.mem_range.2 (by omega))
  rw [show sideNat q * 32 + (r - 32 * sideNat q) = r by omega] at out
  have kept := congrArg Room.st ((serveSea_keepsOut _ off.1).2 r out)
  rw [loseSea_eq]
  exact out.imp kept.trans kept.trans

end

end Sys2Proof.Machine

/-! What goes down with an evaluation half and with the links to other devices (R26, R274, R363, R422). -/

namespace Sys2Proof.Machine

/-! ### An evaluation half -/

/-- One engine is off with its half (R274). -/
def State.offEngine (s : State) (e : Nat) : State :=
  let t := s.setEngine e { s.engine e with halted := false, breaks := [], drainOp := 0, forDebug := false }
  if (t.engine e).st = .retired then t else t.setEngSt e .off

/-- The comparator and the checkpoint memory of a half are off. -/
def State.cmpDark (s : State) (q : Side) : State :=
  let s3 := if s.cmp q = .inService then s.setCmp q .off else s
  let insts := Tab.mapVal none
    (fun x => x.map fun v => if v.ckIn = q then { v with ckpt := none } else v) s3.eng.insts
  let att := s3.eng.attached.filter fun e => !(sideEngines q).contains e
  { s3 with eng := { s3.eng with insts := insts, attached := att } }

/-- The link and the matrix copy of a half are dark. -/
def State.linkDark (s : State) (q : Side) : State :=
  let l := s.link q
  let s5 := s.setLink q { l with st := if l.st = .valid then .silent else l.st, last := none,
                                 up := none, due := none, down := none, missRun := 0 }
  let was := l.st == .valid && !l.retired
  let s5 := if was then s5.linkRecord q 1 else s5
  match q with
  | .a => { s5 with lgc := { s5.lgc with tripA := [] }, cnv := { s5.cnv with bufA := [] } }
  | .b => { s5 with lgc := { s5.lgc with tripB := [] }, cnv := { s5.cnv with bufB := [] } }

/-- Work in progress on the engines of a half ends (R422). -/
def State.endHalf (s : State) (q : Side) : State :=
  ((sideEngines q).foldl (fun acc e => (acc.endEngineOps e).evict e) s).loseEngines (sideEngines q)

section
variable (s : State) (q : Side)

theorem loseEng_eq : s.loseEng q = (((((((sideEngines q).foldl State.offEngine (s.endHalf q)).cmpDark q).linkDark
    q).loseOsc q .off).noJudge).redistribute).settle := rfl

theorem endHalf_stands : Stands s (s.endHalf q) :=
  (Stands.foldl (fun a e => (endEngineOps_stands a e).trans (evict_stands _ e)) _ s).trans (loseEngines_stands ..)

theorem setEngSt_shifts (e : Nat) (st : EngSt) : Shifts s (s.setEngSt e st) := by
  unfold State.setEngSt
  dsimp only
  split
  · exact (Stands.refl s).toShifts
  · exact (setEngine_shifts ..).trans (record_stands ..).toShifts

theorem offEngine_shifts (e : Nat) : Shifts s (s.offEngine e) := by
  unfold State.offEngine
  dsimp only
  split
  · exact setEngine_shifts ..
  · exact (setEngine_shifts ..).trans (setEngSt_shifts ..)

theorem engine_setEngSt (ok : Tab.ok .start s.eng.engines = true) (e : Nat) (st : EngSt) :
    Tab.ok .start (s.setEngSt e st).eng.engines = true ∧ ∀ k, ((s.setEngSt e st).engine k).st =
      if k = e then st else (s.engine k).st := by
  unfold State.setEngSt
  dsimp only
  split
  · next same =>
    refine ⟨ok, fun k => ?_⟩
    split
    · next here => exact here ▸ same
    · rfl
  · have eng (v : Engine) (c w : Nat) (p : List Byte) :=
      eng_of_recorded (record_recorded (s.setEngine e v) c w p false none)
    refine ⟨?_, fun k => ?_⟩
    · rw [eng]
      exact Tab.ok_set _ _ ok
    · rw [State.engine, eng, ← State.engine, engine_setEngine ok]
      split <;> rfl

/-- The engine is out, and so stay the others that are. -/
theorem offEngine_out (ok : Tab.ok .start s.eng.engines = true) (e k : Nat)
    (h : k = e ∨ (s.engine k).st = .off ∨ (s.engine k).st = .retired) :
    ((s.offEngine e).engine k).st = .off ∨ ((s.offEngine e).engine k).st = .retired := by
  unfold State.offEngine
  dsimp only
  rw [engine_setEngine_same ok]
  split
  · next retired =>
    rw [engine_setEngine ok]
    split
    · exact .inr retired
    · next other => exact h.resolve_left other
  · rw [(engine_setEngSt _ (Tab.ok_set _ _ ok) ..).2, engine_setEngine ok]
    split
    · exact .inl rfl
    · next other => exact h.resolve_left other

theorem offEngine_ok (ok : Tab.ok .start s.eng.engines = true) (e : Nat) :
    Tab.ok .start (s.offEngine e).eng.engines = true := by
  unfold State.offEngine
  dsimp only
  split
  · exact Tab.ok_set _ _ ok
  · exact (engine_setEngSt _ (Tab.ok_set _ _ ok) ..).1

theorem cmp_setCmp (v : CmpSt) : (s.setCmp q v).cmp q = v := by cases q <;> rfl

theorem cmpDark_dark : (s.cmpDark q).pwr = s.pwr ∧ (s.cmpDark q).cvu = s.cvu ∧
    (s.cmpDark q).eng.engines = s.eng.engines ∧ (s.cmpDark q).cmp q ≠ .inService := by
  have off : CmpSt.off ≠ .inService := by decide
  unfold State.cmpDark
  dsimp only
  split
  · cases q <;> exact ⟨rfl, rfl, rfl, off⟩
  · next out => cases q <;> exact ⟨rfl, rfl, rfl, out⟩

theorem setLink_rest (v : Link) : (s.setLink q v).pwr = s.pwr ∧ (s.setLink q v).cvu = s.cvu ∧
    (s.setLink q v).eng = s.eng := by cases q <;> exact ⟨rfl, rfl, rfl⟩

theorem linkDark_dark : (s.linkDark q).pwr = s.pwr ∧ Noted s (s.linkDark q) ∧ (s.linkDark q).eng = s.eng ∧
    ((s.linkDark q).link q).st ≠ .valid := by
  have silenced (l : Link) : (if l.st = .valid then .silent else l.st) ≠ LinkSt.valid := by
    split
    · decide
    · assumption
  have recordedIf (t : State) (c : Bool) : Recorded t (if c then t.linkRecord q 1 else t) ∧
      Noted t (if c then t.linkRecord q 1 else t) := by
    cases c
    · exact ⟨.refl t, .refl t⟩
    · exact ⟨record_recorded .., record_noted ..⟩
  unfold State.linkDark
  dsimp only
  generalize hv : ({ s.link q with
    st := if (s.link q).st = .valid then .silent else (s.link q).st, last := none, up := none, due := none, down := none
    missRun := 0 } : Link) = v
  have silent : v.st ≠ .valid := hv ▸ silenced _
  obtain ⟨pwr, cvu, eng⟩ := setLink_rest s q v
  obtain ⟨noted, units⟩ := recordedIf (s.setLink q v) ((s.link q).st == .valid && !(s.link q).retired)
  generalize (if ((s.link q).st == .valid && !(s.link q).retired) = true then _ else s.setLink q v) = w at noted units ⊢
  have pwrw := (pwr_of_recorded noted).trans pwr
  have engw := (eng_of_recorded noted).trans eng
  have unitsw := (Noted.of_cvu cvu).trans units
  have linkw : (w.link q).st ≠ .valid := by rwa [link_of_recorded noted, State.link_setLink]
  cases q <;> exact ⟨pwrw, unitsw.trans (.of_cvu rfl), engw, linkw⟩

theorem Shifts.foldl {α : Type} {f : State → α → State} (h : ∀ a x, Shifts a (f a x)) (l : List α) (s : State) :
    Shifts s (l.foldl f s) := by
  induction l generalizing s with
  | nil => exact (Stands.refl s).toShifts
  | cons x l ih => exact (h s x).trans (ih _)

/-- What is known of the parts of an evaluation half that is lost. -/
structure EngLost (q : Side) (s t : State) : Prop where
  dom     : Tab.ok .ready s.pwr.doms = true → t.dom (engDom q) = s.dom (engDom q)
  units   : Noted s t
  engines : Tab.ok .start s.eng.engines = true →
    ∀ e ∈ sideEngines q, (t.engine e).st = .off ∨ (t.engine e).st = .retired
  cmp     : t.cmp q ≠ .inService
  link    : (t.link q).st ≠ .valid
  osc     : t.osc q = .off

theorem EngLost.stands {q : Side} {s t u : State} (h : EngLost q s t) (k : Stands t u)
    (okt : Tab.ok .start s.eng.engines = true → Tab.ok .start t.eng.engines = true) : EngLost q s u := by
  refine ⟨fun ok => (dom_of_pwr k.pwr _).trans (h.dom ok), h.units.trans k.units, fun ok e he => ?_,
    k.cmp q ▸ h.cmp, ?_, (osc_of_pwr q (congrArg Pwr.osc k.pwr)).trans h.osc⟩
  · have out := h.engines ok e he
    have same := ((k.engines (okt ok)).2 e).2 out
    exact out.imp same.trans same.trans
  · have same : u.link q = t.link q := by cases q <;> simp only [State.link, k.lgc]
    exact same ▸ h.link

theorem loseEng_loses : EngLost q s (s.loseEng q) := by
  have ended := endHalf_stands s q
  rw [loseEng_eq]
  generalize s.endHalf q = h at ended ⊢
  have dark := ended.toShifts.trans (Shifts.foldl offEngine_shifts (sideEngines q) h)
  have out (ok : Tab.ok .start s.eng.engines = true) := foldl_marks (I := fun t => Tab.ok .start t.eng.engines = true)
    (P := fun t e => (t.engine e).st = .off ∨ (t.engine e).st = .retired) (f := State.offEngine)
    (fun a e ok => offEngine_ok a ok e) (fun a e ok => offEngine_out a ok e e (.inl rfl))
    (fun a e k ok out => offEngine_out a ok e k (.inr out)) (sideEngines q) (ended.engines ok).1
  generalize (sideEngines q).foldl State.offEngine h = a at dark out ⊢
  obtain ⟨pwrb, cvub, enginesb, cmpb⟩ := cmpDark_dark a q
  generalize a.cmpDark q = b at pwrb cvub enginesb cmpb ⊢
  obtain ⟨pwrc, unitsc, engc, linkc⟩ := linkDark_dark b q
  generalize b.linkDark q = c at pwrc unitsc engc linkc ⊢
  have lost := loseOsc_powerOnly c q .off
  have pwr : c.pwr = s.pwr := pwrc.trans (pwrb.trans dark.pwr)
  have engines : (c.loseOsc q .off).eng.engines = a.eng.engines :=
    (lost.congr (·.eng.engines) fun _ _ _ => rfl).trans ((congrArg Eng.engines engc).trans enginesb)
  refine EngLost.stands (t := c.loseOsc q .off) ⟨fun ok => ?_, ?_, fun ok e he => ?_, ?_, ?_, (osc_loseOsc q .off).1⟩
    (((noJudge_stands _).trans (redistribute_stands _)).trans (settle_stands _)) fun ok => engines ▸ (out ok).1
  · exact (dom_loseOsc (pwr ▸ ok) q .off).trans (dom_of_pwr pwr _)
  · exact ((dark.units.trans (.of_cvu cvub)).trans unitsc).trans lost.units
  · rw [State.engine, engines]
    exact (out ok).2 e he
  · have same : (c.loseOsc q .off).cmp q = b.cmp q :=
      (lost.congr (·.cmp q) fun _ _ _ => by cases q <;> rfl).trans (by cases q <;> simp only [State.cmp, engc])
    exact same ▸ cmpb
  · have same : (c.loseOsc q .off).link q = c.link q := lost.congr (·.link q) fun _ _ _ => by cases q <;> rfl
    exact same ▸ linkc

end

end Sys2Proof.Machine

/-! The LINK domain as it is lost and as it starts (R354, R363, R374). -/

namespace Sys2Proof.Machine

/-- Nothing changed but the links to other devices, the records and what the shadow differs in. -/
structure LinkOnly (s t : State) : Prop where
  rest  : t = { s with lnk := t.lnk, rcd := t.rcd, cvu := t.cvu, cfg := { s.cfg with dseen := t.cfg.dseen } }
  units : Noted s t

/-- The ports and what is known of the other devices stay. -/
def State.harbour (s : State) : Tab Port × List Lsa × List Lsa := (s.lnk.ports, s.lnk.db, s.lnk.roof)

/-- Peers and connections are judged anew. -/
structure PeersOnly (s t : State) : Prop extends LinkOnly s t where
  harbour : t.harbour = s.harbour

section
variable {s t u : State}

theorem LinkOnly.trans (h : LinkOnly s t) (k : LinkOnly t u) : LinkOnly s u := by
  refine ⟨k.rest.trans ?_, h.units.trans k.units⟩
  exact congrArg (fun v : State => { v with
    lnk := u.lnk, rcd := u.rcd, cvu := u.cvu, cfg := { v.cfg with dseen := u.cfg.dseen } }) h.rest

theorem LinkOnly.pwr (h : LinkOnly s t) : t.pwr = s.pwr := by rw [h.rest]

theorem LinkOnly.image (h : LinkOnly s t) : t.cfg.image = s.cfg.image := by rw [h.rest]

theorem LinkOnly.of_lnk (s : State) (l : Lnk) : LinkOnly s { s with lnk := l } := ⟨rfl, .of_cvu rfl⟩

theorem LinkOnly.of_recorded (h : Recorded s t) (k : Noted s t) : LinkOnly s t := by
  have rest := h
  unfold Recorded at rest
  refine ⟨?_, k⟩
  rw [h.congr State.lnk fun _ _ => rfl, h.congr State.cfg fun _ _ => rfl]
  exact rest

theorem LinkOnly.foldl {α : Type} {f : State → α → State} (h : ∀ a x, LinkOnly a (f a x)) (l : List α) (s : State) :
    LinkOnly s (l.foldl f s) := by
  induction l generalizing s with
  | nil => exact .of_lnk s s.lnk
  | cons x l ih => exact (h s x).trans (ih _)

theorem PeersOnly.trans (h : PeersOnly s t) (k : PeersOnly t u) : PeersOnly s u :=
  ⟨h.toLinkOnly.trans k.toLinkOnly, k.harbour.trans h.harbour⟩

theorem PeersOnly.refl (s : State) : PeersOnly s s := ⟨.of_lnk s s.lnk, rfl⟩

theorem PeersOnly.of_recorded (h : Recorded s t) (k : Noted s t) : PeersOnly s t :=
  ⟨.of_recorded h k, h.congr State.harbour fun _ _ => rfl⟩

theorem PeersOnly.foldl {α : Type} {f : State → α → State} (h : ∀ a x, PeersOnly a (f a x)) (l : List α) (s : State) :
    PeersOnly s (l.foldl f s) := by
  induction l generalizing s with
  | nil => exact .refl s
  | cons x l ih => exact (h s x).trans (ih _)

theorem PeersOnly.port (h : PeersOnly s t) (p : Nat) : t.port p = s.port p := by
  have ports : t.lnk.ports = s.lnk.ports := congrArg (·.1) h.harbour
  rw [State.port, ports, State.port]

end

section
variable (s : State)

theorem record_peers (c v : Nat) (p : List Byte) (b : Bool) (k : Option Nat) : PeersOnly s (s.record c v p b k) :=
  .of_recorded (record_recorded ..) (record_noted ..)

theorem PeersOnly.recordIf {s t : State} (h : PeersOnly s t) (c : Prop) [Decidable c] (code sev : Nat)
    (p : List Byte) : PeersOnly s (if c then t else t.record code sev p) := by
  split
  · exact h
  · exact h.trans (record_peers ..)

/-! ### Ports -/

theorem departed_peers (v : Port) : PeersOnly s (s.departed v) := by
  unfold State.departed
  dsimp only
  split
  · exact .refl s
  · refine .trans ?_ (record_peers ..)
    exact ⟨.of_lnk s _, rfl⟩

theorem portTo_link (p : Nat) (st : PortSt) : LinkOnly s (s.portTo p st) := by
  unfold State.portTo
  dsimp only
  split
  · exact .of_lnk s s.lnk
  · split
    · refine .trans ?_ (departed_peers ..).toLinkOnly
      refine .trans ?_ (record_peers ..).toLinkOnly
      exact .of_lnk s _
    · refine .trans ?_ (record_peers ..).toLinkOnly
      exact .of_lnk s _

theorem port_portTo (ok : Tab.ok .start s.lnk.ports = true) (p : Nat) (st : PortSt) :
    Tab.ok .start (s.portTo p st).lnk.ports = true ∧ ((s.portTo p st).port p).st = st ∧
      ∀ k, k ≠ p → (s.portTo p st).port k = s.port k := by
  have moved {t : State} {v : Port} (h : t.lnk.ports = Tab.set .start s.lnk.ports p v) (hv : v.st = st) :
      Tab.ok .start t.lnk.ports = true ∧ (t.port p).st = st ∧ ∀ k, k ≠ p → t.port k = s.port k := by
    have read (k : Nat) : t.port k = if k = p then v else s.port k := by
      rw [State.port, h]
      exact Tab.get_set ok p k v
    exact ⟨h ▸ Tab.ok_set _ _ ok, by rw [read, if_pos rfl, hv], fun k other => (read k).trans (if_neg other)⟩
  have ports {t u : State} (h : PeersOnly t u) : u.lnk.ports = t.lnk.ports := congrArg (·.1) h.harbour
  unfold State.portTo
  dsimp only
  split
  · next same => exact ⟨ok, same, fun _ _ => rfl⟩
  · split
    · refine moved ((ports (departed_peers ..)).trans ((ports (record_peers ..)).trans rfl)) ?_
      rfl
    · refine moved ((ports (record_peers ..)).trans rfl) ?_
      rfl

theorem portTo_keeps (ok : Tab.ok .start s.lnk.ports = true) (p : Nat) {k : Nat} {st : PortSt}
    (h : (s.port k).st = st) : ((s.portTo p st).port k).st = st := by
  obtain ⟨-, own, others⟩ := port_portTo s ok p st
  by_cases same : k = p
  · exact same ▸ own
  · rw [others k same, h]

/-! ### Peers and connections -/

theorem judgePeers_peers : PeersOnly s s.judgePeers := by
  have clash : PeersOnly s (if s.clashNow && !s.lnk.clash then
      let s1 := { s with lnk := { s.lnk with clash := true } }
      s1.portRecord 0 (s1.port 0).st.code (s1.port 0).st.code else s) := by
    split
    · refine .trans ?_ (record_peers ..)
      exact ⟨.of_lnk s _, rfl⟩
    · exact .refl s
  have peer (a : State) (x : Tab (Nat × Bool)) : PeersOnly a { a with lnk := { a.lnk with peers := x } } :=
    ⟨.of_lnk a _, rfl⟩
  unfold State.judgePeers State.judgeRoof
  dsimp only at clash ⊢
  refine .trans (.trans clash (.foldl (fun a u => ?_) _ _)) (.foldl (fun a l => ?_) _ _)
  · exact ((peer a _).recordIf ..).recordIf ..
  · split
    · exact .refl a
    · exact (peer a _).trans (record_peers ..)

theorem recompute_peers : PeersOnly s s.recompute := by
  unfold State.recompute
  split <;> exact ⟨.of_lnk s _, rfl⟩

theorem seeDiffer_peers : PeersOnly s s.seeDiffer := by
  unfold State.seeDiffer
  split <;> exact ⟨⟨rfl, .of_cvu rfl⟩, rfl⟩

theorem failCons_peers (st : Bool) (k : Nat) (c : ConsImg) : PeersOnly s (s.failCons st k c) := by
  have set (t : State) (n : Nat) (v : Cons) : PeersOnly t (t.setCons n v) := ⟨.of_lnk t _, rfl⟩
  unfold State.failCons
  dsimp only
  split
  · exact .refl s
  · unfold State.consTo
    dsimp only
    split
    · exact (set ..).trans (seeDiffer_peers _)
    · exact ((set ..).trans (record_peers ..)).trans (seeDiffer_peers _)

/-! ### The domain goes down -/

theorem linkLoss_loses : LinkOnly s s.linkLoss ∧ s.linkLoss.lnk.db = [] ∧ s.linkLoss.lnk.roof = [] ∧
    (Tab.ok .start s.lnk.ports = true → ∀ p, p < 4 → (s.linkLoss.port p).st = .off) := by
  have off := LinkOnly.foldl (fun a p => portTo_link a p .off) (List.range 4) s
  have ports (ok : Tab.ok .start s.lnk.ports = true) := foldl_marks (I := fun t => Tab.ok .start t.lnk.ports = true)
    (P := fun t p => (t.port p).st = .off) (f := fun a p => a.portTo p .off)
    (fun a p ok => (port_portTo a ok p .off).1) (fun a p ok => (port_portTo a ok p .off).2.1)
    (fun a p k ok out => portTo_keeps a ok p out) (List.range 4) ok
  unfold State.linkLoss
  dsimp only
  generalize (List.range 4).foldl (fun acc p => acc.portTo p .off) s = a at off ports ⊢
  generalize hb : ({ a with lnk := { a.lnk with db := [], roof := [], control := [] } } : State) = b
  have cons : PeersOnly b (b.overCons fun a st k c => a.failCons st k c) := by
    unfold State.overCons
    exact .foldl (fun a st => .foldl (fun u (x : Nat × ConsImg) => failCons_peers u st x.1 x.2) _ a) _ b
  have judged := (cons.trans (judgePeers_peers _)).trans (recompute_peers _)
  generalize ((b.overCons fun a st k c => a.failCons st k c).judgePeers).recompute = c at judged ⊢
  have empty : c.harbour = (a.lnk.ports, [], []) := judged.harbour.trans (by rw [← hb]; rfl)
  refine ⟨off.trans (.trans (hb ▸ .of_lnk a _) judged.toLinkOnly), congrArg (·.2.1) empty, congrArg (·.2.2) empty,
    fun ok p hp => ?_⟩
  rw [judged.port, ← hb]
  exact (ports ok).2 p (List.mem_range.2 hp)

/-! ### The domain starts -/

/-- A port begins to look for its neighbour where it has a part to play (R354). -/
def State.seekPort (s : State) (p : Nat) : State :=
  if s.portRole p = 0 then s
  else (s.setPort p { (s.port p) with helloAt := none, nuid := 0, run := 0, delays := [], slow := false,
                                      sentAt := none, st := .off }).portTo p .down

theorem portRole_of_link {s t : State} (h : LinkOnly s t) (p : Nat) : t.portRole p = s.portRole p := by
  simp only [State.portRole, State.fab, State.img, h.image, Bool.false_eq_true, if_false]

theorem seekPort_link (p : Nat) : LinkOnly s (s.seekPort p) := by
  unfold State.seekPort
  split
  · exact .of_lnk s s.lnk
  · exact .trans (.of_lnk s _) (portTo_link ..)

theorem seekPort_seeks (ok : Tab.ok .start s.lnk.ports = true) (p : Nat) :
    Tab.ok .start (s.seekPort p).lnk.ports = true ∧ (s.portRole p ≠ 0 → ((s.seekPort p).port p).st = .down) ∧
      ∀ k, (s.port k).st = .down → ((s.seekPort p).port k).st = .down := by
  unfold State.seekPort
  split
  · next none => exact ⟨ok, fun used => absurd none used, fun _ => id⟩
  · generalize hv : ({ s.port p with
      helloAt := none, nuid := 0, run := 0, delays := [], slow := false, sentAt := none, st := .off } : Port) = v
    have okt : Tab.ok .start (s.setPort p v).lnk.ports = true := Tab.ok_set _ _ ok
    obtain ⟨oku, own, others⟩ := port_portTo (s.setPort p v) okt p .down
    refine ⟨oku, fun _ => own, fun k down => ?_⟩
    by_cases same : k = p
    · exact same ▸ own
    · rw [others k same]
      exact (congrArg Port.st ((Tab.get_set ok p k v).trans (if_neg same))).trans down

theorem linkStart_seeks : LinkOnly s s.linkStart ∧
    (Tab.ok .start s.lnk.ports = true → ∀ p, p < 4 → s.portRole p ≠ 0 → (s.linkStart.port p).st = .down) := by
  generalize hb : ({ s with lnk := { s.lnk with db := [], roof := [], lsaAt := none, lsaDue := true } } : State) = b
  have seen : LinkOnly s b := hb ▸ .of_lnk s _
  have start : s.linkStart = ((List.range 4).foldl State.seekPort b).recompute := by rw [← hb]; rfl
  have found := foldl_marks (I := fun t => LinkOnly s t ∧
      (Tab.ok .start s.lnk.ports = true → Tab.ok .start t.lnk.ports = true))
    (P := fun t p => Tab.ok .start s.lnk.ports = true → s.portRole p ≠ 0 → (t.port p).st = .down) (f := State.seekPort)
    (fun a p ⟨link, ok⟩ => ⟨link.trans (seekPort_link a p), fun oks => (seekPort_seeks a (ok oks) p).1⟩)
    (fun a p ⟨link, ok⟩ oks used => (seekPort_seeks a (ok oks) p).2.1 ((portRole_of_link link p).symm ▸ used))
    (fun a p k ⟨_, ok⟩ down oks used => (seekPort_seeks a (ok oks) p).2.2 k (down oks used)) (List.range 4)
    (s := b) ⟨seen, fun ok => by rw [← hb]; exact ok⟩
  have routed := recompute_peers ((List.range 4).foldl State.seekPort b)
  rw [start]
  refine ⟨found.1.1.trans routed.toLinkOnly, fun ok p hp used => ?_⟩
  rw [routed.port]
  exact found.2 p (List.mem_range.2 hp) ok used

end

end Sys2Proof.Machine

/-! DOMAIN_DOWN_END and DOMAIN_FAULT (R274, R276). -/

namespace Sys2Proof.Machine

/-- What the parts of domain `d` lose with its rail (R274, R276). -/
def State.loseParts (s : State) (d : Nat) : State :=
  match d with
  | 1 => s.losePorch
  | 2 => s.loseSea .a
  | 3 => s.loseSea .b
  | 4 => s.loseEng .a
  | 5 => s.loseEng .b
  | 6 => s.linkLoss
  | 7 => s.loseField
  | _ => s

theorem loseDomain_eq (s : State) (d : Nat) (st : DomSt) :
    s.loseDomain d st = ((s.domTo d st).loseParts d).freshUnits d := rfl

section
variable (s : State)

/-- The parts fall with the rail that the domain shows, and of the units the recorder's alone is used. -/
theorem loseParts_dom (ok : Tab.ok .ready s.pwr.doms = true) (d : Nat) :
    (s.loseParts d).dom d = s.dom d ∧ Noted s (s.loseParts d) := by
  have still {t : State} (pwr : t.pwr = s.pwr) (units : Noted s t) : t.dom d = s.dom d ∧ Noted s t :=
    ⟨dom_of_pwr pwr d, units⟩
  have sea (q : Side) : (s.loseSea q).dom d = s.dom d ∧ Noted s (s.loseSea q) :=
    still (loseSea_stands s q).pwr (loseSea_stands s q).units
  unfold State.loseParts
  split
  · exact still (losePorch_pwr s) (.of_cvu (losePorch_cvu s))
  · exact sea .a
  · exact sea .b
  · exact ⟨(loseEng_loses s .a).dom ok, (loseEng_loses s .a).units⟩
  · exact ⟨(loseEng_loses s .b).dom ok, (loseEng_loses s .b).units⟩
  · exact still (linkLoss_loses s).1.pwr (linkLoss_loses s).1.units
  · exact still rfl (.of_cvu rfl)
  · exact ⟨rfl, .refl s⟩

/-- The domain shows why its rail is off. -/
theorem loseDomain_dom (ok : Tab.ok .ready s.pwr.doms = true) (d : Nat) (st : DomSt) :
    ((s.loseDomain d st).dom d).st = st ∧ ((s.loseDomain d st).dom d).faults = (s.dom d).faults := by
  obtain ⟨okt, ⟨n, shown⟩, -⟩ := dom_domTo ok d st 0
  have kept : (s.loseDomain d st).dom d = (s.domTo d st).dom d := by
    rw [loseDomain_eq, freshUnits_congr _ d (·.dom d) fun _ => rfl]
    exact (loseParts_dom _ okt d).1
  rw [kept, shown]
  exact ⟨rfl, rfl⟩

/-- The check-value units of the domain read as in reset (R305). -/
theorem loseDomain_units (okd : Tab.ok .ready s.pwr.doms = true) (ok : Tab.ok .fresh s.cvu = true) (d : Nat)
    (st : DomSt) {u : Nat} (hu : u < 18) (own : cvuDomain u = d) : ((s.loseDomain d st).unit u).len = 0 ∧
      ((s.loseDomain d st).unit u).active = none ∧ ((s.loseDomain d st).unit u).bad = 0 := by
  have okt := ((domTo_powerOnly s d st 0).units.trans
    (loseParts_dom (s.domTo d st) (dom_domTo okd d st 0).1 d).2).ok ok
  rw [loseDomain_eq, (freshUnits_units okt d).2 u (by omega), if_pos own]
  exact ⟨rfl, rfl, rfl⟩

theorem abandonLoad_none : (s.abandonLoad fun _ => true).cfg.load = none := by
  unfold State.abandonLoad
  split
  · assumption
  · rfl

theorem losePorch_loses : s.losePorch.por.sessions = [] ∧ s.losePorch.por.streams = [] ∧ s.losePorch.por.boxes = [] ∧
    s.losePorch.por.fw = none ∧ s.losePorch.cfg.load = none ∧ s.losePorch.cnv.cal = none ∧
    ∀ q, (s.losePorch.proc q).st = .lost ∨ (s.losePorch.proc q).st = .retired := by
  have load : s.losePorch.cfg.load = none := by
    have ran (t : State) : t.loseRun.cfg.load = t.cfg.load := by
      unfold State.loseRun
      split <;> rfl
    refine (ran _).trans ?_
    rw [abandonFw_rest]
    exact abandonLoad_none s
  have down (p : Proc) : (if p.st = .retired then p else { p with st := .lost }).st = .lost ∨
      (if p.st = .retired then p else { p with st := .lost }).st = .retired := by
    split
    · next retired => exact .inr retired
    · exact .inl rfl
  exact ⟨rfl, rfl, rfl, rfl, load, rfl, fun q => by cases q <;> exact down _⟩

end

/-! ### The command -/

section
variable {s : State} (live : s.alive = true) (ok : Tab.ok .ready s.pwr.doms = true) (d : Fin 8)
include live

theorem execDomainDownEnd_loses (down : (s.dom d.val).st = .goingDown) :
    execDomainDownEnd d s = .next (s.loseDomain d.val .offCmd) :=
  congrArg Host.Outcome.next (if_pos ⟨live, down⟩)

/-- A power-down that fails ends as one by command. -/
theorem execDomainFault_down (down : (s.dom d.val).st = .goingDown) :
    execDomainFault d s = .next ((s.domRecord d.val 4 1 0).loseDomain d.val .offCmd) := by
  simp [execDomainFault, live, down]

/-- The domain with the fault noted: the first within 24 operating hours is retried after 1 s. -/
def State.domFaulted (s : State) (d : Nat) : State :=
  let fs := s.pwr.opsec :: within24h (s.dom d).faults s.pwr.opsec
  s.setDom d { s.dom d with faults := fs, held := decide (2 ≤ fs.length)
                            retryAt := if decide (2 ≤ fs.length) then none else some (s.now + 200000000) }

theorem execDomainFault_on (other : d.val ≠ 0) (on : (s.dom d.val).st = .on ∨ (s.dom d.val).st = .comingUp) :
    execDomainFault d s = .next ((s.domFaulted d.val).loseDomain d.val .offFault) := by
  rcases on with on | on <;> simp [execDomainFault, live, on, other, State.domFaulted]

theorem execDomainFault_cellar (on : (s.dom 0).st = .on) : execDomainFault 0 s = .next s.cellarFault := by
  simp [execDomainFault, live, on]

include ok

theorem execDomainFault_shows (other : d.val ≠ 0) (on : (s.dom d.val).st = .on ∨ (s.dom d.val).st = .comingUp) :
    let fs := s.pwr.opsec :: within24h (s.dom d.val).faults s.pwr.opsec
    ∃ t, execDomainFault d s = .next t ∧ (t.dom d.val).st = .offFault ∧ (t.dom d.val).faults = fs ∧
      (fs.length = 1 → t = (s.setDom d.val { s.dom d.val with
        faults := fs, held := false, retryAt := some (s.now + 200000000) }).loseDomain d.val .offFault) ∧
      (2 ≤ fs.length → t = (s.setDom d.val { s.dom d.val with
        faults := fs, held := true, retryAt := none }).loseDomain d.val .offFault) := by
  intro fs
  obtain ⟨off, faults⟩ := loseDomain_dom (s.domFaulted d.val) (Tab.ok_set _ _ ok) d.val .offFault
  refine ⟨_, execDomainFault_on live d other on, off, faults.trans ?_, fun first => ?_, fun second => ?_⟩
  · exact congrArg Domain.faults ((dom_setDom ok ..).trans (if_pos rfl))
  · have few : decide (2 ≤ fs.length) = false := by simp [first]
    unfold State.domFaulted
    simp only [show s.pwr.opsec :: within24h (s.dom d.val).faults s.pwr.opsec = fs from rfl, few,
      Bool.false_eq_true, if_false]
  · have many : decide (2 ≤ fs.length) = true := by simp [second]
    unfold State.domFaulted
    simp only [show s.pwr.opsec :: within24h (s.dom d.val).faults s.pwr.opsec = fs from rfl, many, if_true]

/-- The CELLAR rail fails: the device is dark, and FIELD runs on. -/
theorem execDomainFault_darkens (on : (s.dom 0).st = .on) : ∃ t, execDomainFault 0 s = .next t ∧ t.pwr.off = true ∧
    t.pwr.pfail = false ∧ t.rcd.buf = [] ∧ t.por.sessions = [] ∧ t.eng.insts = [] ∧ t.sea.imap = [] ∧
    t.lnk.ports = [] ∧ t.fld = s.fld ∧ ∀ d, 1 ≤ d → d ≤ 6 → (t.dom d).st = .notStarted := by
  obtain ⟨sessions, insts, imap, ports, -, -, fld⟩ := darkened_dark s
  have doms {d : Nat} := darkened_dom s ok (d := d)
  have down : s.cellarFault = (fun (u : State) => ({ u with
      pwr := { u.pwr with off := true, offAt := if s.pwr.off then u.pwr.offAt else u.now, pfail := false,
                          pflushed := false, charged := false, supA := .unseen, supB := .unseen, opsec := u.nv.opsec }
      rcd := u.nv.recorder } : State)) ([0, 1, 2, 3, 4, 5, 6].foldl State.freshUnits s.darkened) := rfl
  refine ⟨_, execDomainFault_cellar live on, ?_⟩
  rw [down]
  generalize s.darkened = w at *
  rw [foldl_freshUnits_rest]
  exact ⟨rfl, rfl, rfl, sessions, insts, imap, ports, fld, fun d low high => doms low high⟩

end

end Sys2Proof.Machine

/-! The parts of a domain as it comes up (R275). -/

namespace Sys2Proof.Machine

/-! ### Units other than the recorder's -/

section
variable {α : Type} [DecidableEq α] {d v : α}

/-- A value that is not the unlisted one leaves the other keys, whatever form the table has. -/
theorem Tab.get_set_other {t : Tab α} {k q : Nat} (listed : v ≠ d) (other : q ≠ k) :
    Tab.get d (Tab.set d t k v) q = Tab.get d t q := by
  induction t with
  | nil => simp [Tab.set, Tab.get, listed, Ne.symm other]
  | cons e t ih =>
    obtain ⟨j, w⟩ := e
    simp only [Tab.set, listed, if_false]
    split
    · simp only [Tab.get]
      grind
    · split
      · simp only [Tab.get]
        grind
      · simp only [Tab.get, ih]

theorem Tab.get_set_listed {t : Tab α} {k : Nat} (listed : v ≠ d) : Tab.get d (Tab.set d t k v) k = v := by
  induction t with
  | nil => simp [Tab.set, Tab.get, listed]
  | cons e t ih =>
    obtain ⟨j, w⟩ := e
    simp only [Tab.set, listed, if_false]
    split
    · simp [Tab.get]
    · split
      · simp [Tab.get]
      · simp only [Tab.get, ih]
        grind

end

/-- Every unit but the recorder's reads as before, whatever form the table has. -/
structure OthersKept (s t : State) : Prop where
  unit : ∀ u ≠ 18, t.unit u = s.unit u

section
variable {s t u : State}

theorem OthersKept.of_cvu (h : t.cvu = s.cvu) : OthersKept s t :=
  ⟨fun _ _ => by rw [State.unit, h, State.unit]⟩

theorem OthersKept.trans (h : OthersKept s t) (k : OthersKept t u) : OthersKept s u :=
  ⟨fun n hn => (k.unit n hn).trans (h.unit n hn)⟩

theorem OthersKept.foldl {α : Type} {f : State → α → State} (h : ∀ a x, OthersKept a (f a x)) (l : List α) (s : State) :
    OthersKept s (l.foldl f s) := by
  induction l generalizing s with
  | nil => exact .of_cvu rfl
  | cons x l ih => exact (h s x).trans (ih _)

theorem OthersKept.setRec (s : State) {c : Cvu} (used : c ≠ .fresh) : OthersKept s (s.setUnit 18 c) :=
  ⟨fun _ other => Tab.get_set_other used other⟩

end

section
variable (s : State)

theorem stepped_active (c : Cvu) (n : Nat) : (c.stepped n).active = c.active := by
  unfold Cvu.stepped
  split <;> rfl

theorem payload_active (c : Cvu) (p : BitVec 2) (bs : List Byte) : (c.payload p bs).active = some p := by
  unfold Cvu.payload Cvu.feed Cvu.init
  rfl

theorem recCheck_others (bytes : List Byte) : OthersKept s (s.recCheck bytes).1 := by
  have used (t : State) : OthersKept t (t.recUnit bytes) := .setRec t fun fresh => by
    have active := congrArg Cvu.active fresh
    rw [stepped_active, payload_active] at active
    cases active
  unfold State.recCheck
  dsimp only
  split
  · exact (used s).trans (used _)
  · exact used s

theorem enter_others (c v : Nat) (p : List Byte) (b : Bool) (k : Nat) : OthersKept s (s.enter c v p b k) := by
  have check (bytes : List Byte) := recCheck_others s bytes
  unfold State.enter
  dsimp only
  split
  · exact .of_cvu rfl
  · split
    · exact (check _).trans (.of_cvu rfl)
    · split
      · exact (check _).trans (.of_cvu rfl)
      · exact (check _).trans (.of_cvu rfl)

theorem flushIf_cvu (b : Bool) : (s.flushIf b).cvu = s.cvu := by
  unfold State.flushIf
  split <;> rfl

theorem recordOnce_others (c v : Nat) (p : List Byte) (b : Bool) (k : Option Nat) :
    OthersKept s (s.recordOnce c v p b k) := by
  unfold State.recordOnce
  split
  · exact .of_cvu rfl
  dsimp only
  split
  · refine OthersKept.trans (.of_cvu ?_) (enter_others ..)
    split <;> rfl
  · generalize ht : (if s.rcd.lost = 0 ∨ 512 ≤ s.rcd.buf.length then s else _) = t
    have first : OthersKept s t := by
      rw [← ht]
      split
      · exact .of_cvu rfl
      · refine OthersKept.trans ?_ (.of_cvu (flushIf_cvu ..))
        exact (enter_others ..).trans (.of_cvu rfl)
    split
    · exact (first.trans (enter_others ..)).trans (.of_cvu (flushIf_cvu ..))
    · exact first.trans (.of_cvu rfl)

/-- A failed unit of the recorder computes nothing. -/
theorem enter_failed (failed : (s.unit 18).failed = true) (c v : Nat) (p : List Byte) (b : Bool) (k : Nat) :
    (s.enter c v p b k).cvu = s.cvu := by
  unfold State.enter
  dsimp only
  rw [if_pos failed]

theorem recordOnce_failed (failed : (s.unit 18).failed = true) (c v : Nat) (p : List Byte) (b : Bool) (k : Option Nat) :
    (s.recordOnce c v p b k).cvu = s.cvu := by
  have same {t : State} (h : t.cvu = s.cvu) (c v : Nat) (p : List Byte) (b : Bool) (k : Nat) :
      (t.enter c v p b k).cvu = s.cvu := by
    refine (enter_failed t ?_ c v p b k).trans h
    rw [State.unit, h]
    exact failed
  unfold State.recordOnce
  split
  · rfl
  dsimp only
  split
  · refine same ?_ ..
    split <;> rfl
  · generalize ht : (if s.rcd.lost = 0 ∨ 512 ≤ s.rcd.buf.length then s else _) = t
    have first : t.cvu = s.cvu := by
      rw [← ht]
      split
      · rfl
      · exact (flushIf_cvu ..).trans (same rfl ..)
    split
    · exact (flushIf_cvu ..).trans (same first ..)
    · exact first

theorem recFail_others (why : RecFail) : OthersKept s (s.recFail why) := by
  unfold State.recFail
  split
  · exact .of_cvu rfl
  · refine OthersKept.trans ?_ (recordOnce_others ..)
    exact .of_cvu rfl

theorem foldl_recordOnce_failed (failed : (s.unit 18).failed = true) (l : List Nat) :
    (l.foldl (fun acc _ => acc.recordOnce 0x0E01 2 [18#8, 0#8]) s).cvu = s.cvu := by
  induction l generalizing s with
  | nil => rfl
  | cons n l ih =>
    have same := recordOnce_failed s failed 0x0E01 2 [18#8, 0#8] false none
    refine (ih _ ?_).trans same
    rw [State.unit, same]
    exact failed

theorem recFaults_others (n : Nat) (c : Cvu) : OthersKept s (State.recFaults n c s) := by
  induction n generalizing c s with
  | zero => exact .of_cvu rfl
  | succ n ih =>
    have faults (l : List Nat) : OthersKept s (l.foldl (fun acc _ => acc.recordOnce 0x0E01 2 [18#8, 0#8]) s) :=
      .foldl (fun a _ => recordOnce_others a ..) _ s
    unfold State.recFaults
    dsimp only
    split
    · exact .of_cvu rfl
    · refine OthersKept.trans ?_ (ih ..)
      split
      · next new =>
        have failed : (s.unit 18).failed = true := (Bool.and_eq_true_iff.1 new).1
        have same := foldl_recordOnce_failed s failed (List.range (c.upset - (s.unit 18).upset))
        have kept := faults (List.range (c.upset - (s.unit 18).upset))
        generalize (List.range (c.upset - (s.unit 18).upset)).foldl _ s = t at same kept ⊢
        refine ((kept.trans (.setRec t fun fresh => ?_)).trans (recordOnce_others ..)).trans (recFail_others ..)
        have sound : (t.unit 18).failed = false := congrArg Cvu.failed fresh
        rw [State.unit, same, ← State.unit, failed] at sound
        cases sound
      · exact faults _

theorem record_others (c v : Nat) (p : List Byte) (b : Bool) (k : Option Nat) : OthersKept s (s.record c v p b k) :=
  (recordOnce_others s c v p b k).trans (recFaults_others ..)

end

end Sys2Proof.Machine

/-! The parts of the sea and of an evaluation half as they start (R97, R119, R270, R275). -/

namespace Sys2Proof.Machine

theorem failUnits_none {o : StartOutcome} (sound : o.cvuBad = []) (s : State) (us : List Nat) :
    s.failUnits us o = s := by
  have none : us.filter o.cvuBad.contains = [] := List.filter_eq_nil_iff.2 fun u _ => by simp [sound]
  rw [State.failUnits, none]
  rfl

/-! ### A half of the sea -/

/-- The retirement bit of room `r` reads 1. -/
def State.roomBit (s : State) (r : Nat) : Bool := (Tab.get 0#32 s.fus.shadow (102 + r / 32)).getLsbD (r % 32)

/-- A room that passes its test is free, unless it is retired. -/
def State.freeRoom (s : State) (r : Nat) : State :=
  if s.roomBit r then s.setRoom r { s.room r with st := .retired }
  else s.setRoom r { s.room r with st := .free, afterFail := false }

section
variable (s : State) (q : Side)

theorem startSea_eq : s.startSea q [] [] =
    (((List.range 32).foldl (fun acc j => acc.freeRoom (sideNat q * 32 + j)) s).offIfRetired (seaDom q)).serveSea :=
  rfl

theorem freeRoom_rest (r : Nat) :
    s.freeRoom r = { s with sea := { s.sea with rooms := (s.freeRoom r).sea.rooms } } := by
  unfold State.freeRoom
  split <;> rfl

theorem freeRoom_room (ok : Tab.ok .start s.sea.rooms = true) (r : Nat) :
    Tab.ok .start (s.freeRoom r).sea.rooms = true ∧
      ((s.freeRoom r).room r).st = (if s.roomBit r then .retired else .free) ∧
      ∀ k, k ≠ r → (s.freeRoom r).room k = s.room k := by
  unfold State.freeRoom
  split
  · exact ⟨Tab.ok_set _ _ ok, by rw [room_setRoom_same ok], fun k other => (room_setRoom ok ..).trans (if_neg other)⟩
  · exact ⟨Tab.ok_set _ _ ok, by rw [room_setRoom_same ok], fun k other => (room_setRoom ok ..).trans (if_neg other)⟩

/-- The rooms of a half. -/
def halfRooms (q : Side) : List Nat := (List.range 32).map fun j => sideNat q * 32 + j

theorem mem_halfRooms {q : Side} {r : Nat} : r ∈ halfRooms q ↔ 32 * sideNat q ≤ r ∧ r < 32 * sideNat q + 32 := by
  simp only [halfRooms, List.mem_map, List.mem_range]
  constructor
  · rintro ⟨j, hj, rfl⟩
    omega
  · exact fun h => ⟨r - 32 * sideNat q, by omega, by omega⟩

/-- The rooms of `l` are free, but for those that are retired, and nothing else changed. -/
structure RoomsFreed (l : List Nat) (s t : State) : Prop where
  rest   : t = { s with sea := { s.sea with rooms := t.sea.rooms } }
  ok     : Tab.ok .start t.sea.rooms = true
  rooms  : ∀ r ∈ l, (t.room r).st = if s.roomBit r then .retired else .free
  others : ∀ r ∉ l, t.room r = s.room r

theorem foldl_freeRoom (l : List Nat) (ok : Tab.ok .start s.sea.rooms = true) :
    RoomsFreed l s (l.foldl State.freeRoom s) := by
  induction l generalizing s with
  | nil => exact ⟨rfl, ok, fun r hr => absurd hr List.not_mem_nil, fun _ _ => rfl⟩
  | cons x l ih =>
    obtain ⟨okt, own, others⟩ := freeRoom_room s ok x
    have first := freeRoom_rest s x
    have bits (r : Nat) : (s.freeRoom x).roomBit r = s.roomBit r := by rw [first]; rfl
    rw [List.foldl_cons]
    generalize s.freeRoom x = t at *
    have freed := ih t okt
    refine ⟨freed.rest.trans ?_, freed.ok, fun r hr => ?_, fun r hr => ?_⟩
    · exact congrArg (fun v : State => { v with
        sea := { v.sea with rooms := (l.foldl State.freeRoom t).sea.rooms } }) first
    · by_cases mem : r ∈ l
      · rw [freed.rooms r mem, bits]
      · have same : r = x := (List.mem_cons.1 hr).resolve_right mem
        rw [freed.others r mem, same, own]
    · obtain ⟨apart, mem⟩ := not_or.1 (mt List.mem_cons.2 hr)
      rw [freed.others r mem, others r apart]

theorem seaDom_allRetired : s.allRetired (seaDom q) = true ↔ ∀ r ∈ halfRooms q, s.roomBit r = true := by
  simp [State.allRetired, seaDom, halfRooms, State.roomBit]

/-- An empty half of the sea starts with its rooms free (R275). -/
theorem startSea_frees (ok : Tab.ok .start s.sea.rooms = true) (empty : s.sea.imap = [])
    (unstaged : s.cfg.staged = none) (some : s.allRetired (seaDom q) = false) : RoomsFreed (halfRooms q) s (s.startSea q [] []) := by
  have freed := foldl_freeRoom s (halfRooms q) ok
  have fold : (List.range 32).foldl (fun acc j => acc.freeRoom (sideNat q * 32 + j)) s =
      (halfRooms q).foldl State.freeRoom s := by rw [halfRooms, List.foldl_map]
  rw [startSea_eq, fold]
  generalize (halfRooms q).foldl State.freeRoom s = t at freed ⊢
  have on : t.offIfRetired (seaDom q) = t := by
    refine if_neg fun ⟨_, all⟩ => Bool.eq_false_iff.1 some ((seaDom_allRetired s q).2 fun r hr => ?_)
    have retired : (t.room r).st = .retired := by
      have half : seaDom q - 2 = sideNat q := Nat.add_sub_cancel_left ..
      simp only [half, List.all_map, List.all_eq_true, Function.comp, beq_iff_eq] at all
      obtain ⟨j, hj, rfl⟩ := List.mem_map.1 hr
      exact all j hj
    rw [freed.rooms r hr] at retired
    by_contra bit
    rw [if_neg bit] at retired
    cases retired
  have imap : t.sea.imap = [] := by rw [freed.rest]; exact empty
  have staged : t.cfg.staged = none := by rw [freed.rest]; exact unstaged
  rw [on, serveSea_calm ⟨staged, fun e he => by rw [imap] at he; cases he⟩]
  exact freed

/-! ### An evaluation half -/

/-- An engine that passes its test is a spare, unless it is retired. -/
def State.crewEngine (s : State) (e : Nat) : State :=
  if s.isRetired e then s.setEngine e { s.engine e with st := .retired }
  else (s.setEngine e { s.engine e with why := .auto }).setEngSt e .spare

/-- A comparator that passes its test is in service, unless it is retired. -/
def State.startCmp (s : State) (q : Side) : State :=
  if s.isRetired (8 + sideNat q) then s.setCmp q .retired else s.setCmp q .inService

/-- The copies of a half whose test fails are out until the next start-up (R270). -/
def State.startCopies (s : State) (q : Side) (o : StartOutcome) : State :=
  let out (old new : List Side) : List Side := if new.contains q && !old.contains q then q :: old else old
  let ck := out s.eng.ckmOut o.ckmBad
  let ok := !ck.contains q
  let s3 := { s with eng := match q with
                       | .a => { s.eng with ckmOut := ck, ckmA := ok }
                       | .b => { s.eng with ckmOut := ck, ckmB := ok }
                     lgc := { s.lgc with mxOut := out s.lgc.mxOut o.mxBad }
                     cnv := { s.cnv with memOut := out s.cnv.memOut o.memBad } }
  if o.mxBad.contains q && !s.lgc.mxOut.contains q then s3.linkRecord q 1 else s3

theorem startEng_eq {o : StartOutcome} (engBad : o.engBad = []) (sound : o.cvuBad = []) (cmpBad : o.cmpBad = []) :
    s.startEng q o = ((((sideEngines q).foldl State.crewEngine s).startCmp q).startCopies q o) := by
  unfold State.startEng
  simp -zeta only [failUnits_none sound, engBad, cmpBad, sound, List.append_nil, List.contains_nil, Bool.false_eq_true,
    if_false]
  rfl

/-- The engines of `l` are spares, but for those that are retired, and beside them only records are made. -/
structure EnginesCrewed (l : List Nat) (s t : State) : Prop where
  rest    : t = { s with eng := { s.eng with engines := t.eng.engines }, rcd := t.rcd, cvu := t.cvu }
  ok      : Tab.ok .start t.eng.engines = true
  engines : ∀ e ∈ l, (t.engine e).st = if s.isRetired e then .retired else .spare
  others  : ∀ e ∉ l, t.engine e = s.engine e

theorem setEngSt_rest (e : Nat) (st : EngSt) : s.setEngSt e st = { s with
    eng := { s.eng with engines := (s.setEngSt e st).eng.engines }, rcd := (s.setEngSt e st).rcd
    cvu := (s.setEngSt e st).cvu } := by
  unfold State.setEngSt
  dsimp only
  split
  · rfl
  · generalize hv : ({ s.engine e with st := st } : Engine) = v
    have noted := record_recorded (s.setEngine e v) 0x0702 2
      [BitVec.ofNat 8 e, BitVec.ofNat 8 (s.engine e).st.code, BitVec.ofNat 8 st.code] false none
    have eng := eng_of_recorded noted
    unfold Recorded at noted
    rw [eng]
    exact noted

theorem crewEngine_crews (ok : Tab.ok .start s.eng.engines = true) (e : Nat) :
    EnginesCrewed [e] s (s.crewEngine e) := by
  have others {k : Nat} (v : Engine) (h : k ∉ [e]) : (s.setEngine e v).engine k = s.engine k :=
    (engine_setEngine ok ..).trans (if_neg fun same => h (List.mem_singleton.2 same))
  unfold State.crewEngine
  split
  · next retired =>
    refine ⟨rfl, Tab.ok_set _ _ ok, fun k hk => ?_, fun k hk => others _ hk⟩
    obtain rfl := List.mem_singleton.1 hk
    rw [engine_setEngine_same ok, if_pos retired]
  · next usable =>
    generalize hv : ({ s.engine e with why := .auto } : Engine) = v
    have okv : Tab.ok .start (s.setEngine e v).eng.engines = true := Tab.ok_set _ _ ok
    obtain ⟨okt, st⟩ := engine_setEngSt _ okv e .spare
    refine ⟨setEngSt_rest (s.setEngine e v) e .spare, okt, fun k hk => ?_, fun k hk => ?_⟩
    · obtain rfl := List.mem_singleton.1 hk
      rw [st, if_pos rfl, if_neg usable]
    · refine Eq.trans ?_ (others v hk)
      have apart : k ≠ e := fun same => hk (List.mem_singleton.2 same)
      unfold State.setEngSt
      dsimp only
      split
      · rfl
      · rw [State.engine, eng_of_recorded (record_recorded ..), ← State.engine, engine_setEngine okv, if_neg apart]

theorem foldl_crewEngine (l : List Nat) (ok : Tab.ok .start s.eng.engines = true) :
    EnginesCrewed l s (l.foldl State.crewEngine s) := by
  induction l generalizing s with
  | nil => exact ⟨rfl, ok, fun e he => absurd he List.not_mem_nil, fun _ _ => rfl⟩
  | cons x l ih =>
    obtain ⟨first, okt, own, others⟩ := crewEngine_crews s ok x
    have bits (e : Nat) : (s.crewEngine x).isRetired e = s.isRetired e := by rw [first]; rfl
    rw [List.foldl_cons]
    generalize s.crewEngine x = t at *
    have crewed := ih t okt
    generalize l.foldl State.crewEngine t = u at *
    refine ⟨crewed.rest.trans ?_, crewed.ok, fun e he => ?_, fun e he => ?_⟩
    · exact congrArg (fun v : State => { v with
        eng := { v.eng with engines := u.eng.engines }, rcd := u.rcd, cvu := u.cvu }) first
    · by_cases mem : e ∈ l
      · rw [crewed.engines e mem, bits]
      · have same : e = x := (List.mem_cons.1 he).resolve_right mem
        rw [crewed.others e mem, same, own x (List.mem_singleton.2 rfl)]
    · obtain ⟨apart, mem⟩ := not_or.1 (mt List.mem_cons.2 he)
      rw [crewed.others e mem, others e fun same => apart (List.mem_singleton.1 same)]

/-- The checkpoint memory of a half. -/
def State.ckm (s : State) : Side → Bool
  | .a => s.eng.ckmA
  | .b => s.eng.ckmB

theorem startCmp_starts : s.startCmp q = { s with eng := { s.eng with
      cmpA := (s.startCmp q).eng.cmpA, cmpB := (s.startCmp q).eng.cmpB } } ∧
    (s.startCmp q).cmp q = (if s.isRetired (8 + sideNat q) then .retired else .inService) ∧
    (s.startCmp q).cmp (otherSide q) = s.cmp (otherSide q) := by
  unfold State.startCmp
  split <;> cases q <;> exact ⟨rfl, rfl, rfl⟩

/-- The copies of a half before the record that one of them calls for. -/
structure CopiesStarted (q : Side) (o : StartOutcome) (s t : State) : Prop where
  rest : t = { s with
    eng := { s.eng with ckmOut := t.eng.ckmOut, ckmA := t.eng.ckmA, ckmB := t.eng.ckmB }
    lgc := t.lgc, cnv := t.cnv, rcd := t.rcd, cvu := t.cvu }
  ckm  : o.ckmBad = [] → s.eng.ckmOut = [] →
    t.eng.ckmOut = [] ∧ t.ckm q = true ∧ t.ckm (otherSide q) = s.ckm (otherSide q)

theorem CopiesStarted.recorded {q : Side} {o : StartOutcome} {s t u : State} (h : CopiesStarted q o s t)
    (k : Recorded t u) : CopiesStarted q o s u := by
  have eng := eng_of_recorded k
  have lgc : u.lgc = t.lgc := k.congr State.lgc fun _ _ => rfl
  have cnv : u.cnv = t.cnv := k.congr State.cnv fun _ _ => rfl
  have ckm (r : Side) : u.ckm r = t.ckm r := by cases r <;> simp only [State.ckm, eng]
  refine ⟨?_, fun good none => ?_⟩
  · rw [eng, lgc, cnv]
    unfold Recorded at k
    exact k.trans (congrArg (fun v : State => { v with rcd := u.rcd, cvu := u.cvu }) h.rest)
  · rw [eng, ckm, ckm]
    exact h.ckm good none

theorem startCopies_starts (o : StartOutcome) : CopiesStarted q o s (s.startCopies q o) := by
  have recordedIf (t : State) (c : Bool) : Recorded t (if c then t.linkRecord q 1 else t) := by
    cases c
    · exact .refl t
    · exact record_recorded ..
  refine CopiesStarted.recorded ⟨?_, fun good none => ?_⟩ (recordedIf _ (o.mxBad.contains q && !s.lgc.mxOut.contains q))
  · cases q <;> rfl
  · let ck := if o.ckmBad.contains q && !s.eng.ckmOut.contains q then q :: s.eng.ckmOut else s.eng.ckmOut
    have still : ck = [] := by simp [ck, good, none]
    have own : (!ck.contains q) = true := by rw [still]; rfl
    cases q <;> exact ⟨still, own, rfl⟩

/-- What an evaluation half shows once its parts have passed. -/
structure EngStarted (q : Side) (o : StartOutcome) (s t : State) : Prop where
  rest    : t = { s with eng := t.eng, lgc := t.lgc, cnv := t.cnv, rcd := t.rcd, cvu := t.cvu }
  ok      : Tab.ok .start t.eng.engines = true
  engines : ∀ e ∈ sideEngines q, (t.engine e).st = if s.isRetired e then .retired else .spare
  others  : ∀ e ∉ sideEngines q, t.engine e = s.engine e
  cmp     : t.cmp q = if s.isRetired (8 + sideNat q) then .retired else .inService
  cmpThen : t.cmp (otherSide q) = s.cmp (otherSide q)
  ckm     : o.ckmBad = [] → s.eng.ckmOut = [] →
    t.eng.ckmOut = [] ∧ t.ckm q = true ∧ t.ckm (otherSide q) = s.ckm (otherSide q)

theorem startEng_starts {o : StartOutcome} (engBad : o.engBad = []) (sound : o.cvuBad = []) (cmpBad : o.cmpBad = [])
    (ok : Tab.ok .start s.eng.engines = true) : EngStarted q o s (s.startEng q o) := by
  have crewed := foldl_crewEngine s (sideEngines q) ok
  rw [startEng_eq s q engBad sound cmpBad]
  generalize (sideEngines q).foldl State.crewEngine s = t at crewed ⊢
  obtain ⟨rest, cmp, cmpThen⟩ := startCmp_starts t q
  generalize t.startCmp q = u at rest cmp cmpThen ⊢
  obtain ⟨copies, ckm⟩ := startCopies_starts u q o
  generalize u.startCopies q o = v at copies ckm ⊢
  have engines : v.eng.engines = t.eng.engines := by rw [copies, rest]
  have cmps (r : Side) : v.cmp r = u.cmp r := by rw [copies]; cases r <;> rfl
  have bits (b : Nat) : t.isRetired b = s.isRetired b := by rw [crewed.rest]; rfl
  have eng (e : Nat) : v.engine e = t.engine e := by rw [State.engine, engines, State.engine]
  refine ⟨?_, engines ▸ crewed.ok, fun e he => ?_, fun e he => ?_, ?_, ?_, fun good none => ?_⟩
  · rw [copies, rest, crewed.rest]
  · rw [eng, crewed.engines e he]
  · rw [eng, crewed.others e he]
  · rw [cmps, cmp, bits]
  · rw [cmps, cmpThen, crewed.rest]
    cases q <;> rfl
  · have noneu : u.eng.ckmOut = [] := by rw [rest, crewed.rest]; exact none
    obtain ⟨out, own, other⟩ := ckm good noneu
    refine ⟨out, own, other.trans ?_⟩
    rw [rest, crewed.rest]
    cases q <;> rfl

end

end Sys2Proof.Machine

/-! The field side as it starts (R55, R183, R197, R276). -/

namespace Sys2Proof.Machine

/-- Start values of an output that is in use, FAULTED by `cause`. -/
def State.startFault (s : State) (cause : Nat) : FOut :=
  { FOut.start with cause := cause, faultAt := s.tb, changed := s.tb }

/-- The outputs that are in use begin with the cause of the start; one that fails its test, with TEST. -/
def State.startOuts (s : State) (cause : Nat) (o : StartOutcome) : Tab FOut :=
  let c := match s.img false with
    | some m => m.fieldCfg
    | none => FieldCfg.none
  (List.range 64).foldl (fun (acc : Tab FOut) k =>
    if bitOf (nth c.ocfg k 0) 31
    then Tab.set .start acc k (s.startFault (if cause = 0 ∧ o.outBad.contains k then 10 else cause))
    else acc) []

/-- The converters with the slices and references that fail their tests, and their records. -/
def State.startConvs (s : State) (o : StartOutcome) : State :=
  let convs := (List.range 4).foldl (fun (acc : Tab Cnv1) n =>
    let old := Tab.get .start s.cnv.convs n
    let gone := (old.retired ++ (o.slicesBad.filter fun x => x.1 == n).map Prod.snd).eraseDups
    let ref := old.reffail || o.convBad.contains n
    let failed := old.failed || ref || decide (2 < gone.length)
    Tab.set .start acc n
      { Cnv1.start with retired := gone, failed := failed, reffail := ref, seq := old.seq }) []
  let chans := Tab.mapVal .start (fun x => { x with unconf := false }) s.cnv.chans
  let s3 := { s with cnv := { s.cnv with convs := convs, chans := chans, flyA := [], flyB := [],
                                         heldA := [], heldB := [] } }
  let was (n : Nat) : Cnv1 := Tab.get .start s.cnv.convs n
  let s4 := o.slicesBad.foldl (fun acc x =>
    if (was x.1).retired.contains x.2 then acc
    else acc.record 0x0501 2 [BitVec.ofNat 8 x.1, BitVec.ofNat 8 x.2, 0#8]) s3
  (List.range 4).foldl (fun acc n =>
    let v := Tab.get .start convs n
    if !v.failed || (was n).failed then acc
    else if v.reffail then acc.record 0x0501 2 [BitVec.ofNat 8 n, 0xFF#8, 1#8]
    else acc.record 0x0501 2 [BitVec.ofNat 8 n, 0#8, 2#8]) s4

/-- The sequencers that fail their tests as the field side starts (R276; log 85). -/
def State.seqsBad (s : State) (o : StartOutcome) : List Side :=
  let good (q : Side) : Bool := !s.isRetired (12 + sideNat q) && !o.fsBad.contains q
  if o.fxBad && good .a && good .b then [Side.b] else o.fsBad

/-- What the field side holds as it starts, the sequencers of `bad` off. -/
def State.startFld (s : State) (cause : Nat) (o : StartOutcome) (bad : List Side) : Fld :=
  let c := match s.img false with
    | some m => m.fieldCfg
    | none => FieldCfg.none
  let seqOf (q : Side) : Seq :=
    { Seq.start with st := if s.isRetired (12 + sideNat q) || bad.contains q then .off else .alive }
  { Fld.reset with
    terms := s.fld.terms, outs := s.startOuts cause o, seqA := seqOf .a, seqB := seqOf .b, cfg := c, pulseCfg := c,
    bank := s.lgc.bank, bankAt := s.tb, accepted := none, frame := c.frameOf s.tb, epoch := s.fld.epoch }

/-- The sequencers of `bad` are never used again. -/
def State.retireSeqs (s : State) (bad : List Side) : State :=
  bad.foldl (fun acc q =>
    let t := acc.retireBit (12 + sideNat q)
    t.record 0x0405 2 (wordBytes t.ostat)) s

/-- What the logic side shows of the sequencers as the field side starts. -/
def State.showSeqs (s : State) : State :=
  let code (q : Side) : Nat := if s.isRetired (12 + sideNat q) then 2 else 0
  let solo := if code .a ≠ 0 ∧ code .b = 0 then 2 else if code .a = 0 ∧ code .b ≠ 0 then 1 else 0
  { s with lgc := { s.lgc with fsA := code .a, fsB := code .b, solo := solo } }

section
variable (s : State) (cause : Nat) (o : StartOutcome)

theorem startField_eq : s.startField cause o = ((((State.retireSeqs { s with fld := s.startFld cause o (s.seqsBad o) }
    ([Side.a, .b].filter fun q => (s.seqsBad o).contains q && !s.isRetired (12 + sideNat q))).showSeqs).startConvs
    o).refreshOuts) := rfl

/-- Nothing but the converters and the records changes. -/
theorem startConvs_records : ∃ c, Recorded { s with cnv := c } (s.startConvs o) := by
  unfold State.startConvs
  refine ⟨_, .trans (.foldl (fun a x => ?_) _ _) (.foldl (fun a n => ?_) _ _)⟩
  · exact .ite (.refl a) (record_recorded ..)
  · exact .ite (.refl a) (.ite (record_recorded ..) (record_recorded ..))

theorem refreshOuts_sansOuts : s.refreshOuts.sansOuts = s.sansOuts :=
  foldl_view State.sansOuts (fun a k => (refreshOut_by a k).rest) _ s

/-- A FAULTED output that is open stays so while all outputs are judged. -/
theorem refreshOuts_faulted {k : Nat} (ok : Tab.ok .start s.fld.outs = true) (faulted : cause ≠ 0)
    (shown : (s.fout k).cause = cause) (opened : SwitchesOpen s k) :
    (s.refreshOuts.fout k).cause = cause ∧ SwitchesOpen s.refreshOuts k := by
  unfold State.refreshOuts
  generalize allOuts = l
  induction l generalizing s with
  | nil => exact ⟨shown, opened⟩
  | cons j l ih =>
    obtain ⟨okT, ⟨marks, opens⟩, others⟩ := (refreshOut_opens s j).outs ok
    by_cases same : k = j
    · subst same
      have quiet : s.wantLoud k = false := wantLoud_of_faulted (shown ▸ faulted)
      exact ih _ okT ((cause_of_marks marks).trans shown) (opens (wantOn_of_quiet quiet) fun _ => quiet)
    · have kept := others k same
      refine ih _ okT (kept ▸ shown) ?_
      unfold SwitchesOpen at opened ⊢
      exact kept ▸ opened

theorem Tab.ok_foldl_set {α : Type} [DecidableEq α] {d : α} (p : Nat → Bool) (f : Nat → α) (l : List Nat) {t : Tab α}
    (ok : Tab.ok d t = true) :
    Tab.ok d (l.foldl (fun acc c => if p c then Tab.set d acc c (f c) else acc) t) = true := by
  induction l generalizing t with
  | nil => exact ok
  | cons c l ih =>
    refine ih ?_
    beta_reduce
    split
    · exact Tab.ok_set _ _ ok
    · exact ok

theorem startOuts_reads {m : Image} (image : s.cfg.image = some m) {k : Nat} (hk : k < 64)
    (used : bitOf (nth m.fieldCfg.ocfg k 0) 31 = true) : Tab.ok .start (s.startOuts cause o) = true ∧
      Tab.get .start (s.startOuts cause o) k =
        s.startFault (if cause = 0 ∧ o.outBad.contains k then 10 else cause) := by
  have img : s.img false = some m := image
  let p := fun k => bitOf (nth m.fieldCfg.ocfg k 0) 31
  let f := fun k => s.startFault (if cause = 0 ∧ o.outBad.contains k then 10 else cause)
  have fold : s.startOuts cause o =
      (List.range 64).foldl (fun acc c => if p c then Tab.set .start acc c (f c) else acc) [] := by
    unfold State.startOuts
    simp only [img, p, f]
  rw [fold]
  exact ⟨Tab.ok_foldl_set p f _ (Tab.ok_nil _), (Tab.get_foldl_set p f (List.range 64) (Tab.ok_nil _) k).trans
    (if_pos ⟨List.mem_range.2 hk, used⟩)⟩

/-- What the field side shows once both sequencers and the cross-link have passed. -/
structure FieldStarted (cause : Nat) (o : StartOutcome) (s t : State) : Prop where
  pwr   : t.pwr = s.pwr
  seqA  : s.isRetired 12 = false → t.fld.seqA.st = .alive
  seqB  : s.isRetired 13 = false → t.fld.seqB.st = .alive
  epoch : t.fld.epoch = s.fld.epoch
  outs  : cause ≠ 0 → ∀ m, s.cfg.image = some m → ∀ k, k < 64 → bitOf (nth m.fieldCfg.ocfg k 0) 31 = true →
    (t.fout k).cause = cause ∧ SwitchesOpen t k

theorem startField_starts (sound : o.fsBad = []) (crossed : o.fxBad = false) :
    FieldStarted cause o s (s.startField cause o) := by
  have bad : s.seqsBad o = [] := by simp [State.seqsBad, sound, crossed]
  have none : ([Side.a, .b].filter fun q => (s.seqsBad o).contains q && !s.isRetired (12 + sideNat q)) = [] := by
    simp [bad]
  rw [startField_eq, none, bad]
  change FieldStarted cause o s ((State.showSeqs { s with fld := s.startFld cause o [] }).startConvs o).refreshOuts
  obtain ⟨c, noted⟩ := startConvs_records (State.showSeqs { s with fld := s.startFld cause o [] }) o
  have fld : ((State.showSeqs { s with fld := s.startFld cause o [] }).startConvs o).fld = s.startFld cause o [] :=
    noted.congr State.fld fun _ _ => rfl
  have pwr : ((State.showSeqs { s with fld := s.startFld cause o [] }).startConvs o).pwr = s.pwr :=
    noted.congr State.pwr fun _ _ => rfl
  clear noted
  generalize (State.showSeqs { s with fld := s.startFld cause o [] }).startConvs o = t at fld pwr ⊢
  have rest := refreshOuts_sansOuts t
  have alive (q : Side) (usable : s.isRetired (12 + sideNat q) = false) :
      (if s.isRetired (12 + sideNat q) || [].contains q then SeqSt.off else .alive) = .alive := by
    rw [usable]
    rfl
  refine ⟨(congrArg State.pwr rest :).trans pwr, fun usable => ?_, fun usable => ?_, ?_,
    fun faulted m image k hk used => ?_⟩
  · exact (congrArg (fun u : State => u.fld.seqA.st) rest :).trans
      ((congrArg (fun f : Fld => f.seqA.st) fld).trans (alive .a usable))
  · exact (congrArg (fun u : State => u.fld.seqB.st) rest :).trans
      ((congrArg (fun f : Fld => f.seqB.st) fld).trans (alive .b usable))
  · exact (congrArg (fun u : State => u.fld.epoch) rest :).trans (congrArg Fld.epoch fld :)
  · obtain ⟨ok, read⟩ := startOuts_reads s cause o image hk used
    have shown : t.fout k = s.startFault cause := by
      rw [State.fout, fld]
      exact read.trans (by rw [if_neg fun h => faulted h.1])
    have okt : Tab.ok .start t.fld.outs = true := by rw [fld]; exact ok
    refine refreshOuts_faulted t cause okt faulted (by rw [shown]; rfl) ?_
    rw [SwitchesOpen, shown]
    exact (by decide : Phase.idle ≠ .load)

end

end Sys2Proof.Machine

/-! DOMAIN_UP_END (R275): the parts of a domain as it comes up. -/

namespace Sys2Proof.Machine

section
variable (s : State)

theorem domTo_others (d : Nat) (st : DomSt) (why : Nat) : OthersKept s (s.domTo d st why) := by
  unfold State.domTo
  dsimp only
  split
  · exact .of_cvu rfl
  · exact (OthersKept.of_cvu rfl : OthersKept s (s.setDom d _)).trans (record_others ..)

/-- Two processors whose banks and units are good: the first is active and the second stands by. -/
theorem startPorch_both (good : ∀ q, s.isRetired (14 + sideNat q) = false ∧ (s.unit (16 + sideNat q)).failed = false ∧
    s.bankOk q = true) : s.startPorch [] false = { s with por := { s.por with
      procA := { s.por.procA with st := .active }, procB := { s.por.procB with st := .standby }, active := .a } } := by
  obtain ⟨usableA, soundA, bankA⟩ := good .a
  obtain ⟨usableB, soundB, bankB⟩ := good .b
  simp [State.startPorch, usableA, soundA, bankA, usableB, soundB, bankB]

/-! ### An evaluation half -/

theorem oscIn_of_osc {s t : State} (h : t.pwr.osc = s.pwr.osc) (q : Side) : t.oscIn q = s.oscIn q := by
  unfold State.oscIn
  rw [h]

/-- An evaluation half whose parts return: its reference stands by, or is selected (R266, R275). -/
def State.returnEng (s : State) (q : Side) (o : StartOutcome) : State :=
  let s1 := (s.startEng q o).startLink q o
  let bad := o.oscBad.contains q
  let osc := if s1.pwr.osc.stopped then OscSt.off
    else if bad then .lost
    else if s1.oscIn (otherSide q) then .standby else .selected
  let s2 := s1.setOsc q osc
  let s3 := if bad && !s1.pwr.osc.stopped then s2.oscRecord (sideNat q) else s2
  (s3.replace).settle

variable (q : Side)

theorem startLink_judged {o : StartOutcome} (sound : o.cvuBad = []) : LinkJudged q s (s.startLink q o) := by
  unfold State.startLink
  dsimp only
  rw [failUnits_none sound]
  split
  · exact judgeFaulty_judged s
  · exact .refl s

/-- What an evaluation half shows once its parts have passed and returned. -/
structure EngReturned (q : Side) (s t : State) : Prop where
  doms    : t.pwr.doms = s.pwr.doms
  engines : ∀ e ∈ sideEngines q, s.isRetired e = false → (t.engine e).st = .spare ∨ (t.engine e).st = .active
  cmp     : s.isRetired (8 + sideNat q) = false → t.cmp q = .inService
  osc     : t.osc q = if s.oscIn (otherSide q) then .standby else .selected

theorem returnEng_returns {o : StartOutcome} (sound : o.cvuBad = []) (engBad : o.engBad = []) (cmpBad : o.cmpBad = [])
    (oscBad : o.oscBad = []) (ok : Tab.ok .start s.eng.engines = true) (runs : s.pwr.osc.stopped = false) :
    EngReturned q s (s.returnEng q o) := by
  have started := startEng_starts s q engBad sound cmpBad ok
  have judged := startLink_judged (s.startEng q o) q sound
  have eng : ((s.startEng q o).startLink q o).eng = (s.startEng q o).eng :=
    judged.congr State.eng fun _ _ _ _ _ => by cases q <;> rfl
  have pwr : ((s.startEng q o).startLink q o).pwr = s.pwr :=
    (judged.congr State.pwr fun _ _ _ _ _ => by cases q <;> rfl).trans (by rw [started.rest])
  have back : s.returnEng q o = ((((s.startEng q o).startLink q o).setOsc q
      (if s.oscIn (otherSide q) then .standby else .selected)).replace).settle := by
    have same : ((s.startEng q o).startLink q o).oscIn (otherSide q) = s.oscIn (otherSide q) :=
      oscIn_of_osc (congrArg Pwr.osc pwr) _
    simp [State.returnEng, oscBad, pwr, runs, same]
  rw [back]
  generalize (s.startEng q o).startLink q o = t at eng pwr ⊢
  generalize hv : (if s.oscIn (otherSide q) = true then OscSt.standby else OscSt.selected) = v
  have set := setOsc_powerOnly t q v
  have engs : (t.setOsc q v).eng = (s.startEng q o).eng := (set.congr State.eng fun _ _ _ => rfl).trans eng
  have moved := (replace_stands (t.setOsc q v)).trans (settle_stands _)
  have serving {e : Nat} : (t.setOsc q v).engine e = (s.startEng q o).engine e := by
    rw [State.engine, engs, State.engine]
  have cmps : (t.setOsc q v).cmp q = (s.startEng q o).cmp q := by cases q <;> simp only [State.cmp, engs]
  refine ⟨?_, fun e he usable => ?_, fun usable => ?_, ?_⟩
  · rw [moved.pwr, ← pwr]
    cases q <;> rfl
  · have stays := ((moved.engines (engs ▸ started.ok)).2 e).1
    have spare := started.engines e he
    rw [usable] at spare
    exact (stays (.inr (serving ▸ spare))).symm
  · rw [moved.cmp, cmps, started.cmp, usable]
    rfl
  · exact (osc_of_pwr q (congrArg Pwr.osc moved.pwr)).trans ((osc_setOsc_same t q v).trans hv.symm)

end

/-! ### The command -/

section
variable {s : State}

theorem execDomainUpEnd_returns (d : Fin 8) (o : StartOutcome) (coming : (s.dom d.val).st = .comingUp)
    (live : s.alive = true) :
    execDomainUpEnd d o s = .next ((s.domTo d.val .on).returnDomain d.val o) :=
  congrArg Host.Outcome.next (if_pos ⟨live, coming⟩)

/-- The domain is on, whatever its parts then do but switch the domains. -/
theorem dom_on_of_doms (ok : Tab.ok .ready s.pwr.doms = true) {d : Nat} {t : State}
    (h : t.pwr.doms = (s.domTo d .on).pwr.doms) : (t.dom d).st = .on := by
  obtain ⟨-, ⟨n, shown⟩, -⟩ := dom_domTo ok d .on 0
  rw [State.dom, h, ← State.dom, shown]

variable {d : Nat} (ok : Tab.ok .ready s.pwr.doms = true)
include ok

theorem returnPorch_starts {o : StartOutcome} (sound : o.cvuBad = []) (ppBad : o.ppBad = [])
    (fuses : s.fuseFault = false) (good : ∀ q, s.isRetired (14 + sideNat q) = false ∧
      (s.unit (16 + sideNat q)).failed = false ∧ s.bankOk q = true) :
    let t := (s.domTo 1 .on).returnDomain 1 o
    (t.dom 1).st = .on ∧ t.por.procA.st = .active ∧ t.por.procB.st = .standby ∧
      t.por.epoch = s.por.epoch % 255 + 1 := by
  have only := domTo_powerOnly s 1 .on 0
  have units := (domTo_others s 1 .on 0).unit
  have on {t : State} (h : t.pwr.doms = (s.domTo 1 .on).pwr.doms) := dom_on_of_doms ok h
  have epoch : (s.domTo 1 .on).por.epoch = s.por.epoch := only.congr (·.por.epoch) fun _ _ _ => rfl
  have fusesT : (s.domTo 1 .on).fuseFault = false := (only.congr State.fuseFault fun _ _ _ => rfl).trans fuses
  have goodT (q : Side) : (s.domTo 1 .on).isRetired (14 + sideNat q) = false ∧
      ((s.domTo 1 .on).unit (16 + sideNat q)).failed = false ∧ (s.domTo 1 .on).bankOk q = true := by
    obtain ⟨usable, unit, bank⟩ := good q
    have apart : 16 + sideNat q ≠ 18 := by cases q <;> decide
    exact ⟨(only.congr (·.isRetired (14 + sideNat q)) fun _ _ _ => rfl).trans usable, (units _ apart).symm ▸ unit,
      (only.congr (·.bankOk q) fun _ _ _ => rfl).trans bank⟩
  generalize s.domTo 1 .on = t at *
  have back : t.returnDomain 1 o = { t with por := { t.por with
      procA := { t.por.procA with st := .active }, procB := { t.por.procB with st := .standby }, active := .a
      epoch := t.por.epoch % 255 + 1 } } := by
    simp only [State.returnDomain, failUnits_none sound, ppBad, fusesT, startPorch_both t goodT]
  rw [back]
  exact ⟨on rfl, rfl, rfl, congrArg (· % 255 + 1) epoch⟩

theorem returnSea_frees {o : StartOutcome} (q : Side) (sea : d = seaDom q) (roomsBad : o.roomsBad = [])
    (roomsFixed : o.roomsFixed = []) (empty : s.sea.imap = []) (unstaged : s.cfg.staged = none)
    (some : s.allRetired d = false) (okr : Tab.ok .start s.sea.rooms = true) :
    let t := (s.domTo d .on).returnDomain d o
    (t.dom d).st = .on ∧ ∀ r, 32 * sideNat q ≤ r → r < 32 * sideNat q + 32 →
      (Tab.get 0#32 s.fus.shadow (102 + r / 32)).getLsbD (r % 32) = false → (t.room r).st = .free := by
  subst sea
  have only := domTo_powerOnly s (seaDom q) .on 0
  have on {t : State} (h : t.pwr.doms = (s.domTo (seaDom q) .on).pwr.doms) := dom_on_of_doms ok h
  have bits (r : Nat) : (s.domTo (seaDom q) .on).roomBit r = s.roomBit r := only.congr (·.roomBit r) fun _ _ _ => rfl
  have freed := startSea_frees (s.domTo (seaDom q) .on) q
    ((only.congr (fun u => Tab.ok .start u.sea.rooms) fun _ _ _ => rfl).trans okr)
    ((only.congr (·.sea.imap) fun _ _ _ => rfl).trans empty)
    ((only.congr (·.cfg.staged) fun _ _ _ => rfl).trans unstaged)
    ((only.congr (·.allRetired (seaDom q)) fun _ _ _ => rfl).trans some)
  have back : (s.domTo (seaDom q) .on).returnDomain (seaDom q) o = (s.domTo (seaDom q) .on).startSea q [] [] := by
    rw [← roomsBad, ← roomsFixed]
    cases q <;> rfl
  rw [back]
  refine ⟨on (by rw [freed.rest]), fun r low high unretired => ?_⟩
  have free := freed.rooms r (mem_halfRooms.2 ⟨low, high⟩)
  rwa [bits, State.roomBit, unretired, if_neg Bool.false_ne_true] at free

theorem returnEngDom_starts {o : StartOutcome} (q : Side) (eng : d = engDom q) (sound : o.cvuBad = [])
    (engBad : o.engBad = []) (cmpBad : o.cmpBad = []) (oscBad : o.oscBad = [])
    (oke : Tab.ok .start s.eng.engines = true) (runs : s.pwr.osc.stopped = false) :
    let t := (s.domTo d .on).returnDomain d o
    (t.dom d).st = .on ∧
      (∀ e ∈ sideEngines q, s.isRetired e = false → (t.engine e).st = .spare ∨ (t.engine e).st = .active) ∧
      (s.isRetired (8 + sideNat q) = false → t.cmp q = .inService) ∧
      t.osc q = if s.oscIn (otherSide q) then .standby else .selected := by
  subst eng
  have only := domTo_powerOnly s (engDom q) .on 0
  have osc := State.domTo_osc s (engDom q) .on 0
  have bits (b : Nat) : (s.domTo (engDom q) .on).isRetired b = s.isRetired b :=
    only.congr (·.isRetired b) fun _ _ _ => rfl
  have returned := returnEng_returns (s.domTo (engDom q) .on) q sound engBad cmpBad oscBad
    ((only.congr (fun u => Tab.ok .start u.eng.engines) fun _ _ _ => rfl).trans oke) (osc ▸ runs)
  have back : (s.domTo (engDom q) .on).returnDomain (engDom q) o = (s.domTo (engDom q) .on).returnEng q o := by
    cases q <;> rfl
  rw [back]
  refine ⟨dom_on_of_doms ok returned.doms, fun e he usable => returned.engines e he ((bits e).trans usable),
    fun usable => returned.cmp ((bits _).trans usable), returned.osc.trans ?_⟩
  rw [oscIn_of_osc osc]

theorem returnLink_seeks {o : StartOutcome} (sound : o.cvuBad = []) (portsBad : o.portsBad = [])
    (okp : Tab.ok .start s.lnk.ports = true) :
    let t := (s.domTo 6 .on).returnDomain 6 o
    (t.dom 6).st = .on ∧ ∀ p, p < 4 → s.portRole p ≠ 0 → (t.port p).st = .down := by
  have only := domTo_powerOnly s 6 .on 0
  obtain ⟨link, down⟩ := linkStart_seeks (s.domTo 6 .on)
  have back : (s.domTo 6 .on).returnDomain 6 o = (s.domTo 6 .on).linkStart := by
    simp [State.returnDomain, failUnits_none sound, portsBad, sound]
  rw [back]
  refine ⟨dom_on_of_doms ok (congrArg Pwr.doms link.pwr), fun p hp used => down ?_ p hp ?_⟩
  · exact (only.congr (fun u => Tab.ok .start u.lnk.ports) fun _ _ _ => rfl).trans okp
  · exact (only.congr (·.portRole p) fun _ _ _ => rfl).symm ▸ used

theorem returnField_starts {o : StartOutcome} (fsBad : o.fsBad = []) (fxBad : o.fxBad = false)
    (usableA : s.isRetired 12 = false) (usableB : s.isRetired 13 = false) :
    let t := (s.domTo 7 .on).returnDomain 7 o
    (t.dom 7).st = .on ∧ t.fld.seqA.st = .alive ∧ t.fld.seqB.st = .alive ∧ t.fld.epoch = s.fld.epoch + 1 ∧
      ∀ m, s.cfg.image = some m → ∀ k, k < 64 → bitOf (nth m.fieldCfg.ocfg k 0) 31 = true →
        (t.fout k).cause = 11 ∧ SwitchesOpen t k := by
  have only := domTo_powerOnly s 7 .on 0
  have started := startField_starts (s.domTo 7 .on) 11 o fsBad fxBad
  have bits (b : Nat) : (s.domTo 7 .on).isRetired b = s.isRetired b := only.congr (·.isRetired b) fun _ _ _ => rfl
  refine ⟨dom_on_of_doms ok (congrArg Pwr.doms started.pwr), started.seqA ((bits 12).trans usableA),
    started.seqB ((bits 13).trans usableB), ?_, fun m image => ?_⟩
  · refine congrArg (· + 1) (started.epoch.trans ?_)
    exact only.congr (·.fld.epoch) fun _ _ _ => rfl
  · refine started.outs (by decide) m ?_
    exact (only.congr (·.cfg.image) fun _ _ _ => rfl).trans image

end

end Sys2Proof.Machine

/-! The domains as they go down and up (R272 to R276). -/

namespace Sys2Proof.Machine

section
variable (s : State)

theorem loseField_seqs : s.loseField.fld.seqA.st = .off ∧ s.loseField.fld.seqB.st = .off := ⟨rfl, rfl⟩

/-- What the parts of a domain show once it is lost. -/
structure PartsLost (d : Nat) (s t : State) : Prop where
  porch : d = 1 → t.por.sessions = [] ∧ t.por.streams = [] ∧ t.por.boxes = [] ∧ t.por.fw = none ∧
    t.cfg.load = none ∧ t.cnv.cal = none ∧ ∀ q, (t.proc q).st = .lost ∨ (t.proc q).st = .retired
  sea   : ∀ q, d = seaDom q → ∀ r, 32 * sideNat q ≤ r → r < 32 * sideNat q + 32 →
    Tab.ok .start s.sea.rooms = true → (t.room r).st = .off ∨ (t.room r).st = .retired
  eng   : ∀ q, d = engDom q → Tab.ok .start s.eng.engines = true →
    (∀ e ∈ sideEngines q, (t.engine e).st = .off ∨ (t.engine e).st = .retired) ∧
    t.cmp q ≠ .inService ∧ (t.link q).st ≠ .valid ∧ t.osc q = .off
  link  : d = 6 → t.lnk.db = [] ∧ t.lnk.roof = [] ∧
    (Tab.ok .start s.lnk.ports = true → ∀ p, p < 4 → (t.port p).st = .off)
  field : d = 7 → (∀ k, SwitchesOpen t k) ∧ t.fld.seqA.st = .off ∧ t.fld.seqB.st = .off

theorem loseParts_loses (d : Nat) : PartsLost d s (s.loseParts d) where
  porch := by
    rintro rfl
    exact losePorch_loses s
  sea q := by
    rintro rfl r low high ok
    have parts : s.loseParts (seaDom q) = s.loseSea q := by cases q <;> rfl
    exact parts ▸ loseSea_rooms s q ok low high
  eng q := by
    rintro rfl ok
    have parts : s.loseParts (engDom q) = s.loseEng q := by cases q <;> rfl
    have lost := loseEng_loses s q
    rw [parts]
    exact ⟨lost.engines ok, lost.cmp, lost.link, lost.osc⟩
  link := by
    rintro rfl
    have parts : s.loseParts 6 = s.linkLoss := rfl
    rw [parts]
    exact (linkLoss_loses s).2
  field := by
    rintro rfl
    have parts : s.loseParts 7 = s.loseField := rfl
    rw [parts]
    exact ⟨loseField_open s, loseField_seqs s⟩

theorem PartsLost.freshUnits {d : Nat} {s t : State} (h : PartsLost d s t) (e : Nat) :
    PartsLost d s (t.freshUnits e) := by
  rw [freshUnits_rest]
  exact ⟨h.porch, h.sea, h.eng, h.link, h.field⟩

theorem loseDomain_loses (d : Nat) (st : DomSt) : PartsLost d s (s.loseDomain d st) := by
  have only := domTo_powerOnly s d st 0
  have lost := (loseParts_loses (s.domTo d st) d).freshUnits d
  rw [loseDomain_eq]
  refine ⟨lost.porch, fun q sea r low high ok => lost.sea q sea r low high ?_, fun q eng ok => lost.eng q eng ?_,
    fun link => ?_, lost.field⟩
  · exact (only.congr (fun u => Tab.ok .start u.sea.rooms) fun _ _ _ => rfl).trans ok
  · exact (only.congr (fun u => Tab.ok .start u.eng.engines) fun _ _ _ => rfl).trans ok
  · obtain ⟨db, roof, ports⟩ := lost.link link
    refine ⟨db, roof, fun ok => ports ?_⟩
    exact (only.congr (fun u => Tab.ok .start u.lnk.ports) fun _ _ _ => rfl).trans ok

end

/-! ### The commands on a domain -/

section
variable {s : State} {d : BitVec 3}

theorem domCtl_of_command {c : Instr} (up : s.porchUp = true) (command : c = .domainPowerDown d ∨ c = .domainPowerUp d)
    {t : State} (h : ∀ on, (s.domCtl d.toNat on).1 = t) : exec c s = .next t := by
  rcases command with rfl | rfl
  · exact (execDomainPowerDown_up d up).trans (congrArg _ (h false))
  · exact (execDomainPowerUp_up d up).trans (congrArg _ (h true))

theorem upWhy_of_on {d : Nat} (on : (s.dom d).st = .on) : s.upWhy d = 11 := by simp [State.upWhy, on]

theorem upWhy_of_retired {d : Nat} (off : (s.dom d).st = .offRetired) : s.upWhy d = 6 := by simp [State.upWhy, off]

theorem upWhy_of_held {d : Nat} (off : (s.dom d).st = .offFault) (held : (s.dom d).held = true) : s.upWhy d = 12 := by
  simp [State.upWhy, off, held]

theorem execDomainRetry_retries {d : Fin 8} {t : Nat} (live : s.alive = true) (at_ : (s.dom d.val).retryAt = some t)
    (due : t ≤ s.now) (off : (s.dom d.val).st = .offFault) (held : (s.dom d.val).held = false)
    (powered : s.pwr.off = false) : execDomainRetry d s =
      .next ((s.setDom d.val { s.dom d.val with retryAt := none }).domTo d.val .comingUp) := by
  simp [execDomainRetry, live, at_, due, off, held, powered]

end

/-- Settles O48: each command, end or fault of a domain is a switch of what the domain shows, which leaves every part
in place, and then the loss or the start of the parts of that domain alone. -/
theorem domainsGoDownAndUp : Obligations.DomainsGoDownAndUp := by
  unfold Obligations.DomainsGoDownAndUp
  intro s live ok
  refine ⟨fun d up low high others still calm settled => ?_, fun d c up command => ?_, fun d down => ?_,
    fun d o coming sound => ?_, fun d other on => execDomainFault_shows live ok d other on,
    fun d down => execDomainFault_down live d down, fun on => execDomainFault_darkens live ok on,
    fun d t due after off held powered => execDomainRetry_retries live due after off held powered⟩
  · refine ⟨fun free on => ?_, fun bound => ?_, fun off => ?_, fun on => ?_⟩
    · exact (execDomainPowerDown_up d up).trans (congrArg _ (domCtl_down low high others still calm settled free on))
    · exact (execDomainPowerDown_up d up).trans (congrArg _ (domCtl_refused low high others still calm settled bound))
    · exact (execDomainPowerUp_up d up).trans (congrArg _ (domCtl_up low high others still calm settled off))
    · exact (execDomainPowerUp_up d up).trans (congrArg _
        (domCtl_noUp low high others still calm settled (upWhy_of_on on) (by decide)))
  · refine ⟨fun outside => ?_, fun low high busy => ?_, fun low high others still calm settled isUp => ?_⟩
    · exact domCtl_of_command up command fun on => domCtl_outside outside
    · exact domCtl_of_command up command fun on => domCtl_busy low high busy
    · subst isUp
      have refused {why : Nat} (named : s.upWhy d.toNat = why) (bound : why ≠ 0) :=
        (execDomainPowerUp_up d up).trans (congrArg _ (domCtl_noUp low high others still calm settled named bound))
      exact ⟨fun off => refused (upWhy_of_retired off) (by decide),
        fun off held => refused (upWhy_of_held off held) (by decide)⟩
  · have lost := loseDomain_loses s d.val .offCmd
    exact ⟨_, execDomainDownEnd_loses live d down, (loseDomain_dom s ok d.val .offCmd).1,
      fun okc u hu own => loseDomain_units s ok okc d.val .offCmd hu own,
      lost.porch, lost.sea, lost.eng, lost.link, lost.field⟩
  · refine ⟨_, execDomainUpEnd_returns d o coming live, fun porch => ?_, fun q => ?_, fun q => ?_, fun link => ?_,
      fun field => ?_⟩
    · rw [porch]
      exact returnPorch_starts ok sound
    · exact returnSea_frees ok q
    · exact fun eng engBad cmpBad oscBad => returnEngDom_starts ok q eng sound engBad cmpBad oscBad
    · rw [link]
      exact returnLink_seeks ok sound
    · rw [field]
      exact returnField_starts ok

end Sys2Proof.Machine

/-! What is judged of the services (R243 to R245), and the end of start-up (R261, R269). -/

namespace Sys2Proof.Machine

/-- Nothing changed but what the services show, the records and the recorder's unit. -/
structure ServiceOnly (s t : State) : Prop where
  rest : t = { s with svc := t.svc, rcd := t.rcd, cvu := t.cvu }

section
variable {s t u : State}

theorem ServiceOnly.trans (h : ServiceOnly s t) (k : ServiceOnly t u) : ServiceOnly s u :=
  ⟨k.rest.trans (congrArg (fun v : State => { v with svc := u.svc, rcd := u.rcd, cvu := u.cvu }) h.rest)⟩

theorem ServiceOnly.setSvc (s : State) (v : Svc) : ServiceOnly s { s with svc := v } := ⟨rfl⟩

theorem ServiceOnly.of_recorded (h : Recorded s t) : ServiceOnly s t :=
  ⟨by rw [h.congr State.svc fun _ _ => rfl]; exact h⟩

theorem ServiceOnly.congr {α : Sort*} (h : ServiceOnly s t) (f : State → α)
    (same : ∀ v r c, f { s with svc := v, rcd := r, cvu := c } = f s) : f t = f s := by
  rw [h.rest]
  exact same ..

theorem svc_of_recorded (h : Recorded s t) : t.svc = s.svc := h.congr State.svc fun _ _ => rfl

end

/-! ### The functions -/

section
variable (s : State) (f : Nat) (new : FnShow)

theorem showFn_only : ServiceOnly s (s.showFn f new) := by
  unfold State.showFn
  dsimp only
  split
  · exact .setSvc s _
  · exact (ServiceOnly.setSvc s _).trans (.of_recorded (record_recorded ..))

theorem showFn_fns : (s.showFn f new).svc.fns = Tab.set FnShow.none s.svc.fns f new := by
  unfold State.showFn
  dsimp only
  split
  · rfl
  · exact congrArg Svc.fns (svc_of_recorded (record_recorded ..))

/-- Every entry of a list with each function once takes what is judged. -/
theorem foldl_showFn (l : List (Nat × Nat × FnShow)) (ok : Tab.ok FnShow.none s.svc.fns = true) :
    let t := l.foldl (fun acc x => acc.showFn x.1 x.2.2) s
    ServiceOnly s t ∧ ((l.map Prod.fst).Nodup → ∀ x ∈ l, Tab.get FnShow.none t.svc.fns x.1 = x.2.2) ∧
      ∀ k, k ∉ l.map Prod.fst → Tab.get FnShow.none t.svc.fns k = Tab.get FnShow.none s.svc.fns k := by
  induction l generalizing s with
  | nil => exact ⟨.setSvc s s.svc, fun _ x hx => absurd hx List.not_mem_nil, fun _ _ => rfl⟩
  | cons y l ih =>
    have fns := showFn_fns s y.1 y.2.2
    have only := showFn_only s y.1 y.2.2
    rw [List.foldl_cons]
    generalize s.showFn y.1 y.2.2 = t at fns only ⊢
    obtain ⟨rest, shown, others⟩ := ih t (fns ▸ Tab.ok_set _ _ ok)
    refine ⟨only.trans rest, fun once x hx => ?_, fun k hk => ?_⟩
    · obtain ⟨fresh, once⟩ := List.nodup_cons.1 once
      rcases List.mem_cons.1 hx with rfl | later
      · rw [others _ fresh, fns, Tab.get_set ok, if_pos rfl]
      · exact shown once x later
    · obtain ⟨apart, later⟩ := not_or.1 (mt List.mem_cons.2 hk)
      rw [others k later, fns, Tab.get_set ok, if_neg apart]

/-- The entries of functions that are judged no longer are gone. -/
def State.keptFns (s : State) : State :=
  { s with svc := { s.svc with fns := s.svc.fns.filter fun e => s.showAll.any fun x => x.1 == e.1 } }

/-- Every function shows what is judged of it. -/
def State.shownFns (s : State) : State := s.showAll.foldl (fun acc x => acc.showFn x.1 x.2.2) s.keptFns

/-- The worst of the P0 and P1 functions (R245). -/
def State.worstShown (s : State) : Nat :=
  (((s.showAll.filter fun x => decide (x.2.1 < 2)).map fun x => x.2.2).map FnShow.istate).foldl max 1

/-- ISTATE of the device (R245). -/
def State.judgedIstate (s : State) : Nat := if s.consumed = [] then s.worstShown else max s.worstShown 2

/-- What the services show once they are recomputed. -/
structure Recomputed (s t : State) : Prop where
  only   : ServiceOnly s t
  fns    : (s.showAll.map Prod.fst).Nodup → Tab.ok FnShow.none s.svc.fns = true →
    ∀ x ∈ s.showAll, Tab.get FnShow.none t.svc.fns x.1 = x.2.2
  istate : t.svc.istate = s.judgedIstate
  state  : ∃ fns, t.svc.state = s.devState fns t.svc.istate

theorem Recomputed.recorded {s t u : State} (h : Recomputed s t) (k : Recorded t u) : Recomputed s u := by
  have svc := svc_of_recorded k
  refine ⟨h.only.trans (.of_recorded k), ?_, ?_, ?_⟩
  · rw [svc]
    exact h.fns
  · rw [svc]
    exact h.istate
  · rw [svc]
    exact h.state

theorem shownFns_only : ServiceOnly s s.shownFns := by
  unfold State.shownFns
  have kept : ServiceOnly s s.keptFns := .setSvc s _
  generalize s.keptFns = t at kept ⊢
  generalize s.showAll = l
  induction l generalizing t with
  | nil => exact kept
  | cons x l ih => exact ih _ (kept.trans (showFn_only ..))

/-- The functions stand as shown, and the device with them. -/
theorem Recomputed.of_shown {s : State} {v : Svc} (fns : v.fns = s.shownFns.svc.fns)
    (istate : v.istate = s.judgedIstate) (state : ∃ l, v.state = s.devState l v.istate) :
    Recomputed s { s.shownFns with svc := v } := by
  refine ⟨(shownFns_only s).trans (.setSvc _ v), fun once ok x hx => ?_, istate, state⟩
  have okk : Tab.ok FnShow.none s.keptFns.svc.fns = true := Tab.ok_filter _ ok
  exact (congrArg (Tab.get FnShow.none · x.1) fns).trans ((foldl_showFn s.keptFns s.showAll okk).2.1 once x hx)

theorem recomputeServices_recomputes : Recomputed s s.recomputeServices := by
  have only := shownFns_only s
  have items : s.shownFns.consumed = s.consumed := only.congr State.consumed fun _ _ _ => rfl
  have dev (l : List FnShow) (n : Nat) : s.shownFns.devState l n = s.devState l n :=
    only.congr (·.devState l n) fun _ _ _ => rfl
  have istate (n : Nat) : (if s.shownFns.consumed.isEmpty then n else max n 2) =
      if s.consumed = [] then n else max n 2 := by
    rw [items]
    cases s.consumed <;> rfl
  have shown {v : Svc} := Recomputed.of_shown (s := s) (v := v)
  have judged : _ = s.judgedIstate := istate s.worstShown
  unfold State.recomputeServices
  extract_lets
  split
  · exact shown rfl judged ⟨_, dev ..⟩
  · refine Recomputed.recorded ?_ (record_recorded ..)
    exact shown rfl judged ⟨_, dev ..⟩

end

end Sys2Proof.Machine

/-! Start-up from step to step (R268, R269), up to the porch, and its end. -/

namespace Sys2Proof.Machine

/-! ### The steps of STARTUP_STEP -/

/-- Discovery is over: start-up goes on where an image executes. -/
def State.step7 (s : State) (o : StartOutcome) : State :=
  if !s.discovered then s
  else
    let t := s.measureStore o
    if t.cfg.image.isNone then t.endStart else t.toStep 8

/-- No window is to come: start-up ends. -/
def State.step8 (s : State) (o : StartOutcome) : State := if s.willRun then s else (s.measureStore o).endStart

/-- Step `n` of Table 12.3 ends. -/
def State.startStep (s : State) (o : StartOutcome) : Nat → State
  | 1 => s.step1 o
  | 2 =>
    let t := s.fuseSense o.plost
    let bad := t.fus.uidFail || t.fus.trimFail || t.fus.keysFail
    (if bad && t.pwr.result == 0 then t.withResult 1 else t).toStep 3
  | 3 => s.step3 o
  | 4 => s.step4 o
  | 5 => s.startImage.toStep 6
  | 6 => s.step6 o
  | 7 => s.step7 o
  | 8 => s.step8 o
  | _ => s

section
variable (s : State) (o : StartOutcome)

theorem startStep_one : s.startStep o 1 = s.step1 o := by
  unfold State.startStep
  simp only

theorem startStep_three : s.startStep o 3 = s.step3 o := by
  unfold State.startStep
  simp only

theorem startStep_four : s.startStep o 4 = s.step4 o := by
  unfold State.startStep
  simp only

theorem startStep_five : s.startStep o 5 = s.startImage.toStep 6 := by
  unfold State.startStep
  simp only

theorem startStep_six : s.startStep o 6 = s.step6 o := by
  unfold State.startStep
  simp only

theorem startStep_seven : s.startStep o 7 = s.step7 o := by
  unfold State.startStep
  simp only

theorem startStep_eight : s.startStep o 8 = s.step8 o := by
  unfold State.startStep
  simp only

theorem startStep_nine : s.startStep o 9 = s := by
  unfold State.startStep
  simp only

end

theorem execStartupStep_of {s : State} (live : s.alive = true) (on : s.pwr.off = false) (o : StartOutcome) {n : Nat}
    (step : s.pwr.step = n) {t : State} (next : s.startStep o n = t) : execStartupStep o s = .next t := by
  have runs : ¬(!s.alive || s.pwr.off) = true := by simp [live, on]
  subst step next
  exact congrArg Host.Outcome.next ((if_neg runs).trans rfl)

section
variable (s : State)

/-! ### The end of start-up -/

/-- The power block at the end of start-up. -/
theorem endStart_pwr : s.endStart.svc.change = 0 ∧ s.endStart.pwr = { s.pwr with
    step := 9, duration := if s.pwr.result = 6 then 0 else s.tb / 200000
    holdupAt := s.pwr.opsec, weak := decide (s.pwr.holdup < 400) } := by
  have noted (t : State) (c : Bool) : Recorded t (if c then t.record 0x0107 2 (wordBytes t.holdupWord) else t) := by
    cases c
    · exact .refl t
    · exact record_recorded ..
  unfold State.endStart
  dsimp only
  generalize hp : ({ s.pwr with step := 9, duration := if s.pwr.result = 6 then 0 else s.tb / 200000
                                holdupAt := s.pwr.opsec, weak := decide (s.pwr.holdup < 400) } : Pwr) = p
  have first := noted { s with pwr := p } (decide (s.pwr.holdup < 400))
  generalize (if decide (s.pwr.holdup < 400) = true then _ else ({ s with pwr := p } : State)) = t at first ⊢
  have judged := (recomputeServices_recomputes t).only
  generalize t.recomputeServices = u at judged ⊢
  have last := record_recorded { u with svc := { u.svc with change := 0 } } 0x0104 1
  refine ⟨congrArg Svc.change (svc_of_recorded (last ..)), (pwr_of_recorded (last ..)).trans ?_⟩
  exact (judged.congr State.pwr fun _ _ _ => rfl).trans (pwr_of_recorded first)

/-- What the end of start-up shows. -/
theorem measured_ends (o : StartOutcome) : let t := (s.measureStore o).endStart
    t.pwr.step = 9 ∧ t.pwr.holdup = o.storeCapMs ∧ t.pwr.weak = decide (o.storeCapMs < 400) ∧ t.svc.change = 0 ∧
      t.pwr.duration = if s.pwr.result = 6 then 0 else s.tb / 200000 := by
  obtain ⟨change, pwr⟩ := endStart_pwr (s.measureStore o)
  intro t
  rw [show t.pwr = _ from pwr]
  exact ⟨rfl, rfl, rfl, change, rfl⟩

/-! ### The rails -/

variable (d : Nat)

/-- A rail that comes up good. -/
theorem powerUp_good {bad : List Nat} (none : bad = []) :
    s.powerUp d bad = s.setDom d { Domain.ready with faults := (s.dom d).faults } := by
  simp [State.powerUp, none]

theorem powered_of_on {d : Nat} (on : (s.dom d).st = .on) : s.powered d = true := by simp [State.powered, on]

theorem dom_powerUp {bad : List Nat} (none : bad = []) (ok : Tab.ok .ready s.pwr.doms = true) :
    Tab.ok .ready (s.powerUp d bad).pwr.doms = true ∧ ((s.powerUp d bad).dom d).st = .on ∧
      ∀ e, e ≠ d → (s.powerUp d bad).dom e = s.dom e := by
  rw [powerUp_good s d none]
  refine ⟨Tab.ok_set _ _ ok, ?_, fun e other => (dom_setDom ok ..).trans (if_neg other)⟩
  rw [dom_setDom ok, if_pos rfl]
  rfl

/-! ### Step 1: the references -/

/-- The first reference is selected and the second stands by. -/
theorem step1_of {o : StartOutcome} (sound : o.cvuBad = []) (oscBad : o.oscBad = []) {u : State}
    (rails : [4, 5].foldl (fun acc d => acc.powerUp d o.regBad)
      (if (s.unit 18).failed then s.recFail .unit else s) = u)
    (powered : ∀ q, u.powered (engDom q) = true) :
    s.step1 o = ((u.setOsc .a .selected).setOsc .b .standby).toStep 2 := by
  unfold State.step1
  rw [failUnits_none sound]
  extract_lets s0 noted s1 bad lost s2 s3 s4
  have up : s1 = u := rails
  have good (q : Side) : bad q = false := by simp [bad, oscBad, up, powered]
  simp [s4, s3, s2, good, up]

theorem step1_starts {o : StartOutcome} (regBad : o.regBad = []) (sound : o.cvuBad = []) (oscBad : o.oscBad = [])
    (ok : Tab.ok .ready s.pwr.doms = true) : (s.step1 o).pwr.step = 2 ∧ (s.step1 o).pwr.osc.a = .selected ∧
      (s.step1 o).pwr.osc.b = .standby ∧ ((s.step1 o).dom 4).st = .on ∧ ((s.step1 o).dom 5).st = .on := by
  have noted : Recorded s (if (s.unit 18).failed then s.recFail .unit else s) := by
    split
    · exact recFail_recorded ..
    · exact .refl s
  have done := step1_of s sound oscBad (u := _) rfl
  generalize (if (s.unit 18).failed = true then s.recFail .unit else s) = t at noted done
  have okt : Tab.ok .ready t.pwr.doms = true := pwr_of_recorded noted ▸ ok
  obtain ⟨ok4, on4, -⟩ := dom_powerUp t 4 regBad okt
  obtain ⟨-, on5, others⟩ := dom_powerUp (t.powerUp 4 o.regBad) 5 regBad ok4
  have on4 := (congrArg Domain.st (others 4 (by decide))).trans on4
  rw [List.foldl_cons, List.foldl_cons, List.foldl_nil] at done
  generalize (t.powerUp 4 o.regBad).powerUp 5 o.regBad = u at on4 on5 done
  rw [done fun q => by cases q; exacts [powered_of_on u on4, powered_of_on u on5]]
  exact ⟨rfl, rfl, rfl, on4, on5⟩

/-! ### Step 3: the porch -/

/-- A porch whose firmware runs is booted. -/
theorem step3_of {o : StartOutcome} (sound : o.cvuBad = []) {v w : State} (rail : s.powerUp 1 o.regBad = v)
    (up : v.powered 1 = true) (boot : v.startPorch o.ppBad v.fuseFault = w) (result : w.pwr.result = 0)
    (runs : w.noFirmware = false) : s.step3 o = w.toStep 4 := by
  unfold State.step3
  dsimp only
  rw [failUnits_none sound, rail, if_pos up, boot, if_neg (by rw [result]; decide), if_neg (by rw [result]; decide),
    if_neg (by simp [runs])]

theorem step3_starts {o : StartOutcome} (regBad : o.regBad = []) (sound : o.cvuBad = []) (ppBad : o.ppBad = [])
    (ok : Tab.ok .ready s.pwr.doms = true) (result : s.pwr.result = 0) (fuses : s.fuseFault = false)
    (good : ∀ q, s.isRetired (14 + sideNat q) = false ∧ (s.unit (16 + sideNat q)).failed = false ∧
      s.bankOk q = true) : let t := s.step3 o
    t.pwr.step = 4 ∧ (t.dom 1).st = .on ∧ t.por.procA.st = .active ∧ t.por.procB.st = .standby ∧
      t.por.active = .a ∧ t = { s with pwr := t.pwr, por := t.por } := by
  have on1 := (dom_powerUp s 1 regBad ok).2.1
  have rail := powerUp_good s 1 regBad
  have up := rail ▸ powered_of_on _ on1
  have boot (v : Domain) : (s.setDom 1 v).startPorch o.ppBad (s.setDom 1 v).fuseFault = { s.setDom 1 v with
      por := { s.por with procA := { s.por.procA with st := .active }, procB := { s.por.procB with st := .standby }
                          active := .a } } := by
    rw [ppBad, show (s.setDom 1 v).fuseFault = false from fuses]
    exact startPorch_both _ good
  rw [step3_of s sound rail up (boot _) result (by simp [State.noFirmware])]
  exact ⟨rfl, rail ▸ on1, rfl, rfl, rfl, rfl⟩

end

end Sys2Proof.Machine

/-! Fuse sensing, the second step of start-up (R379, R382, R385, R386). -/

namespace Sys2Proof.Machine

/-- What word `k` of the shadows reads. -/
def State.fuseWord (s : State) (k : Nat) : Word := Tab.get 0#32 s.fus.shadow k

/-- From `s` to `t` bits of the shadows may have come to read 1, and blows joined the list. -/
structure Blown (s t : State) : Prop where
  pwr   : t.pwr = s.pwr
  plost : t.fus.plost = s.fus.plost
  ok    : Tab.ok 0#32 s.fus.shadow = true → Tab.ok 0#32 t.fus.shadow = true
  more  : Tab.ok 0#32 s.fus.shadow = true → ∀ k b, (s.fuseWord k).getLsbD b = true → (t.fuseWord k).getLsbD b = true

section
variable {s t u : State}

theorem Blown.trans (h : Blown s t) (k : Blown t u) : Blown s u where
  pwr := k.pwr.trans h.pwr
  plost := k.plost.trans h.plost
  ok ok := k.ok (h.ok ok)
  more ok n b set := k.more (h.ok ok) n b (h.more ok n b set)

theorem Blown.of_shadow (pwr : t.pwr = s.pwr) (plost : t.fus.plost = s.fus.plost)
    (shadow : t.fus.shadow = s.fus.shadow) : Blown s t :=
  ⟨pwr, plost, fun ok => shadow ▸ ok, fun _ k b set => by rwa [State.fuseWord, shadow]⟩

theorem Blown.refl (s : State) : Blown s s := .of_shadow rfl rfl rfl

theorem fus_of_recorded (h : Recorded s t) : t.fus = s.fus := h.congr State.fus fun _ _ => rfl

theorem Blown.of_recorded (h : Recorded s t) : Blown s t :=
  .of_shadow (pwr_of_recorded h) (congrArg Fus.plost (fus_of_recorded h)) (congrArg Fus.shadow (fus_of_recorded h))

theorem Blown.foldl {α : Type} {f : State → α → State} (h : ∀ a x, Blown a (f a x)) (l : List α) (s : State) :
    Blown s (l.foldl f s) := by
  induction l generalizing s with
  | nil => exact .refl s
  | cons x l ih => exact (h s x).trans (ih _)

end

section
variable (s : State)

theorem fuseWord_setShadow (ok : Tab.ok 0#32 s.fus.shadow = true) (w b k : Nat) : (s.setShadow w b).fuseWord k =
    if k = w then s.fuseWord w ||| BitVec.ofNat 32 (1 <<< b) else s.fuseWord k :=
  Tab.get_upd ok w k fun v => v ||| BitVec.ofNat 32 (1 <<< b)

theorem setShadow_blown (w b : Nat) : Blown s (s.setShadow w b) := by
  refine ⟨rfl, rfl, Tab.ok_upd w (· ||| BitVec.ofNat 32 (1 <<< b)), fun ok k n set => ?_⟩
  rw [fuseWord_setShadow s ok]
  split
  · next same =>
    subst same
    rw [BitVec.getLsbD_or, set, Bool.true_or]
  · exact set

/-- The bit itself reads 1. -/
theorem setShadow_sets (ok : Tab.ok 0#32 s.fus.shadow = true) (w : Nat) {b : Nat} (hb : b < 32) :
    ((s.setShadow w b).fuseWord w).getLsbD b = true := by
  have bit : (BitVec.ofNat 32 (1 <<< b)).getLsbD b = true := by simp [BitVec.getLsbD_ofNat, hb]
  rw [fuseWord_setShadow s ok, if_pos rfl, BitVec.getLsbD_or, bit, Bool.or_true]

/-- The blows of a list read 1. -/
def State.setBlows (s : State) (l : List Blow) : State := l.foldl (fun acc x => acc.setShadow x.word x.bit) s

theorem setBlows_blown (l : List Blow) : Blown s (s.setBlows l) :=
  Blown.foldl (f := fun acc (x : Blow) => acc.setShadow x.word x.bit) (fun a x => setShadow_blown a x.word x.bit) l s

theorem setBlows_sets (l : List Blow) (ok : Tab.ok 0#32 s.fus.shadow = true) :
    ∀ x ∈ l, x.bit < 32 → ((s.setBlows l).fuseWord x.word).getLsbD x.bit = true := by
  have keeps (a : State) (x : Blow) := (setShadow_blown a x.word x.bit).ok
  have marks (a : State) (x : Blow) (ok : Tab.ok 0#32 a.fus.shadow = true) (low : x.bit < 32) :=
    setShadow_sets a ok x.word low
  have stays (a : State) (x y : Blow) (ok : Tab.ok 0#32 a.fus.shadow = true)
      (set : y.bit < 32 → (a.fuseWord y.word).getLsbD y.bit = true) (low : y.bit < 32) :=
    (setShadow_blown a x.word x.bit).more ok y.word y.bit (set low)
  exact (foldl_marks (I := fun t => Tab.ok 0#32 t.fus.shadow = true)
    (P := fun t x => x.bit < 32 → (t.fuseWord x.word).getLsbD x.bit = true) keeps marks stays l ok).2

theorem fuseKick_blown : Blown s s.fuseKick := by
  unfold State.fuseKick
  split
  · exact .of_shadow rfl rfl rfl
  · exact .refl s

theorem fuseKick_shadow : s.fuseKick.fus.shadow = s.fus.shadow := by
  unfold State.fuseKick
  split <;> rfl

theorem fuseScan_blown : Blown s s.fuseScan := by
  refine .trans (.foldl (fun a e => ?_) s.reblows s) (fuseKick_blown _)
  split
  · exact .refl a
  · dsimp only
    split
    · exact (Blown.of_shadow rfl rfl rfl : Blown a (a.addBlow _)).trans (setShadow_blown ..)
    · exact .of_shadow rfl rfl rfl

/-- Inside the programming window no re-blow is pending, and the shadows stay. -/
theorem fuseScan_inWindow (inside : s.fus.window = true) : s.fuseScan.fus.shadow = s.fus.shadow := by
  refine (fuseKick_shadow _).trans (foldl_view (fun u : State => u.fus.shadow) (fun a e => ?_) s.reblows s)
  split
  · rfl
  · rw [inside]
    rfl

/-! ### Reading the rows -/

/-- The rows of `l` have been read, and the other words stand. -/
structure RowsRead (l : List Nat) (s t : State) : Prop where
  rest  : t = { s with fus := { s.fus with shadow := t.fus.shadow, marg := t.fus.marg } }
  ok    : Tab.ok 0#32 t.fus.shadow = true
  words : ∀ k, t.fuseWord k = if k ∈ l then s.fuseWord k ||| (s.nv.rowRead k).bits else s.fuseWord k

theorem RowsRead.congr {α : Sort*} {l : List Nat} {s t : State} (h : RowsRead l s t) (f : State → α)
    (same : ∀ v m, f { s with fus := { s.fus with shadow := v, marg := m } } = f s) : f t = f s :=
  (congrArg f h.rest).trans (same ..)

theorem foldl_reread (l : List Nat) (once : l.Nodup) (ok : Tab.ok 0#32 s.fus.shadow = true) :
    RowsRead l s (l.foldl State.reread s) := by
  induction l generalizing s with
  | nil => exact ⟨rfl, ok, fun k => (if_neg List.not_mem_nil).symm⟩
  | cons w l ih =>
    obtain ⟨fresh, once⟩ := List.nodup_cons.1 once
    have first (k : Nat) : (s.reread w).fuseWord k =
        if k = w then s.fuseWord w ||| (s.nv.rowRead w).bits else s.fuseWord k :=
      Tab.get_upd ok w k (· ||| (s.nv.rowRead w).bits)
    have read := ih (s.reread w) once (Tab.ok_upd w (· ||| (s.nv.rowRead w).bits) ok)
    refine ⟨read.rest.trans rfl, read.ok, fun k => (read.words k).trans ?_⟩
    rw [first, show (s.reread w).nv = s.nv from rfl]
    by_cases same : k = w
    · subst same
      simp [fresh]
    · simp [same]

end

/-- The device as its rows are read: nothing in the shadows, and no blow listed that is lost. -/
def State.unsensed (s : State) (plost : Bool) : State :=
  { s with nv := { s.nv with blows := if plost then [] else s.nv.blows }
           fus := { s.fus with shadow := [], marg := [], blowing := false, nospare := false, plost := plost } }

/-- The fuses with their check values judged (R382). -/
def State.checkFuses (s : State) : State :=
  let w (k : Nat) : Nat := (Tab.get 0#32 s.fus.shadow k).toNat
  { s with fus := { s.fus with
    uidFail := decide (w 2 % 65536 ≠ crcOf 1#2 (s.fuseBytes 0 2))
    trimFail := decide (w 15 ≠ crcOf 3#2 (s.fuseBytes 3 12))
    keysFail := decide (w 48 ≠ crcOf 3#2 (s.fuseBytes 16 32)) } }

/-- The records of what was sensed. -/
def State.tellFuses (s : State) (plost : Bool) : State :=
  let s4 := s.fus.marg.foldl (fun acc e => acc.record 0x0202 2
    (BitVec.ofNat 8 e.1 :: wordBytes (Tab.get 0#32 acc.fus.shadow e.1))) s
  let s5 := if plost then s4.record 0x0205 2 [] else s4
  if s5.fus.uidFail || s5.fus.trimFail || s5.fus.keysFail then s5.record 0x0204 5 (wordBytes s5.fusStat) else s5

theorem fuseSense_eq (s : State) (plost : Bool) : s.fuseSense plost =
    (((((List.range 128).foldl State.reread (s.unsensed plost)).checkFuses).setBlows
      (if plost then [] else s.nv.blows)).tellFuses plost).fuseScan := rfl

theorem tellFuses_records (s : State) (plost : Bool) : Recorded s (s.tellFuses plost) := by
  have recordIf (t : State) (c : Bool) (n v : Nat) (p : List Byte) : Recorded t (if c then t.record n v p else t) := by
    cases c
    · exact .refl t
    · exact record_recorded ..
  unfold State.tellFuses
  exact ((Recorded.foldl (fun a x => record_recorded ..) _ _).trans (recordIf ..)).trans (recordIf ..)

/-- What fuse sensing gives. -/
structure Sensed (lost : Bool) (s t : State) : Prop where
  pwr   : t.pwr = s.pwr
  plost : t.fus.plost = lost
  rows  : ∀ k, k < 128 → t.fuseWord k &&& (s.nv.rowRead k).bits = (s.nv.rowRead k).bits
  same  : s.nv.blows = [] → s.fus.window = true → ∀ k, k < 128 → t.fuseWord k = (s.nv.rowRead k).bits
  blows : lost = false → ∀ x ∈ s.nv.blows, x.bit < 32 → (t.fuseWord x.word).getLsbD x.bit = true

theorem and_of_bits {v w : Word} (h : ∀ b, w.getLsbD b = true → v.getLsbD b = true) : v &&& w = w := by
  refine BitVec.eq_of_getLsbD_eq fun b _ => ?_
  rw [BitVec.getLsbD_and]
  cases bit : w.getLsbD b with
  | false => exact Bool.and_false _
  | true => rw [h b bit, Bool.and_true]

theorem fuseSense_senses (s : State) (plost : Bool) : Sensed plost s (s.fuseSense plost) := by
  have read := foldl_reread (s.unsensed plost) (List.range 128) List.nodup_range (Tab.ok_nil _)
  rw [fuseSense_eq]
  generalize (List.range 128).foldl State.reread (s.unsensed plost) = t at read ⊢
  have words (k : Nat) (hk : k < 128) : t.checkFuses.fuseWord k = (s.nv.rowRead k).bits :=
    (read.words k).trans ((if_pos (List.mem_range.2 hk)).trans BitVec.zero_or)
  have pwr : t.checkFuses.pwr = s.pwr := read.congr State.pwr fun _ _ => rfl
  have lost : t.checkFuses.fus.plost = plost := read.congr (·.fus.plost) fun _ _ => rfl
  have window : t.checkFuses.fus.window = s.fus.window := read.congr (·.fus.window) fun _ _ => rfl
  have ok : Tab.ok 0#32 t.checkFuses.fus.shadow = true := read.ok
  clear read
  generalize t.checkFuses = u at *
  generalize hl : (if plost = true then [] else s.nv.blows) = l
  have listed := setBlows_blown u l
  have noted := tellFuses_records (u.setBlows l) plost
  have scanned := (Blown.of_recorded noted).trans (fuseScan_blown _)
  have all := listed.trans scanned
  refine ⟨all.pwr.trans pwr, all.plost.trans lost, fun k hk => and_of_bits fun b bit => ?_,
    fun none inside k hk => ?_, fun kept x hx low => ?_⟩
  · exact all.more ok k b ((words k hk).symm ▸ bit)
  · have idle : l = [] := by simp [← hl, none]
    subst idle
    have fus : ((u.setBlows []).tellFuses plost).fus = u.fus := fus_of_recorded noted
    have shadow := fuseScan_inWindow _ (fus ▸ window.trans inside)
    rw [State.fuseWord, shadow, fus, ← State.fuseWord, words k hk]
  · have member : x ∈ l := by simpa [← hl, kept] using hx
    exact scanned.more (listed.ok ok) x.word x.bit (setBlows_sets u l ok x member low)

end Sys2Proof.Machine

/-! The logic side as it starts, the fourth step of start-up (R119, R270, Table 12.3). -/

namespace Sys2Proof.Machine

/-- One half of the logic side starts, where its rails are up. -/
def State.startSide (s : State) (q : Side) (o : StartOutcome) : State :=
  let a := if s.powered (seaDom q) then s.startSea q o.roomsBad o.roomsFixed else s
  if a.powered (engDom q) then a.startEng q o else a

/-- The tests of the logic side find nothing. -/
structure SidesGood (o : StartOutcome) : Prop where
  cvu   : o.cvuBad = []
  rooms : o.roomsBad = []
  fixed : o.roomsFixed = []
  eng   : o.engBad = []
  cmp   : o.cmpBad = []
  ckm   : o.ckmBad = []

/-- Nothing is placed, and the rails of both halves are up. -/
structure SidesReady (s : State) : Prop where
  doms    : ∀ q, (s.dom (seaDom q)).st = .on ∧ (s.dom (engDom q)).st = .on
  some    : ∀ q, s.allRetired (seaDom q) = false
  empty   : s.sea.imap = []
  idle    : s.cfg.staged = none
  out     : s.eng.ckmOut = []
  rooms   : Tab.ok .start s.sea.rooms = true
  engines : Tab.ok .start s.eng.engines = true

/-- A half of the logic side whose parts passed. -/
structure SideStarted (q : Side) (s t : State) : Prop where
  rest     : t = { s with eng := t.eng, lgc := t.lgc, cnv := t.cnv, rcd := t.rcd, cvu := t.cvu
                          sea := { s.sea with rooms := t.sea.rooms } }
  ready    : SidesReady t
  rooms    : ∀ r ∈ halfRooms q, (t.room r).st = if s.roomBit r then .retired else .free
  roomThen : ∀ r ∉ halfRooms q, t.room r = s.room r
  engines  : ∀ e ∈ sideEngines q, (t.engine e).st = if s.isRetired e then .retired else .spare
  engThen  : ∀ e ∉ sideEngines q, t.engine e = s.engine e
  cmp      : t.cmp q = if s.isRetired (8 + sideNat q) then .retired else .inService
  cmpThen  : t.cmp (otherSide q) = s.cmp (otherSide q)
  ckm      : t.ckm q = true
  ckmThen  : t.ckm (otherSide q) = s.ckm (otherSide q)

theorem mem_sideEngines {q : Side} {e : Nat} : e ∈ sideEngines q ↔ 4 * sideNat q ≤ e ∧ e < 4 * sideNat q + 4 := by
  simp only [sideEngines, List.mem_map, List.mem_range]
  constructor
  · rintro ⟨j, hj, rfl⟩
    omega
  · exact fun h => ⟨e - 4 * sideNat q, by omega, by omega⟩

section
variable {s : State} {o : StartOutcome} (good : SidesGood o)

theorem SideStarted.congr {α : Sort*} {q : Side} {t : State} (h : SideStarted q s t) (f : State → α)
    (same : ∀ e l c r u m, f { s with eng := e, lgc := l, cnv := c, rcd := r, cvu := u
                                      sea := { s.sea with rooms := m } } = f s) : f t = f s :=
  (congrArg f h.rest).trans (same ..)

include good

theorem startSide_starts (q : Side) (ready : SidesReady s) : SideStarted q s (s.startSide q o) := by
  obtain ⟨seaOn, engOn⟩ := ready.doms q
  have freed := startSea_frees s q ready.rooms ready.empty ready.idle (ready.some q)
  have sea : s.startSide q o = if (s.startSea q [] []).powered (engDom q) then (s.startSea q [] []).startEng q o
      else s.startSea q [] [] := by
    unfold State.startSide
    dsimp only
    rw [good.rooms, good.fixed, if_pos (powered_of_on s seaOn)]
  rw [sea]
  clear sea
  generalize s.startSea q [] [] = t at freed ⊢
  have keeps {α : Sort _} (f : State → α)
      (same : ∀ m, f { s with sea := { s.sea with rooms := m } } = f s) : f t = f s :=
    (congrArg f freed.rest).trans (same _)
  have eng : t.eng = s.eng := keeps State.eng fun _ => rfl
  have up : t.powered (engDom q) = true := (keeps (·.powered (engDom q)) fun _ => rfl).trans (powered_of_on s engOn)
  rw [if_pos up]
  have started := startEng_starts t q good.eng good.cvu good.cmp (eng ▸ ready.engines)
  obtain ⟨out, ckm, ckmThen⟩ := started.ckm good.ckm (eng ▸ ready.out)
  generalize t.startEng q o = u at started out ckm ckmThen ⊢
  have rest : u = { s with eng := u.eng, lgc := u.lgc, cnv := u.cnv, rcd := u.rcd, cvu := u.cvu
                           sea := { s.sea with rooms := u.sea.rooms } } := by
    have sea : u.sea = t.sea := by rw [started.rest]
    rw [sea]
    exact started.rest.trans (congrArg (fun v : State => { v with
      eng := u.eng, lgc := u.lgc, cnv := u.cnv, rcd := u.rcd, cvu := u.cvu }) freed.rest)
  have same {α : Sort _} (f : State → α) (same : ∀ e l c r v m, f { s with
      eng := e, lgc := l, cnv := c, rcd := r, cvu := v, sea := { s.sea with rooms := m } } = f s) : f u = f s :=
    (congrArg f rest).trans (same ..)
  have room (r : Nat) : u.room r = t.room r := by rw [started.rest]; rfl
  have engine (e : Nat) : t.engine e = s.engine e := by rw [State.engine, eng, State.engine]
  have retired (b : Nat) : t.isRetired b = s.isRetired b := keeps (·.isRetired b) fun _ => rfl
  have cmp (r : Side) : t.cmp r = s.cmp r := by cases r <;> simp only [State.cmp, eng]
  have ckms (r : Side) : t.ckm r = s.ckm r := by cases r <;> simp only [State.ckm, eng]
  refine ⟨rest, ⟨fun r => ?_, fun r => ?_, ?_, ?_, out, ?_, started.ok⟩, fun r hr => (room r).symm ▸ freed.rooms r hr,
    fun r hr => (room r).trans (freed.others r hr), fun e he => retired e ▸ started.engines e he,
    fun e he => (started.others e he).trans (engine e), retired _ ▸ started.cmp, started.cmpThen.trans (cmp _), ckm,
    ckmThen.trans (ckms _)⟩
  · rw [same (·.dom (seaDom r)) fun _ _ _ _ _ _ => rfl, same (·.dom (engDom r)) fun _ _ _ _ _ _ => rfl]
    exact ready.doms r
  · exact (same (·.allRetired (seaDom r)) fun _ _ _ _ _ _ => rfl).trans (ready.some r)
  · exact (same (·.sea.imap) fun _ _ _ _ _ _ => rfl).trans ready.empty
  · exact (same (·.cfg.staged) fun _ _ _ _ _ _ => rfl).trans ready.idle
  · rw [show u.sea.rooms = t.sea.rooms by rw [started.rest]]
    exact freed.ok

/-- What the logic side shows as it has started. -/
structure SidesStarted (s t : State) : Prop where
  pwr     : t.pwr = s.pwr
  rooms   : ∀ r, r < 64 → s.roomBit r = false → (t.room r).st = .free
  engines : ∀ e, e < 8 → s.isRetired e = false → (t.engine e).st = .spare
  cmp     : ∀ q, s.isRetired (8 + sideNat q) = false → t.cmp q = .inService
  ckm     : ∀ q, t.ckm q = true

theorem startSides_start (ready : SidesReady s) : SidesStarted s ((s.startSide .a o).startSide .b o) := by
  have first := startSide_starts good .a ready
  generalize s.startSide .a o = t at first ⊢
  have second := startSide_starts good .b first.ready
  generalize t.startSide .b o = u at second ⊢
  have bits (r : Nat) : t.roomBit r = s.roomBit r := first.congr (·.roomBit r) fun _ _ _ _ _ _ => rfl
  have retired (b : Nat) : t.isRetired b = s.isRetired b := first.congr (·.isRetired b) fun _ _ _ _ _ _ => rfl
  refine ⟨?_, fun r hr unretired => ?_, fun e he usable => ?_, fun q usable => ?_, fun q => ?_⟩
  · exact (second.congr State.pwr fun _ _ _ _ _ _ => rfl).trans (first.congr State.pwr fun _ _ _ _ _ _ => rfl)
  · by_cases half : r ∈ halfRooms .b
    · rw [second.rooms r half, bits, unretired]
      rfl
    · have half' : r ∈ halfRooms .a := by simp only [mem_halfRooms, sideNat] at half ⊢; omega
      rw [second.roomThen r half, first.rooms r half', unretired]
      rfl
  · by_cases half : e ∈ sideEngines .b
    · rw [second.engines e half, retired, usable]
      rfl
    · have half' : e ∈ sideEngines .a := by simp only [mem_sideEngines, sideNat] at half ⊢; omega
      rw [second.engThen e half, first.engines e half', usable]
      rfl
  · cases q with
    | a => rw [show u.cmp .a = t.cmp .a from second.cmpThen, first.cmp, usable]; rfl
    | b => rw [second.cmp, retired, usable]; rfl
  · cases q with
    | a => exact (show u.ckm .a = t.ckm .a from second.ckmThen).trans first.ckm
    | b => exact second.ckm

omit good

theorem step4_of {u : State} (rails : [2, 3].foldl (fun acc d =>
    if acc.allRetired d then acc.setDom d { acc.dom d with st := .offRetired } else acc.powerUp d o.regBad) s = u) :
    s.step4 o = ((u.startSide .a o).startSide .b o).toStep 5 := by
  subst rails
  rfl

/-- The rails of the sea come up beside those of the engines. -/
theorem rails_up (ok : Tab.ok .ready s.pwr.doms = true) (regBad : o.regBad = []) (some2 : s.allRetired 2 = false)
    (some3 : s.allRetired 3 = false) (on4 : (s.dom 4).st = .on) (on5 : (s.dom 5).st = .on) :
    ∃ p, [2, 3].foldl (fun acc d => if acc.allRetired d then acc.setDom d { acc.dom d with st := .offRetired }
        else acc.powerUp d o.regBad) s = { s with pwr := p } ∧
      ∀ d, 2 ≤ d → d ≤ 5 → (({ s with pwr := p } : State).dom d).st = .on := by
  obtain ⟨ok2, up2, others2⟩ := dom_powerUp s 2 regBad ok
  have some3' : (s.powerUp 2 o.regBad).allRetired 3 = false := by
    rw [powerUp_good s 2 regBad]
    exact some3
  have rails : [2, 3].foldl (fun acc d => if acc.allRetired d then acc.setDom d { acc.dom d with st := .offRetired }
      else acc.powerUp d o.regBad) s = (s.powerUp 2 o.regBad).powerUp 3 o.regBad := by
    simp only [List.foldl_cons, List.foldl_nil, some2, some3', Bool.false_eq_true, if_false]
  obtain ⟨-, up3, others3⟩ := dom_powerUp (s.powerUp 2 o.regBad) 3 regBad ok2
  have rest : (s.powerUp 2 o.regBad).powerUp 3 o.regBad =
      { s with pwr := ((s.powerUp 2 o.regBad).powerUp 3 o.regBad).pwr } := by
    rw [powerUp_good _ 3 regBad, powerUp_good s 2 regBad]
    rfl
  refine ⟨_, rails.trans rest, fun d low high => ?_⟩
  rw [← rest]
  obtain rfl | rfl | rfl | rfl : d = 2 ∨ d = 3 ∨ d = 4 ∨ d = 5 := by omega
  · rw [others3 2 (by decide), up2]
  · exact up3
  · rw [others3 4 (by decide), others2 4 (by decide), on4]
  · rw [others3 5 (by decide), others2 5 (by decide), on5]

include good

theorem step4_starts (ok : Tab.ok .ready s.pwr.doms = true) (regBad : o.regBad = []) (empty : s.sea.imap = [])
    (idle : s.cfg.staged = none) (out : s.eng.ckmOut = []) (some2 : s.allRetired 2 = false)
    (some3 : s.allRetired 3 = false) (on4 : (s.dom 4).st = .on) (on5 : (s.dom 5).st = .on)
    (rooms : Tab.ok .start s.sea.rooms = true) (engines : Tab.ok .start s.eng.engines = true) :
    (s.step4 o).pwr.step = 5 ∧ (∀ d, 2 ≤ d → d ≤ 5 → ((s.step4 o).dom d).st = .on) ∧
      (∀ r, r < 64 → s.roomBit r = false → ((s.step4 o).room r).st = .free) ∧
      (∀ e, e < 8 → s.isRetired e = false → ((s.step4 o).engine e).st = .spare) ∧
      (∀ q, s.isRetired (8 + sideNat q) = false → (s.step4 o).cmp q = .inService) ∧
      (s.step4 o).ckm .a = true ∧ (s.step4 o).ckm .b = true := by
  obtain ⟨p, rails, doms⟩ := rails_up ok regBad some2 some3 on4 on5
  have some (q : Side) : ({ s with pwr := p } : State).allRetired (seaDom q) = false := by cases q <;> assumption
  have domsUp (q : Side) : (({ s with pwr := p } : State).dom (seaDom q)).st = .on ∧
      (({ s with pwr := p } : State).dom (engDom q)).st = .on := by
    cases q <;> exact ⟨doms _ (by decide) (by decide), doms _ (by decide) (by decide)⟩
  have started := startSides_start good ⟨domsUp, some, empty, idle, out, rooms, engines⟩
  rw [step4_of rails]
  generalize (State.startSide { s with pwr := p } .a o).startSide .b o = t at started ⊢
  refine ⟨rfl, fun d low high => ?_, started.rooms, started.engines, fun q usable => ?_, started.ckm .a, started.ckm .b⟩
  · have dom : t.dom d = _ := dom_of_pwr started.pwr d
    exact (congrArg Domain.st dom).trans (doms d low high)
  · have cmp : (t.toStep 5).cmp q = t.cmp q := by cases q <;> rfl
    exact cmp.trans (started.cmp q usable)

end

end Sys2Proof.Machine

/-! The image that starts, the fifth step of start-up (R271, R311). -/

namespace Sys2Proof.Machine

section
variable (s : State)

/-! ### The check of the image -/

theorem checkWith_recorded (u : Nat) (poly : BitVec 2) (bytes : List Byte) (crc : Nat) :
    Recorded s (s.checkWith u poly bytes crc).1 :=
  (runUnit_recorded s u fun c => c.payload poly bytes).more _ _

theorem sectCrcs_recorded (l : List Sect) : Recorded s (s.sectCrcs l).1 := by
  induction l generalizing s with
  | nil => exact .refl s
  | cons x l ih =>
    have checked := checkWith_recorded s (procUnit s.por.active) 3#2 (x.head ++ x.body) x.crc
    unfold State.sectCrcs
    dsimp only
    split
    · exact checked.trans (ih _)
    · exact checked

theorem imageCrc_recorded (bs : List Byte) (len : Nat) (l : List Sect) : Recorded s (s.imageCrc bs len l).1 := by
  have checked := checkWith_recorded s (procUnit s.por.active) 2#2 (bs.take (len - 4)) (numAt bs (len - 4) 4)
  unfold State.imageCrc
  dsimp only
  split
  · exact checked.trans (sectCrcs_recorded _ l)
  · exact checked

theorem startable_recorded : Recorded s s.startable.1 := by
  unfold State.startable
  dsimp only
  split
  · exact .refl s
  · exact imageCrc_recorded ..

/-! ### What is put in place -/

theorem putRoom_stands (key r : Nat) (m : RoomImg) (b : Bool) : Stands s (s.putRoom key r m b) := setRoom_stands ..

theorem putImageRoom_stands (st : Bool) (x : RoomImg × Option Nat) : Stands s (s.putImageRoom st x) := by
  unfold State.putImageRoom
  dsimp only
  split
  · next r _ =>
    have put := (putRoom_stands s (roomKey st x.1.iroom) r x.1 false).trans
      (setIrm_stands _ (roomKey st x.1.iroom) { IRoom.none with room := some r })
    split
    · exact put
    · exact put.trans (roomRecord_stands ..)
  · exact setIrm_stands ..

theorem putImageMirror_stands (st : Bool) (x : (RoomImg × Nat) × Option Nat) : Stands s (s.putImageMirror st x) := by
  unfold State.putImageMirror
  dsimp only
  split
  · exact (putRoom_stands ..).trans (setIrm_stands ..)
  · exact .refl s

theorem putPlan_stands (st : Bool) (p : RoomPlan) : Stands s (s.putPlan st p) :=
  (Stands.foldl (fun a x => putImageRoom_stands a st x) p.rooms s).trans
    (.foldl (fun a x => putImageMirror_stands a st x) p.mirrors _)

theorem putInsts_stands (m : Image) (st : Bool) : Stands s (s.putInsts m st) := by
  unfold State.putInsts
  refine Stands.trans ?_ (settle_stands _)
  exact .foldl (fun a i => setInst_stands ..) m.insts s

/-- The image executes from the slot that the pointer names. -/
theorem placeImage_places (m : Image) (idle : s.cfg.staged = none) (ok : Tab.ok .empty s.nv.slots = true) :
    (s.placeImage m).cfg.image = some m ∧ (s.placeImage m).cfg.slot = s.nv.active ∧
      ((s.placeImage m).slot s.nv.active).st = .running := by
  generalize hu : ({ s with cfg := { s.cfg with image := some m, slot := s.nv.active } } : State).setSlotSt s.nv.active
    .running = u
  have unstaged : u.cfg.staged = none := hu ▸ idle
  have running : (u.slot s.nv.active).st = .running := by
    rw [← hu]
    refine (congrArg Slot.st (Tab.get_set ok ..)).trans ?_
    rw [if_pos rfl]
  have image : u.cfg.image = some m := hu ▸ rfl
  have slot : u.cfg.slot = s.nv.active := hu ▸ rfl
  let v := ((u.putPlan false (planStart m
    ({ s with cfg := { s.cfg with image := some m, slot := s.nv.active } } : State).freeRooms)).putInsts m
    false).redistribute.settle
  have placed : Stands u v := (((putPlan_stands ..).trans (putInsts_stands ..)).trans (redistribute_stands _)).trans
    (settle_stands _)
  have done : s.placeImage m = (v.startTimers m.timers).usePorch (some m) := by
    unfold State.placeImage
    dsimp only
    rw [hu]
  rw [done]
  clear_value v
  have nv := (placed.store unstaged).1
  refine ⟨(congrArg (·.2.2.2.1) placed.footing :).trans image, (congrArg (·.2.2.2.2.1) placed.footing :).trans slot, ?_⟩
  have kept : ((v.startTimers m.timers).usePorch (some m)).slot s.nv.active = u.slot s.nv.active := by
    rw [State.slot, State.slot, ← nv]
    rfl
  rw [kept, running]

/-- No image starts. -/
theorem startImage_none (none : s.startable.2 = none) :
    s.startImage = { s.startable.1 with pwr := { s.startable.1.pwr with result := 3 } } := by
  unfold State.startImage
  dsimp only
  rw [none]

variable {m : Image} (found : s.startable.2 = some m)
include found

/-- An image under another seal does not start. -/
theorem startImage_sealed (sealed : s.startable.1.cfg.sealNow ≠ 0)
    (other : s.startable.1.cfg.sealNow ≠ m.hdr.sealCode) :
    s.startImage = { s.startable.1 with pwr := { s.startable.1.pwr with result := 4 } } := by
  unfold State.startImage
  dsimp only
  rw [found]
  exact if_pos ⟨sealed, other⟩

theorem startImage_starts (open_ : s.startable.1.cfg.sealNow = 0 ∨ s.startable.1.cfg.sealNow = m.hdr.sealCode) :
    s.startImage = s.startable.1.placeImage m := by
  unfold State.startImage
  dsimp only
  rw [found]
  exact if_neg fun ⟨sealed, other⟩ => open_.elim sealed other

end

end Sys2Proof.Machine

/-! The field side and the links as start-up reaches them, the sixth step (R55, R185, R276, Table 12.3). -/

namespace Sys2Proof.Machine

/-- What the field side and the rails show. -/
def State.outer (s : State) : Fld × Pwr := (s.fld, s.pwr)

section
variable {s t u : State}

theorem LinkOnly.outer (h : LinkOnly s t) : t.outer = s.outer := by rw [h.rest]; rfl

theorem LinkJudged.outer {l : Side} (h : LinkJudged l s t) : t.outer = s.outer :=
  h.congr State.outer fun _ _ _ _ _ => by cases l <;> rfl

theorem outer_of_recorded (h : Recorded s t) : t.outer = s.outer := h.congr State.outer fun _ _ => rfl

end

section
variable (s : State) (o : StartOutcome)

/-! ### The links to other devices -/

theorem startCons_link (st : Bool) (k : Nat) (c : ConsImg) : LinkOnly s (s.startCons st k c) := .of_lnk s _

/-- The ports that fail their tests, and those whose units do. -/
def State.failPorts (s : State) (o : StartOutcome) : State :=
  let us := o.cvuBad.filter fun u => 8 ≤ u ∧ u < 12
  (o.portsBad ++ us.map fun u => u - 8).foldl (fun acc p => if p < 4 then acc.portTo p .failed else acc) s

theorem failPorts_link : LinkOnly s (s.failPorts o) := by
  refine .foldl (fun a p => ?_) _ s
  split
  · exact portTo_link ..
  · exact .of_lnk a a.lnk

theorem openLink_outer (sound : o.cvuBad = []) : (s.openLink o).outer = (s.powerUp 6 o.regBad).outer := by
  have startIf (t : State) (c : Prop) [Decidable c] : LinkOnly t (if c then t.linkStart else t) := by
    split
    · exact (linkStart_seeks t).1
    · exact .of_lnk t t.lnk
  have cons := LinkOnly.foldl (fun a (x : Nat × ConsImg) => startCons_link a false x.1 x.2)
    ((s.powerUp 6 o.regBad).consList false) (s.powerUp 6 o.regBad)
  have none (t : State) := failUnits_none sound t (o.cvuBad.filter fun u => 8 ≤ u ∧ u < 12)
  unfold State.openLink
  dsimp only
  rw [none]
  exact ((cons.trans (startIf _ _)).trans (failPorts_link _ o)).outer

/-! ### The calibration records -/

/-- The stored calibration is judged, and beside it only records are made. -/
def CalOnly (s t : State) : Prop :=
  t = { s with nv := { s.nv with cal := t.nv.cal }, rcd := t.rcd, cvu := t.cvu }

theorem CalOnly.trans {s t u : State} (h : CalOnly s t) (k : CalOnly t u) : CalOnly s u := by
  unfold CalOnly at *
  exact k.trans (congrArg (fun v : State => { v with
    nv := { v.nv with cal := u.nv.cal }, rcd := u.rcd, cvu := u.cvu }) h)

theorem CalOnly.of_recorded {s t : State} (h : Recorded s t) : CalOnly s t := by
  have nv : t.nv = s.nv := h.congr State.nv fun _ _ => rfl
  unfold CalOnly
  rw [nv]
  exact h

theorem CalOnly.congr {α : Sort*} {s t : State} (h : CalOnly s t) (f : State → α)
    (same : ∀ c r u, f { s with nv := { s.nv with cal := c }, rcd := r, cvu := u } = f s) : f t = f s :=
  (congrArg f h).trans (same ..)

theorem loadRec_cal (u n : Nat) (r : CalRec) (bad : Bool) : CalOnly s (s.loadRec u n r bad) := by
  unfold State.loadRec
  dsimp only
  generalize hr : (if bad = true then { r with crc := r.crc ^^^ 1 } else r : CalRec) = r1
  have checked := CalOnly.of_recorded (checkWith_recorded s u 3#2 r.bytes r1.crc)
  generalize s.checkWith u 3#2 r.bytes r1.crc = c at checked ⊢
  have stored (t : Tab CalRec) : CalOnly c.1 { c.1 with nv := { c.1.nv with cal := t } } := rfl
  split
  · exact checked.trans (stored _)
  · exact (checked.trans (stored _)).trans (.of_recorded (record_recorded ..))

theorem loadCal_cal (bad : List Nat) : CalOnly s (s.loadCal bad) := by
  unfold State.loadCal
  generalize s.nv.cal = l
  induction l generalizing s with
  | nil => exact .of_recorded (.refl s)
  | cons e l ih => exact (loadRec_cal s _ e.1 e.2 _).trans (ih _)

/-! ### The step -/

/-- A link whose endpoint or whose units fail is FAULTY. -/
def State.judgeEnd (s : State) (o : StartOutcome) (q : Side) : State :=
  let unit := (s.unit (12 + 2 * sideNat q)).failed || (s.unit (13 + 2 * sideNat q)).failed
  if o.linksBad.contains q || unit then s.judgeFaulty q else s

/-- What is found of a link endpoint as the field side starts. -/
def State.endLink (s : State) (o : StartOutcome) (q : Side) : State :=
  (if s.isRetired (10 + sideNat q) then s.setLink q { s.link q with retired := true } else s).judgeEnd o q

theorem judgeEnd_outer (q : Side) : (s.judgeEnd o q).outer = s.outer := by
  unfold State.judgeEnd
  dsimp only
  split
  · exact (judgeFaulty_judged s).outer
  · rfl

theorem endLink_outer (q : Side) : (s.endLink o q).outer = s.outer := by
  refine (judgeEnd_outer _ o q).trans ?_
  split
  · exact (setLink_judged ..).outer
  · rfl

/-- The field side with its rail up, its inputs, units and calibration judged. -/
def State.fieldRail (s : State) (o : StartOutcome) : State :=
  let s1 := s.powerUp 7 o.regBad
  ((({ s1 with lgc := { s1.lgc with inBad := o.inBad } } : State).failUnits [12, 13, 14, 15] o).loadCal o.calBad)

/-- RESULT 5 where neither sequencer is in service. -/
def State.judgeSeqs (s : State) : State :=
  let out := s.fsCode .a != 0 && s.fsCode .b != 0
  if out && s.pwr.result == 0 then s.withResult 5 else s

theorem step6_eq : s.step6 o =
    let t := ((((if (s.fieldRail o).powered 7 then (s.fieldRail o).startField 0 o else s.fieldRail o).endLink o
      .a).endLink o .b).judgeSeqs)
    if t.pwr.result = 1 ∨ t.pwr.result = 2 then (t.measureStore o).endStart else (t.toStep 7).openLink o := rfl

theorem judgeSeqs_result (result : s.pwr.result = 0) :
    ∃ n, n ≠ 1 ∧ n ≠ 2 ∧ s.judgeSeqs = s.withResult n := by
  unfold State.judgeSeqs
  dsimp only
  split
  · exact ⟨5, by decide, by decide, rfl⟩
  · refine ⟨0, by decide, by decide, ?_⟩
    rw [← result]
    rfl

/-- The field side and the links, where the field side passes. -/
theorem step6_of (up : (s.fieldRail o).powered 7 = true) {u : State}
    (field : (((s.fieldRail o).startField 0 o).endLink o .a).endLink o .b = u) (result : u.pwr.result = 0) :
    ∃ n, s.step6 o = ((u.withResult n).toStep 7).openLink o := by
  obtain ⟨n, not1, not2, marked⟩ := judgeSeqs_result u result
  refine ⟨n, ?_⟩
  rw [step6_eq, if_pos up, field, marked]
  exact if_neg (not_or.2 ⟨not1, not2⟩)

variable {s o}

theorem step6_starts (regBad : o.regBad = []) (sound : o.cvuBad = []) (ok : Tab.ok .ready s.pwr.doms = true)
    (result : s.pwr.result = 0) (fsBad : o.fsBad = []) (fxBad : o.fxBad = false) (usableA : s.isRetired 12 = false)
    (usableB : s.isRetired 13 = false) : (s.step6 o).pwr.step = 7 ∧ ((s.step6 o).dom 6).st = .on ∧
      ((s.step6 o).dom 7).st = .on ∧ (s.step6 o).fld.seqA.st = .alive ∧ (s.step6 o).fld.seqB.st = .alive := by
  have rail := powerUp_good s 7 regBad
  obtain ⟨ok7, on7, -⟩ := dom_powerUp s 7 regBad ok
  have cal : CalOnly { s.powerUp 7 o.regBad with lgc := { (s.powerUp 7 o.regBad).lgc with inBad := o.inBad } }
      (s.fieldRail o) := by
    unfold State.fieldRail
    dsimp only
    rw [failUnits_none sound]
    exact loadCal_cal ..
  have pwr : (s.fieldRail o).pwr = (s.powerUp 7 o.regBad).pwr := cal.congr State.pwr fun _ _ _ => rfl
  have retired (b : Nat) : (s.fieldRail o).isRetired b = s.isRetired b :=
    (cal.congr (·.isRetired b) fun _ _ _ => rfl).trans (by rw [rail]; rfl)
  have up : (s.fieldRail o).powered 7 = true := powered_of_on _ ((congrArg Domain.st (dom_of_pwr pwr 7)).trans on7)
  obtain ⟨pwrF, seqA, seqB, -, -⟩ := startField_starts (s.fieldRail o) 0 o fsBad fxBad
  have seqA := seqA ((retired 12).trans usableA)
  have seqB := seqB ((retired 13).trans usableB)
  have ended : ((((s.fieldRail o).startField 0 o).endLink o .a).endLink o .b).outer =
      ((s.fieldRail o).startField 0 o).outer := (endLink_outer _ o .b).trans (endLink_outer _ o .a)
  generalize hu : (((s.fieldRail o).startField 0 o).endLink o .a).endLink o .b = u at ended
  have fldU : u.fld = ((s.fieldRail o).startField 0 o).fld := congrArg Prod.fst ended
  have pwrU : u.pwr = (s.powerUp 7 o.regBad).pwr := (congrArg Prod.snd ended :).trans (pwrF.trans pwr)
  have resultU : u.pwr.result = 0 := by
    rw [pwrU, rail]
    exact result
  obtain ⟨n, done⟩ := step6_of s o up hu resultU
  have outer : (s.step6 o).outer = (((u.withResult n).toStep 7).powerUp 6 o.regBad).outer :=
    done ▸ openLink_outer _ o sound
  have okU : Tab.ok .ready ((u.withResult n).toStep 7).pwr.doms = true := by
    rw [← pwrU] at ok7
    exact ok7
  obtain ⟨-, on6, others⟩ := dom_powerUp ((u.withResult n).toStep 7) 6 regBad okU
  have rail6 := powerUp_good ((u.withResult n).toStep 7) 6 regBad
  have fld : (s.step6 o).fld = u.fld := (congrArg Prod.fst outer).trans (by rw [rail6]; rfl)
  have pwr6 : (s.step6 o).pwr = (((u.withResult n).toStep 7).powerUp 6 o.regBad).pwr := congrArg Prod.snd outer
  refine ⟨?_, ?_, ?_, ?_, ?_⟩
  · rw [pwr6, rail6]
    rfl
  · rw [dom_of_pwr pwr6, on6]
  · have dom7 : ((u.withResult n).toStep 7).dom 7 = (s.powerUp 7 o.regBad).dom 7 :=
      (dom_of_pwr pwrU 7 :)
    rw [dom_of_pwr pwr6, others 7 (by decide), dom7, on7]
  · rw [fld, fldU, seqA]
  · rw [fld, fldU, seqB]

end

end Sys2Proof.Machine

/-! The operating time, the store, and the whole of start-up (R261, R262, R268 to R271, R243 to R245). -/

namespace Sys2Proof.Machine

section
variable {s : State} (live : s.alive = true)
include live

theorem execHoldupMeasurement_good {ms : Nat} (on : s.pwr.off = false) (due : s.pwr.holdupAt + 86400 ≤ s.pwr.opsec)
    (good : 400 ≤ ms) : execHoldupMeasurement ms s = .next { s with pwr := { s.pwr with
      holdup := ms, weak := false, holdupAt := s.pwr.opsec } } := by
  have full : decide (ms < 400) = false := decide_eq_false (Nat.not_lt.2 good)
  simp [execHoldupMeasurement, live, on, Nat.not_lt.2 due, full]

theorem execCharged_on (on : s.pwr.off = false) :
    execCharged s = .next { s with pwr := { s.pwr with charged := true } } := by
  simp [execCharged, live, on]

section
variable (due : s.pwr.opTick + 200000000 ≤ s.now)
include due

theorem execOperatingSecond_counts (supplied : s.supplyOk .a = true ∨ s.supplyOk .b = true) :
    let n := (s.pwr.opsec + 1) % 2 ^ 32
    execOperatingSecond s = .next { s with
      pwr := { s.pwr with opsec := n, opTick := s.pwr.opTick + 200000000 }
      nv := { s.nv with opsec := if n % 60 = 0 then n else s.nv.opsec } } := by
  have fed : ¬(!s.supplyOk .a && !s.supplyOk .b) = true := by
    rcases supplied with a | b
    · simp [a]
    · simp [b]
  have runs : ¬(!s.alive || decide (s.now < s.pwr.opTick + 200000000)) = true := by
    simp [live, Nat.not_lt.2 due]
  intro n
  refine congrArg Host.Outcome.next ((if_neg runs).trans ((if_neg fed).trans ?_))
  by_cases minute : n % 60 = 0
  · rw [if_pos minute, if_pos minute]
  · rw [if_neg minute, if_neg minute]

theorem execOperatingSecond_marks (a : s.supplyOk .a = false) (b : s.supplyOk .b = false) :
    execOperatingSecond s = .next { s with pwr := { s.pwr with opTick := s.now } } := by
  simp [execOperatingSecond, live, Nat.not_lt.2 due, a, b]

end

end

theorem chargeUnits_none {s : State} (none : ∀ k, k < 19 → (s.unit k).due = false) : s.chargeUnits = s := by
  have idle (l : List Nat) (low : ∀ u ∈ l, u < 19) :
      l.foldl (fun acc u => if (acc.unit u).due then (acc.charged u).chargeUnit u else acc) s = s := by
    induction l with
    | nil => rfl
    | cons u l ih =>
      rw [List.foldl_cons, if_neg (by simp [none u (low u List.mem_cons_self)])]
      exact ih fun v hv => low v (List.mem_cons_of_mem u hv)
  exact idle (List.range 19) fun u hu => List.mem_range.1 hu

/-- Before the end of start-up the device is STARTING. -/
theorem devState_starting {s : State} (starting : s.pwr.step < 9) (l : List FnShow) (n : Nat) : s.devState l n = 0 :=
  if_pos starting

/-- Without image, sequencer or timebase the device is SAFE. -/
theorem devState_safe {s : State} (ended : 9 ≤ s.pwr.step) (safe : s.pwr.off = true ∨ s.cfg.image = none ∨
    s.seqsIn = 0 ∨ s.pwr.osc.stopped = true) (l : List FnShow) (n : Nat) : s.devState l n = 4 := by
  have out : (s.pwr.off || s.cfg.image.isNone || s.seqsIn == 0 || s.pwr.osc.stopped) = true := by
    simpa [or_assoc] using safe
  exact (if_neg (Nat.not_lt.2 ended)).trans (if_pos out)

theorem worstShown_eq (s : State) : s.worstShown =
    ((s.showAll.filter fun x => decide (x.2.1 < 2)).map fun x => x.2.2.istate).foldl max 1 := by
  unfold State.worstShown
  rw [List.map_map]
  rfl

/-- What the functions and the device show once they are judged. -/
theorem recomputeServices_shows (u : State) (once : (u.showAll.map Prod.fst).Nodup)
    (ok : Tab.ok FnShow.none u.svc.fns = true) :
    let worst := ((u.showAll.filter fun x => decide (x.2.1 < 2)).map fun x => x.2.2.istate).foldl max 1
    let t := u.recomputeServices
    t = { u with svc := t.svc, rcd := t.rcd, cvu := t.cvu } ∧
      (∀ x ∈ u.showAll, Tab.get FnShow.none t.svc.fns x.1 = x.2.2) ∧
      t.svc.istate = (if u.consumed = [] then worst else max worst 2) ∧ (u.pwr.step < 9 → t.svc.state = 0) ∧
      (9 ≤ u.pwr.step → u.pwr.off = true ∨ u.cfg.image = none ∨ u.seqsIn = 0 ∨ u.pwr.osc.stopped = true →
        t.svc.state = 4) := by
  have judged := recomputeServices_recomputes u
  obtain ⟨fns, state⟩ := judged.state
  refine ⟨judged.only.rest, judged.fns once ok, judged.istate.trans ?_, fun starting => ?_, fun past safe => ?_⟩
  · rw [State.judgedIstate, worstShown_eq]
  · exact state.trans (devState_starting starting ..)
  · exact state.trans (devState_safe past safe ..)

theorem execStateRecompute_judges {s : State} (live : s.alive = true) :
    execStateRecompute s = .next s.chargeUnits.autoJoin.recomputeServices :=
  congrArg Host.Outcome.next (if_pos live)

end Sys2Proof.Machine

/-! STARTUP_STEP (R268 to R271) and what counts the operating time (R261, R262). -/

namespace Sys2Proof.Machine

section
variable {s : State} (live : s.alive = true) (on : s.pwr.off = false) (o : StartOutcome)
include live on

/-- The fuses are sensed, and RESULT tells an item that fails. -/
theorem execStartupStep_senses (step : s.pwr.step = 2) : ∃ t, execStartupStep o s = .next t ∧ t.pwr.step = 3 ∧
    Sensed o.plost s { t with pwr := s.pwr } ∧ (s.pwr.result = 0 → (t.pwr.result = 1 ↔
      t.fus.uidFail = true ∨ t.fus.trimFail = true ∨ t.fus.keysFail = true)) := by
  have sensed := fuseSense_senses s o.plost
  have run {t : State} := execStartupStep_of live on o step (t := t)
  generalize hbad : ((s.fuseSense o.plost).fus.uidFail || (s.fuseSense o.plost).fus.trimFail ||
    (s.fuseSense o.plost).fus.keysFail) = bad
  have fails : bad = true ↔ (s.fuseSense o.plost).fus.uidFail = true ∨ (s.fuseSense o.plost).fus.trimFail = true ∨
      (s.fuseSense o.plost).fus.keysFail = true := by
    rw [← hbad]
    simp [or_assoc]
  have run := run (t := (if bad && (s.fuseSense o.plost).pwr.result == 0
      then (s.fuseSense o.plost).withResult 1 else s.fuseSense o.plost).toStep 3) (by
    rw [← hbad]
    unfold State.startStep
    simp only)
  generalize s.fuseSense o.plost = t at sensed run fails
  have shown {u : State} (fus : u.fus = t.fus) : Sensed o.plost s { u with pwr := s.pwr } := by
    have words (k : Nat) : ({ u with pwr := s.pwr } : State).fuseWord k = t.fuseWord k := by
      rw [State.fuseWord, State.fuseWord, ← fus]
    exact ⟨rfl, (congrArg Fus.plost fus).trans sensed.plost, fun k hk => (words k).symm ▸ sensed.rows k hk,
      fun none inside k hk => (words k).trans (sensed.same none inside k hk),
      fun kept x hx low => (words _).symm ▸ sensed.blows kept x hx low⟩
  refine ⟨_, run, rfl, shown ?_, fun result => ?_⟩
  · split <;> rfl
  · have zero : t.pwr.result = 0 := (congrArg Pwr.result sensed.pwr).trans result
    cases bad with
    | false =>
      exact ⟨fun one => absurd (zero.symm.trans one) (by decide), fun some => absurd (fails.2 some) (by decide)⟩
    | true =>
      rw [zero]
      exact ⟨fun _ => fails.1 rfl, fun _ => rfl⟩

/-- The active slot is judged: its image starts, or RESULT tells why none does. -/
theorem execStartupStep_image (step : s.pwr.step = 5) : let u := s.startable.1
    u = { s with cvu := u.cvu, rcd := u.rcd } ∧
      (s.startable.2 = none → execStartupStep o s = .next { u with pwr := { s.pwr with
        result := 3, step := 6, stepAt := s.tb } }) ∧
      (∀ m, s.startable.2 = some m →
        (s.cfg.sealNow ≠ 0 → s.cfg.sealNow ≠ m.hdr.sealCode → execStartupStep o s =
          .next { u with pwr := { s.pwr with result := 4, step := 6, stepAt := s.tb } }) ∧
        (s.cfg.sealNow = 0 ∨ s.cfg.sealNow = m.hdr.sealCode → s.cfg.staged = none →
          Tab.ok .empty s.nv.slots = true →
          ∃ t, execStartupStep o s = .next t ∧ t.pwr.step = 6 ∧ t.cfg.image = some m ∧
            t.cfg.slot = s.nv.active ∧ (t.slot s.nv.active).st = .running)) := by
  have run : execStartupStep o s = .next (s.startImage.toStep 6) :=
    execStartupStep_of live on o step (startStep_five s o)
  have noted := startable_recorded s
  have pwr : s.startable.1.pwr = s.pwr := pwr_of_recorded noted
  have tb : s.startable.1.tb = s.tb := noted.congr State.tb fun _ _ => rfl
  have cfg : s.startable.1.cfg = s.cfg := noted.congr State.cfg fun _ _ => rfl
  have nv : s.startable.1.nv = s.nv := noted.congr State.nv fun _ _ => rfl
  have stopped {n : Nat} (h : s.startImage = { s.startable.1 with pwr := { s.startable.1.pwr with result := n } }) :
      execStartupStep o s = .next { s.startable.1 with pwr := { s.pwr with
        result := n, step := 6, stepAt := s.tb } } := by
    rw [run, h, ← pwr, ← tb]
    rfl
  refine ⟨noted, fun none => stopped (startImage_none s none), fun m found => ⟨fun sealed other => ?_,
    fun open_ idle ok => ?_⟩⟩
  · exact stopped (startImage_sealed s found (cfg.symm ▸ sealed) (cfg.symm ▸ other))
  · obtain ⟨image, slot, running⟩ := placeImage_places s.startable.1 m (cfg.symm ▸ idle) (nv.symm ▸ ok)
    rw [nv] at slot running
    rw [startImage_starts s found (cfg.symm ▸ open_)] at run
    generalize s.startable.1.placeImage m = t at run image slot running
    exact ⟨_, run, rfl, image, slot, running⟩

end

/-! ### The last steps -/

section
variable {s : State} (o : StartOutcome)

theorem step7_discovering (waits : s.discovered = false) : s.step7 o = s := by
  unfold State.step7
  rw [waits]
  exact if_pos rfl

theorem step7_discovered (found : s.discovered = true) : s.step7 o =
    if s.cfg.image.isNone then (s.measureStore o).endStart else (s.measureStore o).toStep 8 := by
  unfold State.step7
  rw [found]
  exact if_neg Bool.false_ne_true

theorem step7_none (found : s.discovered = true) (image : s.cfg.image = none) :
    s.step7 o = (s.measureStore o).endStart :=
  (step7_discovered o found).trans (if_pos (by rw [image]; rfl))

theorem step7_some (found : s.discovered = true) (image : s.cfg.image ≠ none) :
    s.step7 o = (s.measureStore o).toStep 8 :=
  (step7_discovered o found).trans (if_neg (by rwa [Option.isNone_iff_eq_none]))

theorem step8_waiting (waits : s.willRun = true) : s.step8 o = s := if_pos waits

theorem step8_idle (idle : s.willRun = false) : s.step8 o = (s.measureStore o).endStart :=
  if_neg (Bool.eq_false_iff.1 idle)

end

/-- Settles O47: each STARTUP_STEP is the step of Table 12.3 that the power block names, and the services are judged
by one pass over their functions. -/
theorem startUpAndOperatingTime : Obligations.StartUpAndOperatingTime := by
  unfold Obligations.StartUpAndOperatingTime
  intro s live
  refine ⟨fun on o => ?_, fun ms on due good => execHoldupMeasurement_good live on due good,
    fun on => execCharged_on live on, fun due => ⟨fun supplied => execOperatingSecond_counts live due supplied,
      fun a b => execOperatingSecond_marks live due a b⟩, chargeUnits_none, ?_⟩
  · have run {n : Nat} {t : State} (step : s.pwr.step = n) (next : s.startStep o n = t) :
        exec (.startupStep o) s = .next t := execStartupStep_of live on o step next
    intro ended good
    refine ⟨fun step ⟨regBad, sound, ok⟩ oscBad => ?_, fun step => ?_,
      fun step ⟨regBad, sound, ok⟩ ppBad result fuses porch => ?_,
      fun step ⟨regBad, sound, ok⟩ rooms fixed eng cmp ckm _ out empty idle some2 some3 on4 on5 okr oke => ?_,
      fun step => execStartupStep_image live on o step,
      fun step ⟨regBad, sound, ok⟩ result fsBad fxBad _ usable _ => ?_, fun step => ?_, fun step => ?_,
      fun step => run step (startStep_nine s o)⟩
    · exact ⟨_, run step (startStep_one s o), step1_starts s regBad sound oscBad ok⟩
    · obtain ⟨t, run, third, sensed, result⟩ := execStartupStep_senses live on o step
      refine ⟨t, run, third, sensed.plost, fun k hk => ⟨sensed.rows k hk, fun none inside => ?_⟩, sensed.blows, result⟩
      exact sensed.same none inside k hk
    · exact ⟨_, run step (startStep_three s o), step3_starts s regBad sound ppBad ok result fuses porch⟩
    · exact ⟨_, run step (startStep_four s o), step4_starts ⟨sound, rooms, fixed, eng, cmp, ckm⟩ ok regBad empty idle
        out some2 some3 on4 on5 okr oke⟩
    · exact ⟨_, run step (startStep_six s o), step6_starts regBad sound ok result fsBad fxBad
        (usable 12 (by decide) (by decide)) (usable 13 (by decide) (by decide))⟩
    · have next {t : State} (h : s.step7 o = t) : s.startStep o 7 = t := (startStep_seven s o).trans h
      exact ⟨fun waits => run step (next (step7_discovering o waits)),
        fun found image => ⟨_, run step (next (step7_none o found image)), measured_ends s o⟩,
        fun found image => run step (next (step7_some o found image))⟩
    · have next {t : State} (h : s.step8 o = t) : s.startStep o 8 = t := (startStep_eight s o).trans h
      exact ⟨fun waits => run step (next (step8_waiting o waits)),
        fun idle => ⟨_, run step (next (step8_idle o idle)), measured_ends s o⟩⟩
  · intro u worst once ok
    have run : exec .stateRecompute s = .next u.recomputeServices := execStateRecompute_judges live
    refine ⟨u.recomputeServices, run, ?_⟩
    clear_value u
    exact recomputeServices_shows u once ok

end Sys2Proof.Machine

/-! The timers as their owner and the device see them (R280 to R293): what is due is taken before a write or a read of
the tick, and a write reaches one timer. -/

namespace Sys2Proof.Machine

/-! ### One timer of the table -/

section
variable {s t u : State} {n : Nat}

theorem timer_setTimer (ok : Tab.ok .unused s.tmr.timers = true) (n k : Nat) (v : Timer) :
    (s.setTimer n v).timer k = if k = n then v else s.timer k := Tab.get_set ok n k v

/-- Timer `n` takes the value `v`; beside timers and the marks of flags nothing else changes. -/
structure Retimed (s t : State) (n : Nat) (v : Timer) : Prop where
  ok     : Tab.ok .unused t.tmr.timers = true
  own    : t.timer n = v
  others : ∀ j, j ≠ n → t.timer j = s.timer j
  rest   : t = { s with flagSet := t.flagSet, tmr := { s.tmr with timers := t.tmr.timers } }

theorem Retimed.setTimer (ok : Tab.ok .unused s.tmr.timers = true) (n : Nat) (v : Timer) :
    Retimed s (s.setTimer n v) n v :=
  ⟨Tab.ok_set n v ok, (timer_setTimer ok n n v).trans (if_pos rfl),
    fun j other => (timer_setTimer ok n j v).trans (if_neg other), rfl⟩

theorem Retimed.trans {v w : Timer} (h : Retimed s t n v) (k : Retimed t u n w) : Retimed s u n w := by
  refine ⟨k.ok, k.own, fun j other => (k.others j other).trans (h.others j other), k.rest.trans ?_⟩
  exact congrArg (fun a : State => { a with flagSet := u.flagSet, tmr := { a.tmr with timers := u.tmr.timers } }) h.rest

theorem Retimed.noteFlag {v : Timer} (h : Retimed s t n v) (k : Nat) : Retimed s (t.noteFlag k) n v :=
  ⟨h.ok, h.own, h.others, congrArg (fun a : State => { a with flagSet := (t.noteFlag k).flagSet }) h.rest⟩

theorem Retimed.updTimer {v : Timer} (h : Retimed s t n v) (f : Timer → Timer) : Retimed s (t.updTimer n f) n (f v) :=
  h.own ▸ h.trans (.setTimer h.ok n _)

theorem Retimed.updTimer_self (ok : Tab.ok .unused s.tmr.timers = true) (n : Nat) (f : Timer → Timer) :
    Retimed s (s.updTimer n f) n (f (s.timer n)) := .setTimer ok n _

theorem Retimed.tb {v : Timer} (h : Retimed s t n v) : t.tb = s.tb := by rw [h.rest]

theorem Retimed.pwr {v : Timer} (h : Retimed s t n v) : t.pwr = s.pwr := by rw [h.rest]

/-! ### A timer that stands alone (R286) -/

theorem linked_of_casc (h : (s.timer (n + 1)).casc = false) : s.linked n = false := by
  rw [State.linked, h, Bool.false_and]

theorem chainLow_of_alone (h : Alone s n) : s.chainLow n = n := by
  obtain ⟨-, own, -⟩ := h
  cases n with
  | zero => rfl
  | succ n => exact if_neg (Bool.eq_false_iff.1 (linked_of_casc own))

theorem chain_of_alone (h : Alone s n) : s.chain n = [n] := by
  have ⟨_, _, upper⟩ := h
  have above (k : Nat) (hk : k ≤ 63 - n) : s.chainAbove n k = [] := by
    cases k with
    | zero => rfl
    | succ k => exact if_neg (Bool.eq_false_iff.1 (linked_of_casc (upper (by omega))))
  rw [State.chain, chainLow_of_alone h, above _ le_rfl]

theorem isLower_of_alone (h : Alone s n) : s.isLower n = false := by
  obtain ⟨-, -, upper⟩ := h
  rw [State.isLower, Bool.and_eq_false_imp]
  exact fun below => linked_of_casc (upper (of_decide_eq_true below))

theorem onChain_of_alone (h : Alone s n) (f : Timer → Timer) : s.onChain n f = s.updTimer n f := by
  rw [State.onChain, if_pos (chainLow_of_alone h), chain_of_alone h]
  rfl

theorem alone_of_retimed {v : Timer} (h : Alone s n) (k : Retimed s t n v)
    (casc : v.casc = (s.timer n).casc) : Alone t n := by
  obtain ⟨low, own, above⟩ := h
  refine ⟨low, by rw [k.own, casc, own], fun hn => ?_⟩
  rw [k.others _ (Nat.succ_ne_self n), above hn]

end

/-! ### Counting and firing (R280, R282 to R284) -/

/-- A timer at its end (R283). -/
def Timer.ended (t : Timer) (now : Nat) : Timer :=
  { t with st := .done, late := false, endAt := some now, endDue := true }

/-- A timer as it starts to run (R282). -/
def Timer.started (t : Timer) : Timer := ({ t with st := .running, phase := 0, latched := false }.newRun).due

/-- A released timer: a period of 0 ends it at once (R283). -/
def Timer.released (t : Timer) (now : Nat) : Timer := if t.period = 0 then t.started.ended now else t.started

/-- A timer that stands alone at its next count (R283). -/
def Timer.counted (t : Timer) (now : Nat) : Timer :=
  if t.count + 1 = t.period then { t with count := t.count + 1 }.due.ended now else { t with count := t.count + 1 }.due

/-- A running timer that stands alone one tick later (R280). -/
def Timer.ticked (t : Timer) (now : Nat) : Timer :=
  if t.phase + 1 < t.presc then { t with phase := t.phase + 1 }.due else { t with phase := 0 }.counted now

section
variable (t : Timer)

/-- What fires changes nothing of a timer but the marks of its compares. -/
theorem Timer.due_eq : t.due = { t with
    cmpDue0 := t.due.cmpDue0, cmpDue1 := t.due.cmpDue1, fired0 := t.due.fired0, fired1 := t.due.fired1 } := by
  unfold Timer.due
  split <;> rfl

@[simp] theorem Timer.due_cfg : t.due.cfg = t.cfg := (congrArg Timer.cfg t.due_eq :)

@[simp] theorem Timer.due_period : t.due.period = t.period := (congrArg Timer.period t.due_eq :)

@[simp] theorem Timer.due_st : t.due.st = t.st := (congrArg Timer.st t.due_eq :)

@[simp] theorem Timer.due_count : t.due.count = t.count := (congrArg Timer.count t.due_eq :)

@[simp] theorem Timer.due_phase : t.due.phase = t.phase := (congrArg Timer.phase t.due_eq :)

@[simp] theorem Timer.due_endDue : t.due.endDue = t.endDue := (congrArg Timer.endDue t.due_eq :)

theorem Timer.started_count : t.started.count = 0 := Timer.due_count _

theorem Timer.started_period : t.started.period = t.period := Timer.due_period _

theorem Timer.started_st : t.started.st = .running := Timer.due_st _

theorem Timer.started_casc : t.started.casc = t.casc := congrArg (bitOf · 17) (Timer.due_cfg _)

theorem Timer.released_count (now : Nat) : (t.released now).count = 0 := by
  unfold Timer.released
  split
  · exact t.started_count
  · exact t.started_count

theorem Timer.released_period (now : Nat) : (t.released now).period = t.period := by
  unfold Timer.released
  split
  · exact t.started_period
  · exact t.started_period

/-- R283: a period of 0 ends the run at its release. -/
theorem Timer.released_st (now : Nat) : if t.period = 0 then
    (t.released now).st = .done ∧ (t.released now).endDue = true else (t.released now).st = .running := by
  unfold Timer.released
  split
  · exact ⟨rfl, rfl⟩
  · exact t.started_st

end

/-! ### What the shared operations do to a timer alone -/

section
variable {s : State} {n : Nat} (ok : Tab.ok .unused s.tmr.timers = true) (alone : Alone s n)
include ok alone

theorem endStop_retimed : Retimed s (s.endStop n) n ((s.timer n).ended s.tb) := by
  rw [State.endStop, chain_of_alone alone]
  have stopped := Retimed.updTimer_self ok n fun x => { x with st := .done, late := false, endAt := some s.tb }
  exact stopped.updTimer fun t => { t with endDue := true }

theorem releaseTimer_retimed : Retimed s (s.releaseTimer n) n ((s.timer n).released s.tb) := by
  have started := Retimed.updTimer_self ok n Timer.started
  have run : s.releaseTimer n = if ((s.updTimer n Timer.started).timer n).period = 0
      then (s.updTimer n Timer.started).endStop n else s.updTimer n Timer.started := by
    rw [State.releaseTimer, chain_of_alone alone]
    rfl
  rw [run, started.own, Timer.started_period, Timer.released]
  split
  · have ended := endStop_retimed started.ok (alone_of_retimed alone started (Timer.started_casc _))
    rw [started.own, started.tb] at ended
    exact started.trans ended
  · exact started

theorem onChain_retimed (f : Timer → Timer) : Retimed s (s.onChain n f) n (f (s.timer n)) :=
  onChain_of_alone alone f ▸ .updTimer_self ok n f

theorem count1_retimed (prompt : (s.timer n).late = false) (k : Nat) :
    Retimed s (s.count1 n (k + 1)) n ((s.timer n).counted s.tb) := by
  have counted := Retimed.setTimer ok n { s.timer n with count := (s.timer n).count + 1 }.due
  generalize hv : { s.timer n with count := (s.timer n).count + 1 }.due = v at counted
  have run : s.count1 n (k + 1) = if v.count = v.period then (s.setTimer n v).endStop n else s.setTimer n v := by
    subst hv
    exact (if_neg (Bool.eq_false_iff.1 (isLower_of_alone alone))).trans (if_neg (Bool.eq_false_iff.1 prompt))
  have result : (s.timer n).counted s.tb = if v.count = v.period then v.ended s.tb else v := by
    rw [← hv, Timer.due_count, Timer.due_period]
    rfl
  rw [run, result]
  split
  · have casc : v.casc = (s.timer n).casc := by rw [Timer.casc, ← hv, Timer.due_cfg]; rfl
    have ended := endStop_retimed counted.ok (alone_of_retimed alone counted casc)
    rw [counted.own, counted.tb] at ended
    exact counted.trans ended
  · exact counted

theorem stepTimer_retimed (idle : (s.timer n).latched = false) (runs : (s.timer n).st = .running)
    (thawed : s.frozen n = false) (prompt : (s.timer n).late = false) :
    Retimed s (s.stepTimer n) n ((s.timer n).ticked s.tb) := by
  have counting : ¬(decide ((s.timer n).st ≠ .running) || s.frozen n) = true := by simp [runs, thawed]
  have lowest : ¬(decide (0 < n) && s.linked (n - 1)) = true := by
    have ⟨_, single, _⟩ := alone
    cases n with
    | zero => exact Bool.false_ne_true
    | succ m => simp [linked_of_casc single]
  have run : s.stepTimer n = if (s.timer n).phase + 1 < (s.timer n).presc
      then s.setTimer n { s.timer n with phase := (s.timer n).phase + 1 }.due
      else (s.setTimer n { s.timer n with phase := 0 }).count1 n 64 :=
    (if_neg (Bool.eq_false_iff.1 idle)).trans <| (if_neg counting).trans <|
      (if_neg (Bool.eq_false_iff.1 prompt)).trans (if_neg lowest)
  rw [run, Timer.ticked]
  split
  · exact .setTimer ok n _
  · have rewound := Retimed.setTimer ok n { s.timer n with phase := 0 }
    have counted := count1_retimed rewound.ok (alone_of_retimed alone rewound rfl)
      ((congrArg Timer.late rewound.own).trans prompt) 63
    rw [rewound.own, rewound.tb] at counted
    exact rewound.trans counted

end

/-! ### What the taking of due events keeps (R282, R283, R289) -/

/-- A timer apart from what a capture puts into it. -/
def Timer.sansQueue (t : Timer) : Timer := { t with queue := [], capovf := false, capStamp := none }

/-- The latches of the readers stay, and of every timer what `view` shows. -/
structure TimersKeep {β : Type} (view : Timer → β) (s t : State) : Prop where
  readers : t.tmr.readers = s.tmr.readers
  timers  : Tab.ok .unused s.tmr.timers = true →
    Tab.ok .unused t.tmr.timers = true ∧ ∀ k, view (t.timer k) = view (s.timer k)

section
variable {β : Type} {view : Timer → β} {s t u : State}

theorem TimersKeep.of_tmr (h : t.tmr = s.tmr) : TimersKeep view s t := by
  refine ⟨by rw [h], fun ok => ⟨by rwa [h], fun k => ?_⟩⟩
  rw [State.timer, h, State.timer]

theorem TimersKeep.trans (h : TimersKeep view s t) (k : TimersKeep view t u) : TimersKeep view s u := by
  refine ⟨k.readers.trans h.readers, fun ok => ?_⟩
  obtain ⟨okt, seen⟩ := h.timers ok
  obtain ⟨oku, after⟩ := k.timers okt
  exact ⟨oku, fun j => (after j).trans (seen j)⟩

theorem TimersKeep.foldl {α : Type} {f : State → α → State} (h : ∀ a x, TimersKeep view a (f a x)) (l : List α)
    (s : State) : TimersKeep view s (l.foldl f s) := by
  induction l generalizing s with
  | nil => exact .of_tmr rfl
  | cons x l ih => exact (h s x).trans (ih _)

theorem TimersKeep.ite {c : Prop} [Decidable c] (h : TimersKeep view s t) (k : TimersKeep view s u) :
    TimersKeep view s (if c then t else u) := by
  split
  · exact h
  · exact k

theorem TimersKeep.setTimer (s : State) {n : Nat} {v : Timer} (same : view v = view (s.timer n)) :
    TimersKeep view s (s.setTimer n v) := by
  refine ⟨rfl, fun ok => ⟨Tab.ok_set n v ok, fun k => ?_⟩⟩
  rw [timer_setTimer ok]
  split
  · next own => exact own ▸ same
  · rfl

theorem TimersKeep.noteFlag (h : TimersKeep view s t) (k : Nat) : TimersKeep view s (t.noteFlag k) :=
  h.trans (.of_tmr rfl)

/-- Who sees less of a timer sees it unchanged too. -/
theorem TimersKeep.coarser {γ : Type} (h : TimersKeep view s t) (f : β → γ) : TimersKeep (fun x => f (view x)) s t :=
  ⟨h.readers, fun ok => ⟨(h.timers ok).1, fun k => congrArg f ((h.timers ok).2 k)⟩⟩

end

section
variable (s : State)

theorem capture_keeps (n : Nat) : TimersKeep Timer.sansQueue s (s.capture n) := by
  unfold State.capture
  dsimp only
  split
  · split
    · exact .setTimer s rfl
    · refine .noteFlag ?_ _
      exact .setTimer s rfl
  · exact .of_tmr rfl

theorem captureFrom_keeps (k : Nat) (a e : Nat → Bool) (w : Timer → Bool) :
    TimersKeep Timer.sansQueue s (s.captureFrom k a e w) := by
  refine .foldl (fun t x => ?_) _ s
  exact .ite (capture_keeps t x.1) (.of_tmr rfl)

theorem triggerAll_tmr (k : Nat) (sel : ConvImg → Bool) : (s.triggerAll k sel).tmr = s.tmr := by
  have one (t : State) (c : Nat) : (t.cnvTrigger c).tmr = t.tmr := by
    unfold State.cnvTrigger
    dsimp only
    rw [apply_ite State.tmr]
    exact ite_self _
  refine foldl_view State.tmr (fun t x => ?_) _ s
  split
  · exact one t _
  · rfl

/-- R283: the end event of timer `n` is noted; beyond that it puts captures into timers at most. -/
theorem takeEnd_keeps (n : Nat) : TimersKeep Timer.sansQueue
    (s.setTimer n { s.timer n with endDue := false, ends := (s.timer n).ends + 1 }) (s.takeEnd n) := by
  unfold State.takeEnd
  dsimp only
  split
  · exact captureFrom_keeps ..
  · exact .trans (captureFrom_keeps ..) (.of_tmr (triggerAll_tmr ..))

theorem takeCompare_keeps (n : Nat) (one : Bool) :
    TimersKeep (fun t => (t.st, t.count)) s (s.takeCompare n one) := by
  refine .noteFlag (.setTimer s ?_) _
  cases one with
  | false => rfl
  | true => rfl

theorem takeDue_keeps (n : Nat) : TimersKeep (fun t => (t.st, t.count)) s (s.takeDue n) := by
  have first := TimersKeep.ite (c := (s.timer n).cmpDue0 = true) (takeCompare_keeps s n false) (.of_tmr rfl)
  unfold State.takeDue
  refine .ite (.of_tmr rfl) ?_
  generalize (if (s.timer n).cmpDue0 then s.takeCompare n false else s) = t at first ⊢
  have second := TimersKeep.ite (c := (t.timer n).cmpDue1 = true) (takeCompare_keeps t n true) (.of_tmr rfl)
  dsimp only
  generalize (if (t.timer n).cmpDue1 then t.takeCompare n true else t) = u at second ⊢
  have ended := (takeEnd_keeps u n).coarser fun t => (t.st, t.count)
  refine (first.trans second).trans (.ite (.trans ?_ ended) (.of_tmr rfl))
  exact .setTimer u rfl

theorem takeDues_keeps : TimersKeep (fun t => (t.st, t.count)) s s.takeDues := .foldl takeDue_keeps _ s

end

section
variable {s : State}

/-- Nothing is due in a timer. -/
def Timer.calm (t : Timer) : Prop := t.endDue = false ∧ t.cmpDue0 = false ∧ t.cmpDue1 = false

theorem takeDue_of_calm {n : Nat} (calm : (s.timer n).calm) : s.takeDue n = s := by
  obtain ⟨noEnd, no0, no1⟩ := calm
  rw [State.takeDue, no0]
  dsimp only
  rw [if_neg Bool.false_ne_true, no1, if_neg Bool.false_ne_true, noEnd, if_neg Bool.false_ne_true, ite_self]

theorem takeDues_of_calm (ok : Tab.ok .unused s.tmr.timers = true) (calm : ∀ x ∈ s.tmr.timers, x.2.calm) :
    s.takeDues = s := by
  have stays (l : List Nat) (h : ∀ n ∈ l, s.takeDue n = s) : l.foldl State.takeDue s = s := by
    induction l with
    | nil => rfl
    | cons n l ih =>
      rw [List.foldl_cons, h n List.mem_cons_self, ih fun k hk => h k (List.mem_cons_of_mem n hk)]
  refine stays _ fun n hn => takeDue_of_calm ?_
  obtain ⟨x, listed, rfl⟩ := List.mem_map.1 hn
  rw [State.timer, Tab.get_of_mem ok listed]
  exact calm x listed

end

/-! ### The owner's writes (R281, R282, R284, R285) -/

section
variable {s : State} {n : Nat} {w : Agent} (ok : Tab.ok .unused s.tmr.timers = true)
  (own : (s.timer n).owned w = true)
include own

theorem tmrStart_of_owned : s.tmrStart w n = s.startOne n := if_pos own

include ok

theorem tmrPop_retimed : Retimed s (s.tmrPop w n) n { s.timer n with queue := (s.timer n).queue.drop 1 } := by
  rw [State.tmrPop, if_pos own]
  exact .setTimer ok n _

theorem periodWrite_retimed (v : Word) : Retimed s (s.periodWrite w n v) n { s.timer n with
    period := v, late := decide ((s.timer n).st = .running) && decide (v ≤ (s.timer n).count) } := by
  rw [State.periodWrite, if_pos own]
  exact .setTimer ok n _

theorem compareWrite_retimed (one : Bool) (v : Word) : Retimed s (s.compareWrite w n one v) n
    (if one then { s.timer n with cmp1 := v } else { s.timer n with cmp0 := v }) := by
  rw [State.compareWrite, if_pos own]
  exact .setTimer ok n _

section
variable (thawed : s.frozen n = false) (runs : (s.timer n).st = .running) (fresh : (s.timer n).capStamp ≠ some s.tb)
include thawed runs fresh

omit ok in
theorem tmrCapsw_of_owned : s.tmrCapsw w n = if (s.timer n).queue.length < 4
    then s.setTimer n { s.timer n with queue := (s.timer n).queue ++ [(s.timer n).count], capStamp := some s.tb }
    else (s.setTimer n { s.timer n with capovf := true, capStamp := some s.tb }).noteFlag (timerFlag n 4) := by
  have takes : (((s.timer n).st == .running || ((s.timer n).st == .done && (s.timer n).endAt == some s.tb)) &&
      !s.frozen n && !((s.timer n).capStamp == some s.tb)) = true := by
    simp [thawed, runs, fresh]
  exact (if_pos own).trans (if_pos takes)

theorem tmrCapsw_appends (room : (s.timer n).queue.length < 4) : Retimed s (s.tmrCapsw w n) n
    { s.timer n with queue := (s.timer n).queue ++ [(s.timer n).count], capStamp := some s.tb } := by
  rw [tmrCapsw_of_owned own thawed runs fresh, if_pos room]
  exact .setTimer ok n _

theorem tmrCapsw_overflows (full : 4 ≤ (s.timer n).queue.length) :
    Retimed s (s.tmrCapsw w n) n { s.timer n with capovf := true, capStamp := some s.tb } := by
  rw [tmrCapsw_of_owned own thawed runs fresh, if_neg (by omega)]
  exact (Retimed.setTimer ok n _).noteFlag _

end

section
variable (alone : Alone s n)
include alone

theorem tmrArm_retimed : Retimed s (s.tmrArm w n) n (s.timer n).arm := by
  rw [State.tmrArm, if_pos own]
  exact onChain_retimed ok alone _

theorem tmrStop_retimed : Retimed s (s.tmrStop w n) n (s.timer n).toIdle := by
  rw [State.tmrStop, if_pos own]
  exact onChain_retimed ok alone _

theorem tmrStart_releases (armed : (s.timer n).st = .armed) :
    Retimed s (s.tmrStart w n) n ((s.timer n).released s.tb) := by
  rw [tmrStart_of_owned own, State.startOne, if_neg (not_not_intro (chainLow_of_alone alone)), if_pos armed]
  exact releaseTimer_retimed ok alone

theorem tmrStart_misses (other : (s.timer n).st ≠ .armed) :
    Retimed s (s.tmrStart w n) n { s.timer n with gomiss := true } := by
  rw [tmrStart_of_owned own, State.startOne, if_neg (not_not_intro (chainLow_of_alone alone)), if_neg other]
  exact (Retimed.setTimer ok n _).noteFlag _

end

end

/-- The two words of TMR_GO or TMR_SNAP name timers as one word of 64 bits does. -/
theorem getLsbD_words (lo hi : Word) (n : Nat) :
    (if n < 32 then lo.getLsbD n else hi.getLsbD (n - 32)) = (hi ++ lo).getLsbD n :=
  BitVec.getLsbD_append.symm

theorem tmrGo_eq (s : State) (w : Agent) (lo hi : Word) : s.tmrGo w lo hi =
    ((List.range 64).filter fun j => (hi ++ lo).getLsbD j).foldl (fun acc j => acc.tmrStart w j) s := by
  simp only [List.foldl_filter, State.tmrGo, getLsbD_words]

/-- A writer that does not own the timer changes nothing by a write to it. -/
theorem timerWrites_of_other {s : State} {w : Agent} {n : Nat} (other : (s.timer n).owned w = false) (one : Bool)
    (v : Word) : s.tmrArm w n = s ∧ s.tmrStart w n = s ∧ s.tmrStop w n = s ∧ s.tmrPop w n = s ∧ s.tmrCapsw w n = s ∧
      s.periodWrite w n v = s ∧ s.compareWrite w n one v = s := by
  have no : ¬(s.timer n).owned w = true := Bool.eq_false_iff.1 other
  exact ⟨if_neg no, if_neg no, if_neg no, if_neg no, if_neg no, if_neg no, if_neg no⟩

/-- Settles O40: each write is one update of one timer, after the events that were due. -/
theorem timerControl : Obligations.TimerControl := by
  unfold Obligations.TimerControl
  intro s0 w n live ok0 s t one
  have ok : Tab.ok .unused s.tmr.timers = true := ((takeDues_keeps s0).timers ok0).1
  have runs (c : State) : (.next (if s0.alive then c else s0) : Host.Outcome State Fault Refusal) = .next c :=
    next_of_alive live c
  have acts {c : Instr} {u : State} {v : Timer} {f : Timer → Prop} (run : exec c s0 = .next u)
      (h : Retimed s u n.val v) (shown : f v) : one c f := ⟨u, run, h.own ▸ shown, h.others, h.rest⟩
  clear_value one
  refine ⟨takeDues_of_calm ok0, fun own alone => ?owner, fun other v => ?foreign, fun lo hi => ?go⟩
  case owner =>
    refine ⟨acts (runs _) (tmrArm_retimed ok own alone) ⟨rfl, rfl, rfl, rfl, rfl⟩, fun armed => ?start,
      fun idle => ?miss, acts (runs _) (tmrStop_retimed ok own alone) ⟨rfl, rfl, rfl⟩,
      acts (runs _) (tmrPop_retimed ok own) rfl,
      fun thawed run fresh room => acts (runs _) (tmrCapsw_appends ok own thawed run fresh room) rfl,
      fun thawed run fresh full => acts (runs _) (tmrCapsw_overflows ok own thawed run fresh full) rfl,
      fun v => acts (runs _) (periodWrite_retimed ok own v) ⟨rfl, ?late⟩,
      fun v => ⟨acts (runs _) (compareWrite_retimed ok own false v) rfl,
        acts (runs _) (compareWrite_retimed ok own true v) rfl⟩⟩
    case start =>
      exact acts (runs _) (tmrStart_releases ok own alone armed)
        ⟨t.released_count _, t.released_period _, t.released_st _⟩
    case miss => exact acts (runs _) (tmrStart_misses ok own alone idle) rfl
    case late => simp [t]
  case foreign =>
    obtain ⟨arm, start, stop, pop, capsw, period, cmp0⟩ := timerWrites_of_other other false v
    obtain ⟨-, -, -, -, -, -, cmp1⟩ := timerWrites_of_other other true v
    have still {c : State} (h : c = s) : (.next (if s0.alive then c else s0) : Host.Outcome State Fault Refusal) =
      .next s := (runs c).trans (congrArg _ h)
    exact ⟨still arm, still start, still stop, still pop, still capsw, still period, still cmp0, still cmp1⟩
  case go => exact (runs _).trans (congrArg _ (tmrGo_eq s w lo hi))

end Sys2Proof.Machine

/-! The latches of the timebase's readers (R279, R288). -/

namespace Sys2Proof.Machine

section
variable {s t : State}

theorem reader_of_eng (h : t.eng = s.eng) (w : Agent) : t.reader w = s.reader w := by
  cases w with
  | porch => rfl
  | engine e => rfl
  | inst st i => rw [State.reader, State.carrier, h, State.reader, State.carrier]

theorem readerSt_setReader (ok : Tab.ok .fresh s.tmr.readers = true) (r k : Nat) (v : TmrReader) :
    (s.setReader r v).readerSt k = if k = r then v else s.readerSt k := Tab.get_set ok r k v

@[simp] theorem takeDues_reader (s : State) (w : Agent) : s.takeDues.reader w = s.reader w :=
  reader_of_eng (eng_of_sansTimers s.takeDues_sansTimers) w

@[simp] theorem takeDues_readerSt (s : State) (r : Nat) : s.takeDues.readerSt r = s.readerSt r :=
  congrArg (fun l => Tab.get TmrReader.fresh l r) (takeDues_keeps s).readers

theorem readReg_tbLo (s : State) (w : Agent) : s.readReg w 0x30000 = BitVec.ofNat 32 s.tb := by
  change BitVec.ofNat 32 s.takeDues.tb = _
  rw [State.takeDues_tb]

/-- TMR_TB_HI shows the latch of the reader, and 0 to an instance that no engine carries. -/
theorem readReg_tbHi (s : State) (w : Agent) :
    s.readReg w 0x30004 = ((s.reader w).map fun r => (s.readerSt r).tbHi).getD 0 := by
  change (((s.takeDues.reader w).map s.takeDues.readerSt).getD .fresh).tbHi = _
  rw [takeDues_reader]
  cases s.reader w with
  | none => rfl
  | some r => exact congrArg TmrReader.tbHi (takeDues_readerSt s r)

theorem tbRead_of_reader {w : Agent} {r : Nat} (reads : s.reader w = some r) : s.tbRead w =
    s.setReader r { s.readerSt r with tbHi := BitVec.ofNat 32 (s.tb / 2 ^ 32) } := by
  rw [State.tbRead, reads]

theorem tbRead_of_none {w : Agent} (away : s.reader w = none) : s.tbRead w = s := by
  rw [State.tbRead, away]

/-- The counts that a snapshot of the named timers leaves in TMR_SCNT (R288). -/
def State.snapped (s : State) (r : Nat) (lo hi : Word) : Tab Word :=
  (List.range 64).foldl (fun acc n =>
    if (hi ++ lo).getLsbD n then Tab.set 0#32 acc n (s.timer n).count else acc) (s.readerSt r).scnt

theorem tmrSnap_of_reader {w : Agent} {r : Nat} (reads : s.reader w = some r) (lo hi : Word) : s.tmrSnap w lo hi =
    s.setReader r { s.readerSt r with snapTb := BitVec.ofNat 64 s.tb, scnt := s.snapped r lo hi } := by
  simp only [State.tmrSnap, reads, getLsbD_words]
  rfl

theorem tmrSnap_of_none {w : Agent} (away : s.reader w = none) (lo hi : Word) : s.tmrSnap w lo hi = s := by
  rw [State.tmrSnap, away]

/-- TMR_SNAP latches the counts of the named timers and leaves the others (R288). -/
theorem get_snapped (r : Nat) (lo hi : Word) (ok : Tab.ok 0#32 (s.readerSt r).scnt = true) (n : Nat) :
    Tab.get 0#32 (s.snapped r lo hi) n = if n < 64 ∧ (hi ++ lo).getLsbD n = true then (s.timer n).count
      else Tab.get 0#32 (s.readerSt r).scnt n := by
  rw [State.snapped, Tab.get_foldl_set _ _ _ ok]
  simp only [List.mem_range]

/-! ### Who carries an instance (R128, R281) -/

theorem carrier_of_settled {st : Bool} {i : Nat} {v : Inst} (found : s.inst st i = some v)
    (settled : v.moving = false) : s.carrier st i = v.engine := by
  change (s.inst st i).bind _ = _
  rw [found, Option.bind_some, settled]

theorem carrier_of_draining {st : Bool} {i e : Nat} {v : Inst} (found : s.inst st i = some v) (moves : v.moving = true)
    (source : v.from_ = some e) (draining : (s.engine e).st = .draining) : s.carrier st i = some e := by
  change (s.inst st i).bind _ = _
  rw [found, Option.bind_some, moves, source]
  exact if_pos draining

end

/-- Settles O39: a read and a snapshot reach the latches of their reader alone. -/
theorem timebaseReadsAndSnapshots : Obligations.TimebaseReadsAndSnapshots := by
  unfold Obligations.TimebaseReadsAndSnapshots
  refine ⟨fun s w live ok =>
      ⟨readReg_tbLo s w, next_of_alive live _, ?reset, fun r reads => ?reader, fun away => ?unread⟩,
    fun s e => ⟨rfl, rfl⟩, fun s st i v found => ⟨fun settled => ?settled, fun e moves source draining => ?draining⟩⟩
  case reset =>
    rw [readReg_tbHi]
    cases State.reset.reader w with
    | none => rfl
    | some r => rfl
  case reader =>
    have after := tbRead_of_reader reads
    have kept : (s.tbRead w).reader w = some r := by rw [after]; exact (reader_of_eng rfl w).trans reads
    refine ⟨(next_of_alive live _).trans (congrArg _ after), ?_, ?_, fun r' other => ?_, fun lo hi okc => ?_⟩
    · rw [readReg_tbHi, reads]
      rfl
    · rw [readReg_tbHi, kept, after]
      exact congrArg TmrReader.tbHi ((readerSt_setReader ok r r _).trans (if_pos rfl))
    · rw [after]
      exact (readerSt_setReader ok r r' _).trans (if_neg other)
    · have snap := tmrSnap_of_reader ((takeDues_reader s w).trans reads) lo hi
      rw [takeDues_readerSt, State.takeDues_tb] at snap
      refine ⟨_, (next_of_alive live _).trans (congrArg _ snap), fun n => ?_⟩
      rw [get_snapped r lo hi (by rwa [takeDues_readerSt]), takeDues_readerSt]
  case unread =>
    refine ⟨(next_of_alive live _).trans (congrArg _ (tbRead_of_none away)), ?_, fun lo hi => ?_⟩
    · rw [readReg_tbHi, away]
      rfl
    · exact (next_of_alive live _).trans (congrArg _ (tmrSnap_of_none ((takeDues_reader s w).trans away) lo hi))
  case settled => exact congrArg (Option.map (· + 1)) (carrier_of_settled found settled)
  case draining => exact congrArg (Option.map (· + 1)) (carrier_of_draining found moves source draining)

end Sys2Proof.Machine

/-! A timer by itself over one tick, and the events that it raises (R280, R282 to R284). -/

namespace Sys2Proof.Machine

/-! ### What a tick leaves of the timers and the supplies -/

/-- The timers and the supplies of a state. -/
def State.clockwork (s : State) : Tmr × Pwr := (s.tmr, s.pwr)

theorem clockwork_of_recorded {s t : State} (h : Recorded s t) : t.clockwork = s.clockwork :=
  h.congr State.clockwork fun _ _ => rfl

theorem clockwork_of_link {s t : State} (h : LinkOnly s t) : t.clockwork = s.clockwork := by
  rw [h.rest]
  rfl

section
variable (s : State)

theorem chargePort_clockwork (p : Nat) : (s.chargePort p).clockwork = s.clockwork := by
  unfold State.chargePort
  split
  · exact (clockwork_of_link (portTo_link (s.charged (8 + p)) p .failed)).trans rfl
  · rfl

theorem transmit_clockwork (p : Nat) (f : List Byte) : (s.transmit p f).clockwork = s.clockwork := by
  refine (chargePort_clockwork _ p).trans ?_
  exact (clockwork_of_recorded (runUnit_recorded s (8 + p) fun c => c.payload 3#2 (f.take (f.length - 4))) :)

theorem servePort_clockwork (p : Nat) : (s.servePort p).clockwork = s.clockwork := by
  unfold State.servePort
  dsimp only
  split
  · rfl
  · split
    · exact transmit_clockwork _ p _
    · split
      · rfl
      · rfl

theorem servePorts_clockwork : s.servePorts.clockwork = s.clockwork := by
  unfold State.servePorts
  split
  · exact foldl_view State.clockwork servePort_clockwork _ s
  · rfl

theorem post_clockwork (x : Sent) : (s.post x).clockwork = s.clockwork := by
  rw [post_eq]
  rfl

theorem serveBoxes_clockwork : s.serveBoxes.clockwork = s.clockwork := by
  unfold State.serveBoxes
  split
  · have emptied : ({ s with por := { s.por with boxes := [] } } : State).clockwork = s.clockwork := rfl
    exact (foldl_view State.clockwork (fun a (b : Box) => post_clockwork a b.out) s.por.boxes _).trans emptied
  · rfl

end

theorem fieldBound_of_on {s : State} (on : s.pwr.off = false) : s.fieldBound = s := by
  rw [State.fieldBound, on]
  rfl

/-- While the device is not switched off a tick steps the timers, and what else it does leaves them. -/
theorem tick_tmr {s : State} (ticks : s.ticking = true) (on : s.tmrTick.pwr.off = false) :
    s.tick.tmr = s.tmrTick.tmr := by
  have served := servePorts_clockwork s.tmrTick
  have pwr : s.tmrTick.servePorts.pwr = s.tmrTick.pwr := congrArg Prod.snd served
  rw [State.tick, if_pos ticks, fieldBound_of_on (by rw [pwr, on])]
  exact congrArg Prod.fst ((serveBoxes_clockwork _).trans served)

/-! ### One tick of a running timer (R280, R283, R284) -/

/-- Each enabled compare of `t` that has not fired in the run is due in `x` exactly when the count of `x` has reached
it, at or below the period, and counts as fired. -/
def Timer.Fires (t x : Timer) : Prop :=
  x.period = t.period ∧
  x.cmpDue0 = (bitOf t.src 24 && !t.fired0 && decide (t.cmp0 ≤ x.count ∧ t.cmp0 ≤ t.period)) ∧
  x.fired0 = (t.fired0 || x.cmpDue0) ∧
  x.cmpDue1 = (bitOf t.src 25 && !t.fired1 && decide (t.cmp1 ≤ x.count ∧ t.cmp1 ≤ t.period)) ∧
  x.fired1 = (t.fired1 || x.cmpDue1)

section
variable {t : Timer} (now : Nat)

theorem Timer.due_fires (runs : t.st = .running) (calm : t.calm) : t.Fires t.due := by
  obtain ⟨-, no0, no1⟩ := calm
  rw [Timer.due, if_pos runs]
  simp [Timer.Fires, no0, no1]

theorem Timer.ticked_waits (waits : t.phase + 1 < t.presc) : t.ticked now = { t with phase := t.phase + 1 }.due :=
  if_pos waits

/-- At the P-th tick the timer counts, and at its period it ends. -/
theorem Timer.ticked_counts (counts : t.phase + 1 = t.presc) : t.ticked now =
    if t.count + 1 = t.period then { t with phase := 0, count := t.count + 1 }.due.ended now
      else { t with phase := 0, count := t.count + 1 }.due := if_neg (by omega)

theorem Timer.ticked_fires (runs : t.st = .running) (calm : t.calm) (before : t.phase < t.presc) :
    t.Fires (t.ticked now) := by
  by_cases waits : t.phase + 1 < t.presc
  · rw [Timer.ticked_waits now waits]
    exact Timer.due_fires (t := { t with phase := t.phase + 1 }) runs calm
  · have fires := Timer.due_fires (t := { t with phase := 0, count := t.count + 1 }) runs calm
    rw [Timer.ticked_counts now (by omega)]
    split
    · exact fires
    · exact fires

theorem Timer.ticked_phase (waits : t.phase + 1 < t.presc) :
    (t.ticked now).count = t.count ∧ (t.ticked now).phase = t.phase + 1 := by
  rw [Timer.ticked_waits now waits]
  exact ⟨Timer.due_count _, Timer.due_phase _⟩

theorem Timer.ticked_count (counts : t.phase + 1 = t.presc) :
    (t.ticked now).count = t.count + 1 ∧ (t.ticked now).phase = 0 := by
  have counted : ({ t with phase := 0, count := t.count + 1 } : Timer).due.count = t.count + 1 ∧
    ({ t with phase := 0, count := t.count + 1 } : Timer).due.phase = 0 := ⟨Timer.due_count _, Timer.due_phase _⟩
  rw [Timer.ticked_counts now counts]
  split
  · exact counted
  · exact counted

/-- A running timer whose count was below its period is DONE, its end due, exactly when the count is the period. -/
theorem Timer.ticked_st (runs : t.st = .running) (calm : t.calm) (before : t.phase < t.presc)
    (below : t.count < t.period) : if (t.ticked now).count = t.period
      then (t.ticked now).st = .done ∧ (t.ticked now).endDue = true
      else (t.ticked now).st = .running ∧ (t.ticked now).endDue = false := by
  by_cases waits : t.phase + 1 < t.presc
  · rw [if_neg ((Timer.ticked_phase now waits).1 ▸ BitVec.ne_of_lt below), Timer.ticked_waits now waits]
    exact ⟨(Timer.due_st _).trans runs, (Timer.due_endDue _).trans calm.1⟩
  · rw [(Timer.ticked_count now (by omega)).1, Timer.ticked_counts now (by omega)]
    split
    · exact ⟨rfl, rfl⟩
    · exact ⟨(Timer.due_st _).trans runs, (Timer.due_endDue _).trans calm.1⟩

end

/-- The only timer of a state steps with the tick (R280). -/
theorem tick_timer {s : State} {n : Nat} {t : Timer} (ticks : s.ticking = true) (on : s.pwr.off = false)
    (only : s.tmr.timers = [(n, t)]) (low : n < 64) (single : t.casc = false) (used : t ≠ .unused)
    (runs : t.st = .running) (thawed : s.frozen n = false) (idle : t.latched = false) (prompt : t.late = false)
    (calm : t.calm) : s.tick.timer n = t.ticked (s.tb + 1) := by
  have ok : Tab.ok .unused s.tmr.timers = true := by simp [only, Tab.ok, Tab.okFrom, used]
  have own : s.timer n = t := by simp [State.timer, only, Tab.get]
  have next : s.timer (n + 1) = .unused := by simp [State.timer, only, Tab.get]
  have alone : Alone s n := ⟨low, own ▸ single, fun _ => by rw [next]; rfl⟩
  have quiet : s.takeDues = s := takeDues_of_calm ok fun x listed => by
    rw [only, List.mem_singleton] at listed
    exact listed ▸ calm
  have ticked : s.tmrTick = ({ s with tb := s.tb + 1 } : State).stepTimer n := by
    rw [State.tmrTick, quiet, only]
    rfl
  subst own
  have stepped := stepTimer_retimed (s := { s with tb := s.tb + 1 }) ok alone idle runs thawed prompt
  rw [State.timer, tick_tmr ticks (by rw [ticked, stepped.pwr]; exact on), ticked]
  exact stepped.own

/-! ### END_EVENT and COMPARE (R280, R283, R284) -/

theorem timer_of_recorded {s t : State} (h : Recorded s t) (j : Nat) : t.timer j = s.timer j :=
  h.congr (fun u => u.timer j) fun _ _ => rfl

section
variable {s : State} {n : Nat} (ok : Tab.ok .unused s.tmr.timers = true)
include ok

/-- The end is noted once; captures reach no more than queues. -/
theorem takeEnd_timer : ((s.takeEnd n).timer n).sansQueue =
    { (s.timer n).sansQueue with endDue := false, ends := (s.timer n).ends + 1 } := by
  have noted := Retimed.setTimer ok n { s.timer n with endDue := false, ends := (s.timer n).ends + 1 }
  exact (((takeEnd_keeps s n).timers noted.ok).2 n).trans (congrArg Timer.sansQueue noted.own)

theorem takeTerr_timer (alone : Alone s n) : (s.takeTerr n).timer n = { (s.timer n).toIdle with terr := true } ∧
    ∀ j, j ≠ n → (s.takeTerr n).timer j = s.timer j := by
  have failed := ((Retimed.updTimer_self ok n Timer.toIdle).updTimer fun t => { t with terr := true }).noteFlag
    (timerFlag n 6)
  rw [State.takeTerr, chain_of_alone alone]
  exact ⟨(timer_of_recorded (record_recorded ..) n).trans failed.own,
    fun j other => (timer_of_recorded (record_recorded ..) j).trans (failed.others j other)⟩

theorem takeCompare_retimed (one : Bool) : Retimed s (s.takeCompare n one) n
    (if one then { s.timer n with cf1 := true, cmpDue1 := false }
      else { s.timer n with cf0 := true, cmpDue0 := false }) :=
  (Retimed.updTimer_self ok n fun t =>
    if one then { t with cf1 := true, cmpDue1 := false } else { t with cf0 := true, cmpDue0 := false }).noteFlag _

end

section
variable {s : State} {n : Fin 64} (live : s.alive = true) (thawed : s.frozen n.val = false)
include live thawed

theorem exec_endEvent_end : exec (.endEvent n false) s =
    .next (if (s.timer n.val).endDue then s.takeEnd n.val else s) := by
  change execEndEvent n false s = _
  rw [execEndEvent, live, thawed]
  rfl

theorem exec_endEvent_differ : exec (.endEvent n true) s = .next (
    if (s.timer n.val).st = .running || (s.timer n.val).endAt == some s.tb then s.takeTerr n.val else s) := by
  change execEndEvent n true s = _
  rw [execEndEvent, live, thawed]
  rfl

theorem exec_compare (one : Bool) : exec (.compare n one) s = .next (
    if (if one then (s.timer n.val).cmpDue1 else (s.timer n.val).cmpDue0) then s.takeCompare n.val one else s) := by
  change execCompare n one s = _
  rw [execCompare, live, thawed]
  rfl

end

/-- Settles O41: a tick is one step of the timer, and an event that is due is taken once. -/
theorem timersCountAndEnd : Obligations.TimersCountAndEnd := by
  unfold Obligations.TimersCountAndEnd
  refine ⟨?tick, ?endEvent, ?compare⟩
  case tick =>
    intro s n t empty ticks on only low single used runs thawed idle prompt noEnd no0 no1 below before
    have calm : t.calm := ⟨noEnd, no0, no1⟩
    have tb : s.tick.tb = s.tb + 1 := (State.tick_spec s).2.1.trans (if_pos ticks)
    refine ⟨s.tick, step_of_empty empty, tb, ?_⟩
    rw [tick_timer ticks on only low single used runs thawed idle prompt calm]
    obtain ⟨period, due0, fired0, due1, fired1⟩ := Timer.ticked_fires (s.tb + 1) runs calm before
    have st := Timer.ticked_st (s.tb + 1) runs calm before below
    exact ⟨Timer.ticked_phase _, Timer.ticked_count _, period, fun last => by rwa [if_pos last] at st,
      fun more => by rwa [if_neg more] at st, due0, fired0, due1, fired1⟩
  case endEvent =>
    intro s n live thawed ok t
    have run := exec_endEvent_end (n := n) live thawed
    have differ := exec_endEvent_differ (n := n) live thawed
    refine ⟨fun due => ⟨s.takeEnd n, run.trans (congrArg _ (if_pos due)), ?taken⟩,
      fun calm => run.trans (congrArg _ (if_neg (Bool.eq_false_iff.1 calm))),
      fun runs alone => ⟨s.takeTerr n, differ.trans (congrArg _ (if_pos ?counting)), ?failed⟩⟩
    case taken =>
      have noted := takeEnd_timer (n := n) ok
      exact ⟨(congrArg Timer.st noted :), (congrArg Timer.count noted :), (congrArg Timer.endDue noted :),
        (congrArg Timer.ends noted :)⟩
    case counting => exact Bool.or_eq_true_iff.2 (.inl (decide_eq_true runs))
    case failed =>
      obtain ⟨own, others⟩ := takeTerr_timer ok alone
      rw [own]
      exact ⟨rfl, rfl, others⟩
  case compare =>
    intro s n live thawed ok t
    have run (one : Bool) := exec_compare (n := n) live thawed one
    have fires (one : Bool) := takeCompare_retimed (n := n) ok one
    exact ⟨fun due => ⟨_, (run false).trans (congrArg _ (if_pos due)), (fires false).own, (fires false).others⟩,
      fun due => ⟨_, (run true).trans (congrArg _ (if_pos due)), (fires true).own, (fires true).others⟩,
      fun calm => (run false).trans (congrArg _ (if_neg (Bool.eq_false_iff.1 calm))),
      fun calm => (run true).trans (congrArg _ (if_neg (Bool.eq_false_iff.1 calm)))⟩

end Sys2Proof.Machine

/-! The algorithms of Table 14.2 and one check-value unit by itself: INIT, byte-steps, its result and the comparison with
it (R297 to R300, R302, R303). -/

namespace Sys2Proof.Machine

/-! ### Bytes of a number, most significant first (R3) -/

/-- What lies above the bytes taken does not matter. -/
theorem beBytes_mod {k n : Nat} (hk : k ≤ n) (v : Nat) : beBytes k (v % 256 ^ n) = beBytes k v := by
  induction k with
  | zero => rfl
  | succ k ih =>
    have top : 256 ^ n = 256 ^ k * (256 ^ (n - k - 1) * 256) := by
      rw [← Nat.pow_succ, ← Nat.pow_add]
      congr 1
      omega
    have byte : BitVec.ofNat 8 (v % 256 ^ n / 256 ^ k) = BitVec.ofNat 8 (v / 256 ^ k) := by
      refine BitVec.eq_of_toNat_eq ?_
      rw [BitVec.toNat_ofNat, BitVec.toNat_ofNat, top, Nat.mod_mul_right_div_self]
      exact Nat.mod_mod_of_dvd _ (Nat.dvd_mul_left ..)
    rw [beBytes, beBytes, byte, ih (by omega)]

theorem ofNat_byte {n : Nat} (v : BitVec n) (k : Nat) : BitVec.ofNat 8 (v.toNat / 256 ^ k) = v.extractLsb' (8 * k) 8 := by
  refine BitVec.eq_of_toNat_eq ?_
  rw [BitVec.toNat_ofNat, BitVec.extractLsb'_toNat, Nat.shiftRight_eq_div_pow, Nat.pow_mul]

theorem ofNat_lowByte {n : Nat} (v : BitVec n) : BitVec.ofNat 8 (v.toNat / 256 ^ 0) = v.setWidth 8 := by
  refine BitVec.eq_of_toNat_eq ?_
  rw [BitVec.toNat_ofNat, BitVec.toNat_setWidth, Nat.pow_zero, Nat.div_one]

theorem be16_toNat (v : Half) : be16 v.toNat = [v.extractLsb' 8 8, v.setWidth 8] := by
  rw [be16, beBytes, beBytes, beBytes, ofNat_byte, ofNat_lowByte]

/-- The bytes that a write of CVU_DATA8, CVU_DATA16 or CVU_DATA32 feeds (R299). -/
theorem beBytes_data (w : Fin 3) (v : Word) : beBytes (2 ^ w.val) (v.toNat % 256 ^ 2 ^ w.val) =
    if w = 0 then [v.setWidth 8] else if w = 1 then [v.extractLsb' 8 8, v.setWidth 8] else
      [v.extractLsb' 24 8, v.extractLsb' 16 8, v.extractLsb' 8 8, v.setWidth 8] := by
  rw [beBytes_mod (Nat.le_refl _)]
  match w with
  | 0 => exact congrArg (fun x => [x]) (ofNat_lowByte v)
  | 1 => exact congrArg₂ (fun x y => [x, y]) (ofNat_byte v 1) (ofNat_lowByte v)
  | 2 =>
    change [_, _, _, _] = [_, _, _, _]
    rw [ofNat_byte v 3, ofNat_byte v 2, ofNat_byte v 1, ofNat_lowByte v]

/-! ### Algorithms (R297) -/

theorem crcAlg_xorout_lt (p : BitVec 2) : (crcAlg p).xorout < 2 ^ (crcAlg p).width := by
  revert p
  decide

theorem crcOut_lt {p : BitVec 2} {r : Nat} (low : r < 2 ^ (crcAlg p).width) :
    crcOut (crcAlg p) r < 2 ^ (crcAlg p).width := by
  unfold crcOut
  refine Nat.xor_lt_two_pow ?_ (crcAlg_xorout_lt p)
  split
  · exact bitRev_lt ..
  · exact low

theorem crcFeed_append (g : CrcAlg) (r : Nat) (a b : List Byte) : crcFeed g r (a ++ b) = crcFeed g (crcFeed g r a) b :=
  List.foldl_append

/-! ### Byte-steps (R299) -/

section
variable (c : Cvu)

theorem Cvu.feed_eq (bs : List Byte) : c.feed bs = { c with reg := (c.feed bs).reg, len := (c.feed bs).len } := by
  unfold Cvu.feed
  split <;> rfl

@[simp] theorem Cvu.feed_upset (bs : List Byte) : (c.feed bs).upset = c.upset := (congrArg Cvu.upset (c.feed_eq bs) :)

@[simp] theorem Cvu.feed_due (bs : List Byte) : (c.feed bs).due = c.due := (congrArg Cvu.due (c.feed_eq bs) :)

@[simp] theorem Cvu.feed_failed (bs : List Byte) : (c.feed bs).failed = c.failed := (congrArg Cvu.failed (c.feed_eq bs) :)

@[simp] theorem Cvu.feed_fault (bs : List Byte) : (c.feed bs).fault = c.fault := (congrArg Cvu.fault (c.feed_eq bs) :)

@[simp] theorem Cvu.feed_faults (bs : List Byte) : (c.feed bs).faults = c.faults := (congrArg Cvu.faults (c.feed_eq bs) :)

@[simp] theorem Cvu.feed_stamps (bs : List Byte) : (c.feed bs).stamps = c.stamps := (congrArg Cvu.stamps (c.feed_eq bs) :)

theorem Cvu.feed_running {p : BitVec 2} (run : c.active = some p) (bs : List Byte) :
    c.feed bs = { c with reg := crcFeed (crcAlg p) c.reg bs, len := c.len + BitVec.ofNat 32 bs.length } := by
  simp only [Cvu.feed, run]

/-- How a byte string is split into writes does not matter. -/
theorem Cvu.feed_append (a b : List Byte) : c.feed (a ++ b) = (c.feed a).feed b := by
  cases run : c.active with
  | none => simp [Cvu.feed, run, BitVec.ofNat_add, BitVec.add_assoc]
  | some p => simp [Cvu.feed, run, crcFeed_append, BitVec.ofNat_add, BitVec.add_assoc]

/-- Byte-steps neither see nor change the defects to come. -/
theorem Cvu.feed_withUpset (n : Nat) (bs : List Byte) :
    ({ c with upset := n } : Cvu).feed bs = { c.feed bs with upset := n } := by
  cases run : c.active with
  | none => simp only [Cvu.feed, run]
  | some p => simp only [Cvu.feed, run]

/-! ### INIT (R300) -/

theorem Cvu.init_payload (mode : c.alive = false) : c.init = { c with
    active := some c.poly, reg := (crcAlg c.poly).init, len := 0, fault := false, cmpd := false, match_ := false } := by
  simp only [Cvu.init, mode, Bool.false_eq_true, if_false]

theorem Cvu.init_alive (mode : c.alive = true) : c.init = { c with
    active := some c.poly, len := 0, fault := false, cmpd := false, match_ := false,
    reg := crcFeed (crcAlg c.poly) (crcAlg c.poly).init (be16 c.aliveV.toNat),
    aliveV := if c.autoinc = true then c.aliveV + 1 else c.aliveV } := by
  simp only [Cvu.init, mode, if_true]

theorem Cvu.init_kept : c.init.upset = c.upset ∧ c.init.due = c.due := by
  unfold Cvu.init
  dsimp only
  split <;> exact ⟨rfl, rfl⟩

theorem Cvu.init_running : c.init.active = some c.poly ∧ c.init.fault = false := by
  unfold Cvu.init
  dsimp only
  split <;> exact ⟨rfl, rfl⟩

/-! ### The result (R298, R303) -/

theorem Cvu.result_sound {p : BitVec 2} (run : c.active = some p) (sound : c.fault = false) :
    c.result = crcOut (crcAlg p) c.reg := by
  simp only [Cvu.result, run, sound, Bool.false_eq_true, if_false]

theorem Cvu.result_fault {p : BitVec 2} (run : c.active = some p) (fault : c.fault = true) :
    c.result = (2 ^ (crcAlg p).width - 1) ^^^ crcOut (crcAlg p) c.reg := by
  simp only [Cvu.result, run, fault, if_true]

theorem Cvu.init_feed_result (bs : List Byte) :
    (c.init.feed bs).result = crcOut (crcAlg c.poly) (crcFeed (crcAlg c.poly) c.init.reg bs) := by
  obtain ⟨run, sound⟩ := c.init_running
  rw [Cvu.feed_running _ run]
  exact Cvu.result_sound _ run sound

theorem Cvu.init_feed_payload (mode : c.alive = false) (bs : List Byte) : (c.init.feed bs).result = crcOf c.poly bs := by
  rw [Cvu.init_feed_result, Cvu.init_payload c mode]
  rfl

theorem Cvu.init_feed_alive (mode : c.alive = true) (bs : List Byte) :
    (c.init.feed bs).result = crcOf c.poly (be16 c.aliveV.toNat ++ bs) := by
  rw [Cvu.init_feed_result, Cvu.init_alive c mode, crcOf, crcFeed_append]

/-! ### What the owner sets for the next INIT (R298) -/

theorem Cvu.write_eq (o : Nat) (v : Word) : c.write o v = { c with
    autoinc := (c.write o v).autoinc, alive := (c.write o v).alive, poly := (c.write o v).poly
    aliveV := (c.write o v).aliveV } := by
  unfold Cvu.write
  split <;> rfl

theorem Cvu.write_result (o : Nat) (v : Word) : (c.write o v).result = c.result := by
  rw [Cvu.write_eq]
  rfl

/-- Such a write and a byte-step may change places. -/
theorem Cvu.write_feed (o : Nat) (v : Word) (bs : List Byte) : (c.write o v).feed bs = (c.feed bs).write o v := by
  unfold Cvu.write
  split
  case h_1 => cases run : c.active <;> simp only [Cvu.feed, run]
  case h_2 => cases run : c.active <;> simp only [Cvu.feed, run]
  case h_3 => rfl

/-! ### CVU_EXPECT and FAULT (R302 to R304) -/

theorem Cvu.expect_eq (v : Nat) : c.expect v = { c with
    match_ := decide (v = c.result) && !c.fault, cmpd := true
    bad := if v = c.result then c.bad else min 0xFFFF (c.bad + 1) } := by
  simp only [Cvu.expect, satAdd, decide_eq_true_eq]

/-- A unit in which FAULT comes to be set by the bytes fed at operating second `now` (R303). -/
def Cvu.faulted (bytes : List Byte) (now : Nat) : Cvu :=
  { c.feed bytes with fault := true, faults := min 0xFF (c.faults + 1), stamps := now :: within24h c.stamps now }

/-- A defect that shows sets FAULT and counts it; fewer than three within 24 operating hours do not fail the unit. -/
theorem Cvu.stepped_faulted (bytes : List Byte) {now : Nat} (sound : c.upset = 0) (clear : c.fault = false)
    (few : (within24h c.stamps now).length < 2) :
    (({ c with upset := 1 } : Cvu).feed bytes).stepped now = c.faulted bytes now := by
  have third : decide (3 ≤ (now :: within24h c.stamps now).length) = false := by
    rw [decide_eq_false_iff_not, List.length_cons]
    omega
  rw [Cvu.feed_withUpset, Cvu.stepped, if_neg (by simp [clear])]
  simp only [Cvu.feed_stamps, Cvu.feed_faults, third, satAdd, Bool.or_false, Bool.and_false, Nat.sub_self]
  rw [← sound, ← c.feed_upset bytes]
  rfl

end

/-- Settles O43: the table by evaluation, then what a unit's result depends on. -/
theorem checkAlgorithmsAndTheirResult : Obligations.CheckAlgorithmsAndTheirResult := by
  refine ⟨⟨rfl, ?crc8⟩, ⟨rfl, ?crc16⟩, ⟨rfl, ?crc32⟩, ⟨rfl, ?crc32c⟩, fun _ => rfl, fun _ _ => rfl, ?writes, ?result⟩
  case crc8 => decide +kernel
  case crc16 => decide +kernel
  case crc32 => decide +kernel
  case crc32c => decide +kernel
  case writes => exact fun c o v bs => ⟨c.write_result o v, by rw [c.write_feed, Cvu.write_result], c.init_running.1⟩
  case result =>
    intro c p run sound low
    rw [c.result_sound run sound]
    exact ⟨rfl, crcOut_lt low⟩

end Sys2Proof.Machine

/-! A record that enters leaves the recorder's own unit, where it has no defect, without defect and without a charge that
waits (R303, R304, R396). -/

namespace Sys2Proof.Machine

section
variable {s t : State}

theorem unitClean_of_cvu {n : Nat} (clean : UnitClean s n) (same : t.cvu = s.cvu) : UnitClean t n := by
  rw [UnitClean, State.unit, same]
  exact clean

theorem recCheck_clean (clean : UnitClean s 18) (bytes : List Byte) : UnitClean (s.recCheck bytes).1 18 := by
  have once {t : State} (h : UnitClean t 18) : UnitClean (t.recUnit bytes) 18 := by
    obtain ⟨ok, sound, charged⟩ := h
    have steps : ((t.unit 18).payload 3#2 bytes).stepped t.pwr.opsec = (t.unit 18).payload 3#2 bytes :=
      if_pos (.inl ((payload_upset ..).trans sound))
    rw [State.recUnit, steps]
    refine ⟨Tab.ok_set _ _ ok, ?_, ?_⟩ <;> rw [unit_setUnit ok, if_pos rfl]
    · exact (payload_upset ..).trans sound
    · exact charged
  unfold State.recCheck
  dsimp only
  split
  · exact once (once clean)
  · exact once clean

theorem enter_clean (clean : UnitClean s 18) (c v : Nat) (p : List Byte) (b : Bool) (k : Nat) :
    UnitClean (s.enter c v p b k) 18 := by
  have check (bytes : List Byte) := recCheck_clean clean bytes
  unfold State.enter
  dsimp only
  split
  · exact unitClean_of_cvu clean rfl
  · split
    · exact unitClean_of_cvu (check _) rfl
    · split
      · exact unitClean_of_cvu (check _) rfl
      · exact unitClean_of_cvu (check _) rfl

theorem recordOnce_clean (clean : UnitClean s 18) (c v : Nat) (p : List Byte) (b : Bool) (k : Option Nat) :
    UnitClean (s.recordOnce c v p b k) 18 := by
  unfold State.recordOnce
  split
  · exact clean
  dsimp only
  split
  · refine enter_clean (unitClean_of_cvu clean ?_) ..
    split <;> rfl
  · generalize ht : (if s.rcd.lost = 0 ∨ 512 ≤ s.rcd.buf.length then s else _) = t
    have first : UnitClean t 18 := by
      rw [← ht]
      split
      · exact clean
      · exact unitClean_of_cvu (unitClean_of_cvu (enter_clean clean ..) rfl) (flushIf_cvu ..)
    split
    · exact unitClean_of_cvu (enter_clean first ..) (flushIf_cvu ..)
    · exact unitClean_of_cvu first rfl

/-- No FAULT shows, so the record enters once. -/
theorem record_of_clean (clean : UnitClean s 18) (c v : Nat) (p : List Byte) (b : Bool) (k : Option Nat) :
    s.record c v p b k = s.recordOnce c v p b k := by
  obtain ⟨-, sound, -⟩ := clean
  rw [State.record, State.recFaults]
  dsimp only
  rw [sound, if_pos (Nat.zero_le _)]

theorem record_clean (clean : UnitClean s 18) (c v : Nat) (p : List Byte) (b : Bool) (k : Option Nat) :
    UnitClean (s.record c v p b k) 18 := by
  rw [record_of_clean clean]
  exact recordOnce_clean clean ..

end

end Sys2Proof.Machine

/-! CVU_INIT, CVU_DATA and CVU_EXPECT of a unit whose domain is powered (R299, R300, R302 to R304). -/

namespace Sys2Proof.Machine

variable {s : State}

theorem setUnit_setUnit (ok : Tab.ok .fresh s.cvu = true) (u : Nat) (c d : Cvu) :
    (s.setUnit u c).setUnit u d = s.setUnit u d := by
  simp only [State.setUnit, Tab.set_set ok]

/-- No unit has failed without being charged to its owner (Table 14.4). -/
def State.AllCharged (s : State) : Prop := ∀ k < 19, (s.unit k).due = false

theorem State.AllCharged.setUnit (charged : s.AllCharged) (ok : Tab.ok .fresh s.cvu = true) (u : Nat) {c : Cvu}
    (own : c.due = false) : (s.setUnit u c).AllCharged := fun k hk => by
  rw [unit_setUnit ok]
  split
  · exact own
  · exact charged k hk

theorem State.AllCharged.record (charged : s.AllCharged) (ok : Tab.ok .fresh s.cvu = true)
    (recorder : (s.unit 18).upset = 0) (c v : Nat) (p : List Byte) : (s.record c v p).AllCharged := fun k hk => by
  by_cases other : k = 18
  · obtain ⟨-, -, still⟩ := record_clean ⟨ok, recorder, charged 18 (by decide)⟩ c v p false none
    rwa [other]
  · rw [(record_noted s c v p false none).unit ok k other]
    exact charged k hk

section
variable {u : Fin 19} (on : s.unitOn u.val = true) (ok : Tab.ok .fresh s.cvu = true) (charged : s.AllCharged)
include on ok charged

/-! ### INIT (R300) -/

theorem exec_cvuInit_payload (mode : (s.unit u.val).alive = false) :
    exec (.cvuInit u) s = .next (s.setUnit u.val (s.unit u.val).init) := by
  have started : (s.unit u.val).init.due = false := (Cvu.init_kept _).2.trans (charged u.val u.isLt)
  change execCvuInit u s = _
  rw [execCvuInit, if_pos on, State.initUnit, mode, if_neg Bool.false_ne_true,
    chargeUnits_none (charged.setUnit ok u.val started)]

theorem exec_cvuInit_alive (mode : (s.unit u.val).alive = true) (sound : (s.unit u.val).upset = 0) :
    exec (.cvuInit u) s = .next (s.setUnit u.val (s.unit u.val).init) := by
  obtain ⟨upset, due⟩ := (s.unit u.val).init_kept
  change execCvuInit u s = _
  rw [execCvuInit, if_pos on, State.initUnit, if_pos mode, runUnit_clean ok _ sound upset,
    chargeUnits_none (charged.setUnit ok u.val (due.trans (charged u.val u.isLt)))]

/-! ### Data (R299, R303) -/

theorem exec_cvuData_none (w : Fin 3) (v : Word) (sound : (s.unit u.val).upset = 0) :
    exec (.cvuData u w v .none) s = .next (s.setUnit u.val
      ((s.unit u.val).feed (beBytes (2 ^ w.val) (v.toNat % 256 ^ 2 ^ w.val)))) := by
  generalize hb : beBytes (2 ^ w.val) (v.toNat % 256 ^ 2 ^ w.val) = bytes
  have due : ((s.unit u.val).feed bytes).due = false := (Cvu.feed_due ..).trans (charged u.val u.isLt)
  change execCvuData u w v .none s = _
  rw [execCvuData, on]
  dsimp only
  rw [hb, if_neg (by decide), runUnit_clean ok _ sound (Cvu.feed_upset ..),
    chargeUnits_none (charged.setUnit ok u.val due)]

end

/-- A FAULT that has come about is recorded, and nothing else where the unit does not fail with it (R303, R304). -/
theorem noteFault_stands {u : Nat} {was : Cvu} (shown : (s.unit u).upset < was.upset)
    (stands : (s.unit u).failed = was.failed) : s.noteFault u was = s.record 0x0E01 2 [BitVec.ofNat 8 u, 0#8] := by
  rw [State.noteFault]
  dsimp only
  rw [if_neg (Nat.not_le.2 shown), stands, Bool.and_not_self, if_neg Bool.false_ne_true]

theorem runUnit_shows {u : Nat} (ok : Tab.ok .fresh s.cvu = true) (bytes : List Byte) (sound : (s.unit u).upset = 0)
    (clear : (s.unit u).fault = false) (few : (within24h (s.unit u).stamps s.pwr.opsec).length < 2) :
    (s.upsetUnit u 1).runUnit u (fun c => c.feed bytes) =
      (s.setUnit u ((s.unit u).faulted bytes s.pwr.opsec)).record 0x0E01 2 [BitVec.ofNat 8 u, 0#8] := by
  have was : (s.upsetUnit u 1).unit u = { s.unit u with upset := 1 } := by
    rw [State.upsetUnit, unit_setUnit ok, if_pos rfl, sound]
  have now : (s.setUnit u ((s.unit u).faulted bytes s.pwr.opsec)).unit u = (s.unit u).faulted bytes s.pwr.opsec := by
    rw [unit_setUnit ok, if_pos rfl]
  have upset : ((s.unit u).faulted bytes s.pwr.opsec).upset = 0 := ((s.unit u).feed_upset bytes).trans sound
  have steps := (s.unit u).stepped_faulted bytes sound clear few
  rw [State.runUnit, was, State.upsetUnit, setUnit_setUnit ok]
  change (s.setUnit u ((({ s.unit u with upset := 1 } : Cvu).feed bytes).stepped s.pwr.opsec)).noteFault u _ = _
  rw [steps]
  refine noteFault_stands ?_ ?_ <;> rw [now]
  · rw [upset]
    exact Nat.zero_lt_one
  · exact (s.unit u).feed_failed bytes

theorem exec_cvuData_now {u : Fin 19} (on : s.unitOn u.val = true) (ok : Tab.ok .fresh s.cvu = true)
    (charged : s.AllCharged) (w : Fin 3) (v : Word) (other : u ≠ 18) (sound : (s.unit u.val).upset = 0)
    (recorder : (s.unit 18).upset = 0) (clear : (s.unit u.val).fault = false)
    (few : (within24h (s.unit u.val).stamps s.pwr.opsec).length < 2) :
    exec (.cvuData u w v .now) s = .next ((s.setUnit u.val ((s.unit u.val).faulted
      (beBytes (2 ^ w.val) (v.toNat % 256 ^ 2 ^ w.val)) s.pwr.opsec)).record 0x0E01 2
        [BitVec.ofNat 8 u.val, 0#8]) := by
  generalize hb : beBytes (2 ^ w.val) (v.toNat % 256 ^ 2 ^ w.val) = bytes
  have due : ((s.unit u.val).faulted bytes s.pwr.opsec).due = false :=
    ((s.unit u.val).feed_due bytes).trans (charged u.val u.isLt)
  have apart : (18 : Nat) ≠ u.val := fun h => other (Fin.ext h.symm)
  have recorder' : ((s.setUnit u.val ((s.unit u.val).faulted bytes s.pwr.opsec)).unit 18).upset = 0 := by
    rw [unit_setUnit ok, if_neg apart]
    exact recorder
  change execCvuData u w v .now s = _
  rw [execCvuData, on]
  dsimp only
  rw [hb, if_neg (by decide), clear, if_neg Bool.false_ne_true, runUnit_shows ok bytes sound clear few,
    chargeUnits_none ((charged.setUnit ok u.val due).record (Tab.ok_set _ _ ok) recorder' _ _ _)]

/-! ### CVU_EXPECT (R302) -/

theorem exec_cvuExpect {u : Fin 19} (on : s.unitOn u.val = true) (v : Word) :
    exec (.cvuExpect u v) s = .next (s.setUnit u.val ((s.unit u.val).expect v.toNat)) := by
  change execCvuExpect u v s = _
  rw [execCvuExpect, if_pos on]

/-- Settles O42: each command by its own rule, then the result in FAULT, then the result of bytes fed in two parts. -/
theorem checkValueUnits : Obligations.CheckValueUnits := by
  refine ⟨?commands, fun d p run fault => d.result_fault run fault, ?parts⟩
  case commands =>
    intro s u on ok charged c bytes
    have fed (w : Fin 3) (v : Word) : beBytes (2 ^ w.val) (v.toNat % 256 ^ 2 ^ w.val) = bytes w v := beBytes_data w v
    refine ⟨fun mode => ?payload, fun mode sound => ?alive, fun w v sound => ?data,
      fun w v other sound recorder clear few => ?fault, fun v => ?expect⟩
    case payload => rw [exec_cvuInit_payload on ok charged mode, Cvu.init_payload _ mode]
    case alive => rw [exec_cvuInit_alive on ok charged mode sound, Cvu.init_alive _ mode, be16_toNat]
    case data => rw [exec_cvuData_none on ok charged w v sound, fed]
    case fault => rw [exec_cvuData_now on ok charged w v other sound recorder clear few, fed, Cvu.faulted]
    case expect => rw [exec_cvuExpect on, Cvu.expect_eq]
  case parts =>
    intro d a b
    rw [← Cvu.feed_append]
    exact ⟨fun mode => d.init_feed_payload mode _, fun mode => d.init_feed_alive mode _⟩

end Sys2Proof.Machine

/-! The host and the check-value units (R296): it reads their block at OBSERVE, and its writes reach none of it. -/

namespace Sys2Proof.Machine

theorem regLevel_read_cvu {a : Nat} (hb : a / 0x10000 = 4) : regLevel false a = .observe := by
  simp only [regLevel, hb]

theorem regLevel_write_cvu {a : Nat} (hb : a / 0x10000 = 4) : regLevel true a = .observe := by
  simp only [regLevel, hb]

theorem writeReg_host_cvu (s : State) (w : Agent) {a : Nat} (v : Word) (hb : a / 0x10000 = 4) :
    s.writeReg w true a v = (s, stOk) :=
  Prod.ext ((writeReg_host s w a v).trans (if_pos hb)) (by simp only [State.writeReg, hb])

/-- Writes of the host to the block alone, however many, are all made and change nothing. -/
theorem writeRegsList_cvu (s : State) {l : List (Nat × Word)} (hl : ∀ e ∈ l, e.1 / 0x10000 = 4) :
    s.writeRegsList l = (s, stOk, l.length) := by
  induction l with
  | nil => rfl
  | cons e l ih =>
    rw [State.writeRegsList, writeReg_host_cvu s .porch e.2 (hl e List.mem_cons_self)]
    dsimp only
    rw [if_pos rfl, ih fun x hx => hl x (List.mem_cons_of_mem e hx), List.length_cons]

/-- A list of valid addresses of the block is admitted at any level, and without a timebase (R345). -/
theorem judgeRegs_cvu (s : State) (session : Byte) {l : List Nat} (hl : ∀ a ∈ l, a / 0x10000 = 4 ∧ a % 4 = 0) :
    s.judgeRegs session true l = stOk := by
  have valid : l.all addrOk = true := List.all_eq_true.2 fun a ha =>
    addrOk_of_block (by have := (hl a ha).1; omega) (hl a ha).2
  have level : (l.all fun a => !addrOk a || s.admitted session (regLevel true a)) = true :=
    List.all_eq_true.2 fun a ha => by rw [regLevel_write_cvu (hl a ha).1, State.admitted, Bool.or_true]
  have timebase : (l.any fun a => s.observeOnly (regLevel true a)) = false :=
    List.any_eq_false.2 fun a ha => by simp [regLevel_write_cvu (hl a ha).1, State.observeOnly]
  simp [State.judgeRegs, valid, level, timebase]

/-- The body of WRITE_REGS with one entry (R345). -/
def writeRegsBody (a : Nat) (v : Word) : List Byte := [0#8, 1#8, 0#8, 0#8] ++ be32 a ++ wordBytes v

theorem writeRegsBody_fields {a : Nat} (ha : a < 2 ^ 32) (v : Word) :
    regCount (writeRegsBody a v) 8 125 = some 1 ∧ numAt (writeRegsBody a v) 4 4 = a ∧
      wordAt (writeRegsBody a v) 8 = v := by
  have addr : be32 a = wordBytes (BitVec.ofNat 32 a) := by
    rw [wordBytes, BitVec.toNat_ofNat, Nat.mod_eq_of_lt ha]
    rfl
  have number : numAt (writeRegsBody a v) 4 4 = beNat (be32 a) := rfl
  have value : numAt (writeRegsBody a v) 8 4 = beNat (wordBytes v) := rfl
  have count : numAt (writeRegsBody a v) 0 2 = 1 := (by decide : beNat [0#8, 1#8] = 1)
  refine ⟨?_, ?_, ?_⟩
  · simp only [regCount, count]
    exact if_pos ⟨by decide, by decide, rfl⟩
  · rw [number, addr, beNat_wordBytes, BitVec.toNat_ofNat, Nat.mod_eq_of_lt ha]
  · rw [wordAt, value, beNat_wordBytes, BitVec.ofNat_toNat, BitVec.setWidth_eq]

/-- One write to the block, outside the loader (R296). -/
theorem writeRegs_cvu {s : State} (h : Hdr) {a : Nat} (v : Word) (running : s.inLoader = false) (hb : a / 0x10000 = 4)
    (h4 : a % 4 = 0) : s.writeRegs h (writeRegsBody a v) = (s, stOk, [0#8, 1#8]) := by
  obtain ⟨count, addr, value⟩ := writeRegsBody_fields (a := a) (by omega) v
  have entries : ((List.range 1).map fun i =>
      (numAt (writeRegsBody a v) (4 + 8 * i) 4, wordAt (writeRegsBody a v) (8 + 8 * i))) = [(a, v)] :=
    congrArg₂ (fun x y => [(x, y)]) addr value
  have judged : s.judgeRegs h.session true [a] = stOk := judgeRegs_cvu s _ (by simp [hb, h4])
  have made : s.writeRegsList [(a, v)] = (s, stOk, 1) := writeRegsList_cvu s (by simp [hb])
  unfold State.writeRegs
  rw [count]
  dsimp only
  rw [entries, List.map_singleton, judged, if_neg (not_not.2 rfl), running, if_neg Bool.false_ne_true, made]
  exact congrArg (fun b => (s, stOk, b)) (by decide : be16 1 = [0#8, 1#8])

/-- Settles O44: the levels of the block, then one write by a request, then a write at any place of a list. -/
theorem hostReachesNoCheckUnit : Obligations.HostReachesNoCheckUnit := by
  refine ⟨fun a hb => regLevel_read_cvu hb, ?request, fun s w a v hb => writeReg_host_cvu s w v hb⟩
  intro s s1 h op a v running admitted hb h4
  exact congrArg Host.Outcome.next (request_answered admitted (writeRegs_cvu h v running hb h4))

end Sys2Proof.Machine
